-- ==== Sys2Proof/Word.lean ====
section
/-! DEFINITION. The words of the tile: bytes and control-space words as bit vectors. -/

namespace Sys2Proof

/-- A byte of memory or of a frame. -/
abbrev Byte := BitVec 8
/-- A control-space word (R10). -/
abbrev Word := BitVec 32
/-- A doubleword: an integer register of a control core (R45). -/
abbrev DWord := BitVec 64

end Sys2Proof
end

