-- ==== Sys2Proof/Syntax.lean ====
section
/-! DEFINITION. The commands of the block: one constructor of `Instr` for each row of spec/opcode_table.json. The table
gives a row no operand fields; an operand here is what the step takes from outside the tile's own
state: the frame received, the register value written, the site and unit that steps, what an unmodelled wire showed. -/

namespace Sys2Proof

/-- A site of the mesh (R23). -/
abbrev Site := Fin 64
/-- A task slot of a cluster (R16). -/
abbrev SlotId := Fin 4
/-- A matrix array A0..A3 of a cluster (R15). -/
abbrev ArrId := Fin 4
/-- A vector engine VE0, VE1 of a cluster (R15). -/
abbrev EngId := Fin 2
/-- A stream context of a cluster (R196). -/
abbrev CtxId := Fin 64
/-- A scratchpad bank of a cluster (R16). -/
abbrev BankId := Fin 32
/-- A Gulto edge N, E, S, W = 0, 1, 2, 3 (R23), or a direction of the mesh (R60). -/
abbrev Edge := Fin 4
/-- A region (R23). -/
abbrev Region := Fin 8
/-- A vertical port (R396). -/
abbrev VPort := Fin 8
/-- A command queue (R285). -/
abbrev QueueId := Fin 8192
/-- A package barrier (R219). -/
abbrev BarId := Fin 64

/-- A requester of the control-space port (R11, R12). -/
inductive Requester where
  /-- REG_READ and REG_WRITE of every queue together. -/
  | host
  /-- The ROM monitor. -/
  | monitor
  /-- The JTAG port. -/
  | jtag
  /-- A management core. -/
  | core (n : Fin 4)
deriving DecidableEq, Repr

/-- The strap pads as VDD_AON rises (R419). -/
structure Straps where
  primarySel : Bool
  tileSel    : BitVec 3
  bootEdge   : BitVec 2
  testMode   : Bool
  /-- Whether `SB_CLK` runs: the sideband is connected (R2, R455). -/
  sbClk      : Bool
  /-- Whether `AONCLK` runs (R2). -/
  aonClk     : Bool
deriving DecidableEq, Repr

/-- The width of a control-space access (R10): 8, 16, 32 or 64 bits. -/
inductive Width where
  | byte
  | half
  | word
  | dword
deriving DecidableEq, Repr

/-- A control-space access: who makes it, and its width. -/
structure Access where
  who   : Requester
  width : Width
deriving DecidableEq, Repr

/-- A sideband frame (R406); the row that receives it fixes its TYPE. -/
structure Frame where
  dst     : Byte
  src     : Byte
  payload : List Byte
deriving DecidableEq, Repr

/-- How an attempt to send a sideband frame ends (R407, R409). -/
inductive SendEnd where
  /-- ACK read dominant. -/
  | acked
  /-- ACK read recessive. -/
  | noAck
  /-- A bit sent dominant read recessive. -/
  | busFault
  /-- A bit sent recessive read dominant; `sameClaim` when the winner claims the same address. -/
  | arbLost (sameClaim : Bool)
deriving DecidableEq, Repr

/-- Why a sideband frame is discarded (R408). -/
inductive SbFault where
  | crc
  | len
deriving DecidableEq, Repr

/-- What a boot ROM step meets outside the tile (R426). -/
inductive BootIn where
  /-- Nothing is needed from outside, or what was asked for was granted. -/
  | none
  /-- The limit passed, or the partner refused. -/
  | fail
  /-- Vertical ports found UP at step 3, one bit per port, and the pairs of each port that run on one wire (R397). -/
  | ports (up : Byte) (single : List (BitVec 13))
  /-- Bytes that a flash read returned. -/
  | data (bytes : List Byte)
deriving DecidableEq, Repr

/-- A line of a LOAD as its port delivers it (R396, R397): the context, and the CRC words that the control wires brought with each sending of
its two 64 B lines, that with address bit 6 clear and that with it set. -/
structure LoadLine where
  ctx  : CtxId
  low  : List (BitVec 16)
  high : List (BitVec 16)
deriving DecidableEq, Repr

/-- A transfer that is to complete: its context, and for a STORE the 64 B lines, by number, of which the base layer had the port send more than
once, each with the CRC words that came with its sendings (R397). -/
structure XferEnd where
  ctx  : CtxId
  crcs : List (Nat × List (BitVec 16))
deriving DecidableEq, Repr

/-- What a region's droop detector reads of VDD_ARR and VDD_LOG, in mV (R367). -/
structure DroopRead where
  region : Region
  arr    : BitVec 12
  log    : BitVec 12
deriving DecidableEq, Repr

/-- How a self-test ends (R343, R401). -/
inductive TestEnd where
  | pass
  /-- Of a matrix array that fails: whether its accumulator banks pass. -/
  | fail (accOk : Bool)
  /-- Of an edge: the physical lanes that fail. -/
  | lanes (bad : BitVec 34)
  /-- Of a vertical port: how many of its pairs have one good wire left, and whether one has none. -/
  | pairs (single : BitVec 13) (dead : Bool)
deriving DecidableEq, Repr

/-- Names a host command in flight (R294): its queue and its sequence number. -/
structure FlightId where
  queue : QueueId
  seq   : BitVec 16
deriving DecidableEq, Repr

/-- A unit-level waiter of a cluster (R226). -/
inductive Waiter where
  /-- A task slot on a BZ.WAIT, a cancel stall or a landing slot. -/
  | slot (n : SlotId)
  /-- A stream context on its head marker or a landing slot. -/
  | ctx (d : CtxId)
  /-- An array feed on a landing slot. -/
  | array (a : ArrId)
  /-- A vector engine on a landing slot. -/
  | engine (e : EngId)
deriving DecidableEq, Repr

/-- A message of the Gulto links (R385): channel, type, destination, AUX and data units. -/
structure GMsg where
  vch  : Fin 16
  ty   : Fin 16
  dst  : Word
  aux  : DWord
  data : List Byte
deriving DecidableEq, Repr

/-- A flit after FEC decoding (R379, R381): its 256 bytes, and for each of its four codewords the symbols corrected, none where it could not be
corrected. -/
structure Flit where
  bytes : List Byte
  words : List (Option (Fin 3))
deriving DecidableEq, Repr

/-- A node of a barrier tree (R229). -/
inductive BarNode where
  | cluster (s : Site)
  | region (r : Region)
  | die
  | root
deriving DecidableEq, Repr

/-- An input of a reduction node (R244, R253): N, E, S, W, the vertical port, the tile's own contribution. -/
abbrev RedIn := Fin 6

/-- What a unit that was tested is called (R328, R342). -/
inductive TestUnit where
  /-- Unit `u` of a site (R15). -/
  | unit (s : Site) (u : Fin 16)
  /-- Bank `b` of a site. -/
  | bank (s : Site) (b : BankId)
  /-- An edge. -/
  | edge (e : Edge)
  /-- A vertical port. -/
  | vport (p : VPort)
  /-- The router adder. -/
  | adder
deriving DecidableEq, Repr

/-- A way in which a lane fails (R392). -/
inductive LaneFail where
  | errors
  | lock
  | refusals
deriving DecidableEq, Repr

/-- What a step of edge training found (R391). -/
inductive TrainIn where
  /-- The step's limit passed without success. -/
  | fail
  /-- The step ended; nothing else is learnt. -/
  | done
  /-- Step 3: lanes found bad, one bit per lane 0..33, and the partner's lane count. -/
  | lanes (bad : BitVec 34) (partner : Fin 64)
  /-- Step 6: the round trip of the probes in ACLK cycles. -/
  | latency (roundTrip : BitVec 13)
deriving DecidableEq, Repr

/-- A scan under BYPASS (R438): the code shifted into the instruction register, and the bit shifted through. -/
structure JBypass where
  code : BitVec 8 := 0xFF
  tdi  : Bool := false
deriving DecidableEq, Repr

/-- The commands: the steps of the tile. -/
inductive Instr where
  -- power, clocks and reset
  | vddAonRise (st : Straps)
  | vddAonFall
  | refclkLoss
  | selfRelease
  | bootRomStep (b : BootIn)
  | bootRetry
  | followerReportTimeout
  -- sideband
  | addrClaim (f : Frame)
  | sbClaimWindowEnd
  | sbFrameSend (o : SendEnd)
  | capQuery (f : Frame)
  | capReply (f : Frame)
  | resetHold (f : Frame)
  | resetRelease (f : Frame)
  | bootStatus (f : Frame)
  | beatAppoint (f : Frame)
  | beatAppointExpiry
  | beatCommit (f : Frame)
  | wake (f : Frame)
  | timeSet (f : Frame)
  | healthQuery (f : Frame)
  | healthReply (f : Frame)
  | pkgAssign (f : Frame)
  | queue0Cfg (f : Frame)
  | pkgConfig (f : Frame)
  | sbUnknownFrame (ty : Byte) (f : Frame)
  -- power
  | comparatorFire (n : Fin 4) (reading : BitVec 10)
  | thermalTrip (r : Region) (temp : Byte)
  -- a frame on the regulators' pair (R359): bits 31 to 0, and the CRC
  | trip (w : Word) (crc : Byte)
  | ackV (w : Word) (crc : Byte)
  | vreqNack
  | telem (head : Byte) (payload : BitVec 24) (crc : Byte)
  | limiterSample (temp : Byte) (r : Region)
  | stretchRequest (e : Edge) (s : Fin 16)
  | droopTrip (d : DroopRead)
  | droopRecover
  | pwrOpReq (q : Requester) (v : Word)
  | pwrRegionWrite (q : Requester) (v : Word)
  | regionPowerUpDone (r : Region)
  | pwrSleepReq (q : Requester) (v : Word)
  | sleepEntryDone
  | wakeDone
  -- beat
  | markIssue
  | markReceipt (num : BitVec 16) (s : Fin 16) (onTime : Bool)
  | beatLoss
  | resyncTimeout
  | localMark
  | lateBlockStart (s : Site) (n : SlotId)
  | blockCommit (s : Site) (n : SlotId)
  | batchLimitRelease (s : Site) (a : ArrId)
  | linkSlotStart (s : Site) (j : Fin 128)
  | neighbourArrival (s : Site) (d : Edge)
  | sendHeldTmo (s : Site) (d : Edge)
  -- control cores
  | rv64imac (s : Site) (n : SlotId)
  | bzAload (s : Site) (n : SlotId)
  | bzAstream (s : Site) (n : SlotId)
  | bzAinit (s : Site) (n : SlotId)
  | bzAbank (s : Site) (n : SlotId)
  | bzAstat (s : Site) (n : SlotId)
  | bzVsetvl (s : Site) (n : SlotId)
  | bzVrun (s : Site) (n : SlotId)
  | bzVred (s : Site) (n : SlotId)
  | bzVperm (s : Site) (n : SlotId)
  | bzVcmpx (s : Site) (n : SlotId)
  | bzVstat (s : Site) (n : SlotId)
  | bzYmv (s : Site) (n : SlotId)
  | bzSarm (s : Site) (n : SlotId)
  | bzDep (s : Site) (n : SlotId)
  | bzScancel (s : Site) (n : SlotId)
  | bzSend (s : Site) (n : SlotId)
  | bzFill (s : Site) (n : SlotId)
  | bzCopy (s : Site) (n : SlotId)
  | bzSig (s : Site) (n : SlotId)
  | bzWait (s : Site) (n : SlotId)
  | waitMet (s : Site) (n : SlotId)
  | waitTmo (s : Site) (w : Waiter)
  | bzBar (s : Site) (n : SlotId)
  | bzEndb (s : Site) (n : SlotId)
  | bzBatch (s : Site) (n : SlotId)
  | bzBflush (s : Site) (n : SlotId)
  | bzMark (s : Site) (n : SlotId)
  -- matrix arrays
  | arrayOpStart (s : Site) (a : ArrId)
  | arrayRowEntry (s : Site) (a : ArrId)
  | arrayCheckFail (s : Site) (a : ArrId) (rowCheck : Bool) (entry : Fin 1024) (column : Fin 64)
  | loadComplete (s : Site) (a : ArrId)
  | streamComplete (s : Site) (a : ArrId)
  | ainitComplete (s : Site) (a : ArrId)
  | dummyRow (s : Site) (a : ArrId)
  | arrayIdle (s : Site) (a : ArrId)
  -- vector engines
  | vectorOpStart (s : Site) (e : EngId)
  | vectorOpComplete (s : Site) (e : EngId)
  | dummyOperation (s : Site) (e : EngId)
  | vectorEngineIdle (s : Site) (e : EngId)
  -- streams, landing slots and banks
  | streamTransferIssue (s : Site) (d : CtxId)
  | streamTransferComplete (s : Site) (x : XferEnd)
  | depMarkerMet (s : Site) (d : CtxId)
  | loadLineArrival (s : Site) (l : LoadLine)
  | remoteArrival (m : GMsg)
  | remoteHeldTmo (e : Edge)
  | fillCopyComplete (s : Site) (transposer : Bool)
  | bankOffReqWrite (q : Requester) (s : Site) (v : Word)
  | bankOnReqWrite (q : Requester) (s : Site) (v : Word)
  | bankPowerDown (s : Site) (b : BankId)
  | bankPdRefused (s : Site) (b : BankId)
  | bankWakeDone (s : Site) (b : BankId)
  | landCtlClear (q : Requester) (s : Site) (v : Word)
  | vePstoreDataAccess (q : Access) (s : Site) (v : Option Word)
  -- synchronisation
  | remoteSignal (m : GMsg)
  | barrierArrival (b : BarId) (node : BarNode) (gen : BitVec 16)
  | dataBarrierRelease (b : BarId) (gen : BitVec 16)
  | controlRelease (b : BarId) (gen : BitVec 16) (beat : BitVec 16)
  | releaseApply (b : BarId)
  | clWdog (s : Site)
  | tileWdog
  -- reduction
  | bucketSeal (g : Fin 16)
  | reductionLineArrival (i : RedIn) (m : GMsg)
  | reductionTrailerArrival (i : RedIn) (m : GMsg)
  | reductionDeadline (g : Fin 16)
  | downLineArrival (m : GMsg)
  | downTrailerArrival (m : GMsg)
  -- recovery
  | repeatRequest (step : Word) (attempt : Fin 4) (gen : BitVec 16)
  | repeatReceipt (beat : BitVec 16) (attempt : Fin 4)
  | repeatApply
  | restartReady
  | stepAbandon
  | selftestDone (u : TestUnit) (r : TestEnd)
  | clusterSwap
  -- queues
  | doorbell (v : DWord)
  | qdbWrite (q : Requester) (v : Word)
  | commandFetch
  | queueCtlEnSet (r : Requester) (q : QueueId) (v : Word)
  | queueCtlEnClear (r : Requester) (q : QueueId) (v : Word)
  | jobEnSet (r : Requester) (v : Word)
  | linkCtlEnSet (r : Requester) (e : Edge) (v : Word)
  | linkCtlEnClear (r : Requester) (e : Edge) (v : Word)
  | reduceCtlEnSet (r : Requester) (v : Word)
  | consistencyCheckEnd (k : BitVec 5) (mode : Bool) (delay : BitVec 16)
  | registerWrite (r : Access) (off : Nat) (v : Word)
  -- host commands
  | nop (f : FlightId)
  | fence (f : FlightId)
  | regRead (f : FlightId)
  | regWrite (f : FlightId)
  | jobLoad (f : FlightId)
  | jobLoadCopyDone
  | jobLoadTmo
  | jobStart (f : FlightId)
  | readyReport (tile : Fin 8) (tiles : Byte)
  | startTmo
  | jobPause (f : FlightId)
  | pauseEntry
  | jobStop (f : FlightId)
  | jobStopIdle
  | stopHung
  | stepBegin (f : FlightId)
  | stepEnd (f : FlightId)
  | stepEndDone (f : FlightId)
  | stepTmo (f : FlightId)
  | copy (f : FlightId)
  | fill (f : FlightId)
  | transpose (f : FlightId)
  | dataCommandComplete (f : FlightId)
  | prefetchCancel (f : FlightId)
  | signal (f : FlightId)
  | wait (f : FlightId)
  | hostWaitMet (f : FlightId)
  | hostWaitTmo (f : FlightId)
  | query (f : FlightId)
  | reduceCfg (f : FlightId)
  | reduceBucket (f : FlightId)
  | deferredSeal (g : Fin 16)
  | errQuery (f : FlightId)
  | selftest (f : FlightId)
  | spareSwap (f : FlightId)
  | capSet (f : FlightId)
  | energyRead (f : FlightId)
  | attest (f : FlightId)
  | fwInfo (f : FlightId)
  | debugUnlock (f : FlightId)
  | challengeLapse
  | dbgStateLock (q : Requester) (v : Word)
  -- links
  | flitReceipt (e : Edge) (f : Flit)
  | laneFailure (e : Edge) (lane : Fin 34) (why : LaneFail)
  | linkTrainingStep (e : Edge) (i : TrainIn)
  | cap (e : Edge) (m : GMsg)
  | capDescriptorTimeout (e : Edge)
  | memForward (e : Edge) (m : GMsg)
  | memAck (m : GMsg)
  | messageForward (m : GMsg)
  | linkBeatWrite (q : Requester) (v : Word)
  | probeReply (latency : BitVec 24)
  | linkLoopRun (q : Requester) (e : Edge) (v : Word)
  | vportLoopRun (q : Requester) (p : VPort) (v : Word)
  | loopbackRunDone (u : TestUnit) (failed : BitVec 34)
  -- serial monitor
  | monitorState
  | monitorLog (first : Option Nat) (count : Option Nat)
  | monitorBoot (offset : Word)
  | monitorBaud (rate : Nat)
  | baudSwitch
  | monitorUnlock
  | monitorUnlockSignature (sig : List Byte)
  | monitorLock
  | monitorPeek (off : Nat) (count : Nat)
  | monitorPoke (off : Nat) (v : Word)
  | monitorSync (site : Option Site) (obj : Nat)
  | monitorSelftest (kind index unit : Nat)
  | monitorLineError (line : List Byte)
  -- JTAG
  | extest (scanIn pads : BitVec 15)
  | samplePreload (scanIn pads : BitVec 15)
  | idcode
  | highz
  | clamp
  | bypass (x : JBypass)
  | dbgAccess (dr : BitVec 66)
  -- the rest of the table
  | refclkReturn
  | sbFrameDiscard (why : SbFault)
  | conversionDone (g : Fin 16)
  | restartArrival (tile : Fin 8)
  | tapReset
deriving DecidableEq, Repr

end Sys2Proof
end

