-- ==== Sys2Proof/Config.lean ====
section
/-! DEFINITION. What the spec leaves open, as constants without a body: nothing can be proved of their values. A counter of the
state, or the operands a value depends on, numbers the value drawn. -/

namespace Sys2Proof.Config

/-- The tile's random source (R433): its n-th draw of 64 bits. Log entry 5. -/
opaque random : Nat → BitVec 64

/-- The per-signature secret of an ECDSA signature (R431): its n-th draw. Log entry 5. -/
opaque signSecret : Nat → Nat

/-- The fuse array as bytes (R420, R431), whose layout the spec does not give: from the fuses in the order of R420, with the
identity key as a number or, for FUSE_DIGEST, without it. Log entry 6. -/
opaque fuseArray : List Nat → Option Nat → List (BitVec 8)

/-- The result of RCP, RSQ, EXP2 or LOG2 (R171): function 0..3, operand bits, format code. Log entry 7. -/
opaque approx : Nat → Nat → Nat → Nat

/-- The signature of a failing self-test (R328): unit code and the n-th draw. Log entry 8. -/
opaque testSignature : Nat → Nat → BitVec 64

/-- Words that the spec leaves open at a point of the run: the n-th draw. Log entry 2. -/
opaque word : Nat → BitVec 64

end Sys2Proof.Config
end

