-- ==== Sys2Proof/Machine/RegNames.lean ====
section
/-! DEFINITION. The registers of the tile by name: the control-space offset of each register and the
place of each of its fields, from the register tables of every chapter of spec/ (the rule of each table stands with
its first register). Bit `lo` of a field counts from bit 0 of the register's word; a field of a
register wider than 32 bits lies in the word that holds it. -/

namespace Sys2Proof.Machine

/-- A field of a control-space word: the word's byte offset, its lowest bit, its width. -/
structure Fld where
  off : Nat
  lo  : Nat
  w   : Nat
deriving DecidableEq, Repr

/-- Start of the cluster block of site `s` (R30). -/
abbrev clBlk (s : Nat) : Nat := 0x100000 + 0x10000 * s
/-- Start of the register group of queue `q` (R29). -/
abbrev qBlk (q : Nat) : Nat := 0x40000 + 32 * q
/-- Start of the register block of edge `e` (R404). -/
abbrev edgeBlk (e : Nat) : Nat := 0x500000 + 0x1000 * e

namespace Reg

/-! 01_tile_organisation.md R32. -/

/-- Offset of TILE_ID (R32). -/
abbrev TILE_ID : Nat := 0x0
abbrev TILE_ID_STEPPING : Fld := ⟨0x0, 0, 8⟩
abbrev TILE_ID_GRADE : Fld := ⟨0x0, 8, 8⟩
abbrev TILE_ID_TILE_NUM : Fld := ⟨0x0, 16, 3⟩
abbrev TILE_ID_PRIMARY : Fld := ⟨0x0, 19, 1⟩
abbrev TILE_ID_PART : Fld := ⟨0x0, 20, 12⟩
/-- Offset of TILE_CAPS (R32). -/
abbrev TILE_CAPS : Nat := 0x4
abbrev TILE_CAPS_MCL : Fld := ⟨0x4, 0, 6⟩
abbrev TILE_CAPS_VCL : Fld := ⟨0x4, 6, 5⟩
abbrev TILE_CAPS_EDGE_MASK : Fld := ⟨0x4, 11, 4⟩
abbrev TILE_CAPS_VPORTS : Fld := ⟨0x4, 15, 4⟩
abbrev TILE_CAPS_GULTO_MINOR : Fld := ⟨0x4, 19, 4⟩
abbrev TILE_CAPS_GULTO_MAJOR : Fld := ⟨0x4, 23, 4⟩
/-- Offset of PKG_ID (R32). -/
abbrev PKG_ID : Nat := 0x14
abbrev PKG_ID_PKG : Fld := ⟨0x14, 0, 12⟩
/-- Offset of REGION_MAP (R32). -/
abbrev REGION_MAP (r : Nat) : Nat := 0x100 + 0x4 * r
abbrev REGION_MAP_FUSED_SPARE_COL (r : Nat) : Fld := ⟨0x100 + 0x4 * r, 0, 3⟩
abbrev REGION_MAP_SPARE_GOOD (r : Nat) : Fld := ⟨0x100 + 0x4 * r, 3, 1⟩
abbrev REGION_MAP_MCOL0 (r : Nat) : Fld := ⟨0x100 + 0x4 * r, 4, 3⟩
abbrev REGION_MAP_MCOL1 (r : Nat) : Fld := ⟨0x100 + 0x4 * r, 7, 3⟩
abbrev REGION_MAP_MCOL2 (r : Nat) : Fld := ⟨0x100 + 0x4 * r, 10, 3⟩
abbrev REGION_MAP_MCOL3 (r : Nat) : Fld := ⟨0x100 + 0x4 * r, 13, 3⟩
abbrev REGION_MAP_MCOL4 (r : Nat) : Fld := ⟨0x100 + 0x4 * r, 16, 3⟩
abbrev REGION_MAP_OUT_COL (r : Nat) : Fld := ⟨0x100 + 0x4 * r, 19, 3⟩
abbrev REGION_MAP_SWAPPED (r : Nat) : Fld := ⟨0x100 + 0x4 * r, 22, 1⟩
abbrev REGION_MAP_NO_SPARE (r : Nat) : Fld := ⟨0x100 + 0x4 * r, 23, 1⟩
/-- Offset of CL_INFO (R32). -/
abbrev CL_INFO (s : Nat) : Nat := clBlk s + 0x0
abbrev CL_INFO_SITE (s : Nat) : Fld := ⟨clBlk s + 0x0, 0, 6⟩
abbrev CL_INFO_KIND (s : Nat) : Fld := ⟨clBlk s + 0x0, 6, 1⟩
abbrev CL_INFO_LOGICAL (s : Nat) : Fld := ⟨clBlk s + 0x0, 8, 6⟩
abbrev CL_INFO_ACTIVE (s : Nat) : Fld := ⟨clBlk s + 0x0, 14, 1⟩
abbrev CL_INFO_RETIRED (s : Nat) : Fld := ⟨clBlk s + 0x0, 15, 1⟩
abbrev CL_INFO_FUSED_SPARE (s : Nat) : Fld := ⟨clBlk s + 0x0, 16, 1⟩
/-! 02_beat_execution.md R43. -/

/-- Offset of BEAT_CFG (R43). -/
abbrev BEAT_CFG : Nat := 0x10000
abbrev BEAT_CFG_K : Fld := ⟨0x10000, 0, 5⟩
abbrev BEAT_CFG_MODE : Fld := ⟨0x10000, 5, 1⟩
abbrev BEAT_CFG_STRETCH : Fld := ⟨0x10000, 8, 4⟩
abbrev BEAT_CFG_MASTER : Fld := ⟨0x10000, 12, 1⟩
abbrev BEAT_CFG_LOCKED : Fld := ⟨0x10000, 13, 1⟩
/-- Offset of BEAT_COUNT (R43). -/
abbrev BEAT_COUNT : Nat := 0x10008
/-- Offset of BEAT_MISS_COUNT (R43). -/
abbrev BEAT_MISS_COUNT : Nat := 0x10010
abbrev BEAT_MISS_COUNT_MISSES : Fld := ⟨0x10010, 0, 32⟩
/-- Offset of BEAT_MISS_LAST (R43). -/
abbrev BEAT_MISS_LAST : Nat := 0x10018
abbrev BEAT_MISS_LAST_SITE : Fld := ⟨0x10018, 0, 6⟩
abbrev BEAT_MISS_LAST_SLOT : Fld := ⟨0x10018, 6, 2⟩
abbrev BEAT_MISS_LAST_VALID : Fld := ⟨0x10018, 8, 1⟩
abbrev BEAT_MISS_LAST_BLOCK_ID : Fld := ⟨0x10018 + 4, 0, 32⟩
/-- Offset of BEAT_ALIGN (R43). -/
abbrev BEAT_ALIGN : Nat := 0x10020
abbrev BEAT_ALIGN_DELAY : Fld := ⟨0x10020, 0, 16⟩
abbrev BEAT_ALIGN_LOCAL_LAT : Fld := ⟨0x10020, 16, 16⟩
/-! 02_beat_execution.md R55. -/

/-- Offset of SLOT_CFG (R55). -/
abbrev SLOT_CFG (s : Nat) (n : Nat) : Nat := clBlk s + 0x100 + 0x10 * n
abbrev SLOT_CFG_ENTRIES (s : Nat) (n : Nat) : Fld := ⟨clBlk s + 0x100 + 0x10 * n, 0, 16⟩
abbrev SLOT_CFG_EN (s : Nat) (n : Nat) : Fld := ⟨clBlk s + 0x100 + 0x10 * n, 16, 1⟩
/-- Offset of SLOT_TAB (R55). -/
abbrev SLOT_TAB (s : Nat) (n : Nat) : Nat := clBlk s + 0x104 + 0x10 * n
abbrev SLOT_TAB_BASE (s : Nat) (n : Nat) : Fld := ⟨clBlk s + 0x104 + 0x10 * n, 4, 19⟩
/-- Offset of SLOT_STATUS (R55). -/
abbrev SLOT_STATUS (s : Nat) (n : Nat) : Nat := clBlk s + 0x108 + 0x10 * n
abbrev SLOT_STATUS_STATE (s : Nat) (n : Nat) : Fld := ⟨clBlk s + 0x108 + 0x10 * n, 0, 3⟩
abbrev SLOT_STATUS_ENTRY (s : Nat) (n : Nat) : Fld := ⟨clBlk s + 0x108 + 0x10 * n, 8, 16⟩
abbrev SLOT_STATUS_TRAP (s : Nat) (n : Nat) : Fld := ⟨clBlk s + 0x108 + 0x10 * n, 24, 8⟩
/-- Offset of SLOT_MISSES (R55). -/
abbrev SLOT_MISSES (s : Nat) (n : Nat) : Nat := clBlk s + 0x10C + 0x10 * n
abbrev SLOT_MISSES_MISSES (s : Nat) (n : Nat) : Fld := ⟨clBlk s + 0x10C + 0x10 * n, 0, 32⟩
/-- Offset of LINK_SCHED (R55). -/
abbrev LINK_SCHED (s : Nat) : Nat := clBlk s + 0x180
abbrev LINK_SCHED_BASE (s : Nat) : Fld := ⟨clBlk s + 0x180, 12, 11⟩
/-- Offset of BATCH_CFG (R55). -/
abbrev BATCH_CFG (s : Nat) : Nat := clBlk s + 0x140
abbrev BATCH_CFG_LIMIT_BEATS (s : Nat) : Fld := ⟨clBlk s + 0x140, 0, 8⟩
abbrev BATCH_CFG_SLOT (s : Nat) : Fld := ⟨clBlk s + 0x140, 8, 2⟩
abbrev BATCH_CFG_EN (s : Nat) : Fld := ⟨clBlk s + 0x140, 10, 1⟩
/-- Offset of BATCH_DESC (R55). -/
abbrev BATCH_DESC (s : Nat) (a : Nat) : Nat := clBlk s + 0x150 + 0x4 * a
abbrev BATCH_DESC_ADDR (s : Nat) (a : Nat) : Fld := ⟨clBlk s + 0x150 + 0x4 * a, 0, 23⟩
/-- Offset of BATCH_STATUS (R55). -/
abbrev BATCH_STATUS (s : Nat) (a : Nat) : Nat := clBlk s + 0x160 + 0x4 * a
abbrev BATCH_STATUS_ROWS (s : Nat) (a : Nat) : Fld := ⟨clBlk s + 0x160 + 0x4 * a, 0, 8⟩
abbrev BATCH_STATUS_WAITED (s : Nat) (a : Nat) : Fld := ⟨clBlk s + 0x160 + 0x4 * a, 8, 8⟩
abbrev BATCH_STATUS_RELEASED (s : Nat) (a : Nat) : Fld := ⟨clBlk s + 0x160 + 0x4 * a, 16, 16⟩
/-! 03_number_formats.md R113. -/

/-- Offset of NUM_CTL (R113). -/
abbrev NUM_CTL (s : Nat) : Nat := clBlk s + 0x3000
abbrev NUM_CTL_STRICT (s : Nat) : Fld := ⟨clBlk s + 0x3000, 0, 1⟩
/-- Offset of NUM_FLAGS (R113). -/
abbrev NUM_FLAGS (s : Nat) : Nat := clBlk s + 0x3004
abbrev NUM_FLAGS_NAN (s : Nat) : Fld := ⟨clBlk s + 0x3004, 0, 1⟩
abbrev NUM_FLAGS_INF_IN (s : Nat) : Fld := ⟨clBlk s + 0x3004, 1, 1⟩
abbrev NUM_FLAGS_OVF (s : Nat) : Fld := ⟨clBlk s + 0x3004, 2, 1⟩
abbrev NUM_FLAGS_INVALID (s : Nat) : Fld := ⟨clBlk s + 0x3004, 3, 1⟩
abbrev NUM_FLAGS_UNDERFLOW (s : Nat) : Fld := ⟨clBlk s + 0x3004, 4, 1⟩
abbrev NUM_FLAGS_DIVZERO (s : Nat) : Fld := ⟨clBlk s + 0x3004, 5, 1⟩
abbrev NUM_FLAGS_SAT_ANY (s : Nat) : Fld := ⟨clBlk s + 0x3004, 6, 1⟩
abbrev NUM_FLAGS_FLUSH_ANY (s : Nat) : Fld := ⟨clBlk s + 0x3004, 7, 1⟩
/-- Offset of NUM_SAT (R113). -/
abbrev NUM_SAT (s : Nat) (u : Nat) : Nat := clBlk s + 0x3100 + 0x8 * u
abbrev NUM_SAT_COUNT (s : Nat) (u : Nat) : Fld := ⟨clBlk s + 0x3100 + 0x8 * u, 0, 32⟩
/-- Offset of NUM_FLUSH (R113). -/
abbrev NUM_FLUSH (s : Nat) (u : Nat) : Nat := clBlk s + 0x3104 + 0x8 * u
abbrev NUM_FLUSH_COUNT (s : Nat) (u : Nat) : Fld := ⟨clBlk s + 0x3104 + 0x8 * u, 0, 32⟩
/-! 04_matrix_arrays.md R151. -/

/-- Offset of ARR_STATUS (R151). -/
abbrev ARR_STATUS (s : Nat) (a : Nat) : Nat := clBlk s + 0x1000 + 0x100 * a
abbrev ARR_STATUS_STATE (s : Nat) (a : Nat) : Fld := ⟨clBlk s + 0x1000 + 0x100 * a, 0, 3⟩
abbrev ARR_STATUS_INIT_BUSY (s : Nat) (a : Nat) : Fld := ⟨clBlk s + 0x1000 + 0x100 * a, 3, 1⟩
abbrev ARR_STATUS_WVALID (s : Nat) (a : Nat) : Fld := ⟨clBlk s + 0x1000 + 0x100 * a, 4, 1⟩
abbrev ARR_STATUS_GANG (s : Nat) (a : Nat) : Fld := ⟨clBlk s + 0x1000 + 0x100 * a, 5, 1⟩
abbrev ARR_STATUS_PACK (s : Nat) (a : Nat) : Fld := ⟨clBlk s + 0x1000 + 0x100 * a, 6, 2⟩
abbrev ARR_STATUS_DENSE (s : Nat) (a : Nat) : Fld := ⟨clBlk s + 0x1000 + 0x100 * a, 8, 1⟩
abbrev ARR_STATUS_DIAG (s : Nat) (a : Nat) : Fld := ⟨clBlk s + 0x1000 + 0x100 * a, 9, 1⟩
abbrev ARR_STATUS_WFMT (s : Nat) (a : Nat) : Fld := ⟨clBlk s + 0x1000 + 0x100 * a, 10, 5⟩
abbrev ARR_STATUS_CBANK (s : Nat) (a : Nat) : Fld := ⟨clBlk s + 0x1000 + 0x100 * a, 15, 1⟩
abbrev ARR_STATUS_QUEUED (s : Nat) (a : Nat) : Fld := ⟨clBlk s + 0x1000 + 0x100 * a, 16, 5⟩
/-- Offset of ARR_ROWS (R151). -/
abbrev ARR_ROWS (s : Nat) (a : Nat) : Nat := clBlk s + 0x1004 + 0x100 * a
abbrev ARR_ROWS_ROWS (s : Nat) (a : Nat) : Fld := ⟨clBlk s + 0x1004 + 0x100 * a, 0, 32⟩
/-- Offset of ARR_CSROWS (R151). -/
abbrev ARR_CSROWS (s : Nat) (a : Nat) : Nat := clBlk s + 0x1008 + 0x100 * a
abbrev ARR_CSROWS_ROWS (s : Nat) (a : Nat) : Fld := ⟨clBlk s + 0x1008 + 0x100 * a, 0, 32⟩
/-- Offset of ARR_DUMMY (R151). -/
abbrev ARR_DUMMY (s : Nat) (a : Nat) : Nat := clBlk s + 0x100C + 0x100 * a
abbrev ARR_DUMMY_ROWS (s : Nat) (a : Nat) : Fld := ⟨clBlk s + 0x100C + 0x100 * a, 0, 32⟩
/-- Offset of ARR_CS_FAIL (R151). -/
abbrev ARR_CS_FAIL (s : Nat) (a : Nat) : Nat := clBlk s + 0x1010 + 0x100 * a
abbrev ARR_CS_FAIL_COLUMN (s : Nat) (a : Nat) : Fld := ⟨clBlk s + 0x1010 + 0x100 * a, 0, 16⟩
abbrev ARR_CS_FAIL_ROW (s : Nat) (a : Nat) : Fld := ⟨clBlk s + 0x1010 + 0x100 * a, 16, 16⟩
/-- Offset of ARR_CS_SKIP (R151). -/
abbrev ARR_CS_SKIP (s : Nat) (a : Nat) : Nat := clBlk s + 0x1014 + 0x100 * a
abbrev ARR_CS_SKIP_SKIPPED (s : Nat) (a : Nat) : Fld := ⟨clBlk s + 0x1014 + 0x100 * a, 0, 32⟩
/-- Offset of ARR_GUARD (R151). -/
abbrev ARR_GUARD (s : Nat) (a : Nat) : Nat := clBlk s + 0x1018 + 0x100 * a
abbrev ARR_GUARD_TRIPS (s : Nat) (a : Nat) : Fld := ⟨clBlk s + 0x1018 + 0x100 * a, 0, 32⟩
/-- Offset of ARR_CS_LAST (R151). -/
abbrev ARR_CS_LAST (s : Nat) (a : Nat) : Nat := clBlk s + 0x1020 + 0x100 * a
abbrev ARR_CS_LAST_KIND (s : Nat) (a : Nat) : Fld := ⟨clBlk s + 0x1020 + 0x100 * a, 0, 1⟩
abbrev ARR_CS_LAST_ENTRY (s : Nat) (a : Nat) : Fld := ⟨clBlk s + 0x1020 + 0x100 * a, 1, 10⟩
abbrev ARR_CS_LAST_COLUMN (s : Nat) (a : Nat) : Fld := ⟨clBlk s + 0x1020 + 0x100 * a, 11, 6⟩
abbrev ARR_CS_LAST_VALID (s : Nat) (a : Nat) : Fld := ⟨clBlk s + 0x1020 + 0x100 * a, 17, 1⟩
abbrev ARR_CS_LAST_BLOCK_ID (s : Nat) (a : Nat) : Fld := ⟨clBlk s + 0x1020 + 0x100 * a + 4, 0, 32⟩
/-- Offset of ARR_CTL (R151). -/
abbrev ARR_CTL (s : Nat) (a : Nat) : Nat := clBlk s + 0x1028 + 0x100 * a
abbrev ARR_CTL_DUMMY_EN (s : Nat) (a : Nat) : Fld := ⟨clBlk s + 0x1028 + 0x100 * a, 0, 1⟩
/-! 05_vector_engines.md R181. -/

/-- Offset of VE_STATUS (R181). -/
abbrev VE_STATUS (s : Nat) (e : Nat) : Nat := clBlk s + 0x2000 + 0x100 * e
abbrev VE_STATUS_STATE (s : Nat) (e : Nat) : Fld := ⟨clBlk s + 0x2000 + 0x100 * e, 0, 3⟩
abbrev VE_STATUS_KIND (s : Nat) (e : Nat) : Fld := ⟨clBlk s + 0x2000 + 0x100 * e, 3, 3⟩
abbrev VE_STATUS_PROG (s : Nat) (e : Nat) : Fld := ⟨clBlk s + 0x2000 + 0x100 * e, 6, 6⟩
abbrev VE_STATUS_QUEUED (s : Nat) (e : Nat) : Fld := ⟨clBlk s + 0x2000 + 0x100 * e, 12, 5⟩
abbrev VE_STATUS_CHUNK (s : Nat) (e : Nat) : Fld := ⟨clBlk s + 0x2000 + 0x100 * e, 17, 7⟩
/-- Offset of VE_OOR (R181). -/
abbrev VE_OOR (s : Nat) (e : Nat) : Nat := clBlk s + 0x2004 + 0x100 * e
abbrev VE_OOR_COUNT (s : Nat) (e : Nat) : Fld := ⟨clBlk s + 0x2004 + 0x100 * e, 0, 32⟩
/-- Offset of VE_DUMMY (R181). -/
abbrev VE_DUMMY (s : Nat) (e : Nat) : Nat := clBlk s + 0x2008 + 0x100 * e
abbrev VE_DUMMY_CYCLES (s : Nat) (e : Nat) : Fld := ⟨clBlk s + 0x2008 + 0x100 * e, 0, 32⟩
/-- Offset of VE_CTL (R181). -/
abbrev VE_CTL (s : Nat) (e : Nat) : Nat := clBlk s + 0x200C + 0x100 * e
abbrev VE_CTL_DUMMY_EN (s : Nat) (e : Nat) : Fld := ⟨clBlk s + 0x200C + 0x100 * e, 0, 1⟩
/-- Offset of SLOT_VL (R181). -/
abbrev SLOT_VL (s : Nat) (n : Nat) (e : Nat) : Nat := clBlk s + 0x2200 + 0x8 * n + 0x4 * e
abbrev SLOT_VL_VL (s : Nat) (n : Nat) (e : Nat) : Fld := ⟨clBlk s + 0x2200 + 0x8 * n + 0x4 * e, 0, 17⟩
/-- Offset of VE_PSTORE_ADDR (R181). -/
abbrev VE_PSTORE_ADDR (s : Nat) : Nat := clBlk s + 0x2800
abbrev VE_PSTORE_ADDR_WORD (s : Nat) : Fld := ⟨clBlk s + 0x2800, 0, 5⟩
abbrev VE_PSTORE_ADDR_PROG (s : Nat) : Fld := ⟨clBlk s + 0x2800, 5, 6⟩
abbrev VE_PSTORE_ADDR_ENG (s : Nat) : Fld := ⟨clBlk s + 0x2800, 11, 1⟩
/-- Offset of VE_PSTORE_DATA (R181). -/
abbrev VE_PSTORE_DATA (s : Nat) : Nat := clBlk s + 0x2804
abbrev VE_PSTORE_DATA_DATA (s : Nat) : Fld := ⟨clBlk s + 0x2804, 0, 32⟩
/-! 06_scratchpad_and_streams.md R218. -/

/-- Offset of STR_STATE (R218). -/
abbrev STR_STATE (s : Nat) (d : Nat) : Nat := clBlk s + 0x4000 + 0x40 * d
abbrev STR_STATE_STATE (s : Nat) (d : Nat) : Fld := ⟨clBlk s + 0x4000 + 0x40 * d, 0, 2⟩
abbrev STR_STATE_EPOCH (s : Nat) (d : Nat) : Fld := ⟨clBlk s + 0x4000 + 0x40 * d, 2, 4⟩
abbrev STR_STATE_OUTST (s : Nat) (d : Nat) : Fld := ⟨clBlk s + 0x4000 + 0x40 * d, 6, 6⟩
abbrev STR_STATE_MARKERS (s : Nat) (d : Nat) : Fld := ⟨clBlk s + 0x4000 + 0x40 * d, 12, 4⟩
abbrev STR_STATE_WAITING (s : Nat) (d : Nat) : Fld := ⟨clBlk s + 0x4000 + 0x40 * d, 16, 1⟩
/-- Offset of STR_NEXT (R218). -/
abbrev STR_NEXT (s : Nat) (d : Nat) : Nat := clBlk s + 0x4004 + 0x40 * d
abbrev STR_NEXT_NEXT (s : Nat) (d : Nat) : Fld := ⟨clBlk s + 0x4004 + 0x40 * d, 0, 24⟩
/-- Offset of STR_LIMIT (R218). -/
abbrev STR_LIMIT (s : Nat) (d : Nat) : Nat := clBlk s + 0x4008 + 0x40 * d
abbrev STR_LIMIT_LIMIT (s : Nat) (d : Nat) : Fld := ⟨clBlk s + 0x4008 + 0x40 * d, 0, 24⟩
/-- Offset of STR_HOME (R218). -/
abbrev STR_HOME (s : Nat) (d : Nat) : Nat := clBlk s + 0x400C + 0x40 * d
abbrev STR_HOME_HOME (s : Nat) (d : Nat) : Fld := ⟨clBlk s + 0x400C + 0x40 * d, 0, 23⟩
abbrev STR_HOME_VALID (s : Nat) (d : Nat) : Fld := ⟨clBlk s + 0x400C + 0x40 * d, 23, 1⟩
/-- Offset of WASTED_FETCH_BYTES (R218). -/
abbrev WASTED_FETCH_BYTES (s : Nat) : Nat := clBlk s + 0x5000
/-- Offset of FE_REFUSED (R218). -/
abbrev FE_REFUSED (s : Nat) : Nat := clBlk s + 0x5008
abbrev FE_REFUSED_COUNT (s : Nat) : Fld := ⟨clBlk s + 0x5008, 0, 32⟩
/-- Offset of FE_MK_DROP (R218). -/
abbrev FE_MK_DROP (s : Nat) : Nat := clBlk s + 0x500C
abbrev FE_MK_DROP_COUNT (s : Nat) : Fld := ⟨clBlk s + 0x500C, 0, 32⟩
/-- Offset of FE_STATUS (R218). -/
abbrev FE_STATUS (s : Nat) : Nat := clBlk s + 0x5010
abbrev FE_STATUS_HINT_LOST (s : Nat) : Fld := ⟨clBlk s + 0x5010, 0, 1⟩
abbrev FE_STATUS_XC_QUEUED (s : Nat) : Fld := ⟨clBlk s + 0x5010, 1, 5⟩
/-- Offset of LAND_STATE (R218). -/
abbrev LAND_STATE (s : Nat) (d : Nat) : Nat := clBlk s + 0x6000 + 0x4 * d
abbrev LAND_STATE_STATE (s : Nat) (d : Nat) : Fld := ⟨clBlk s + 0x6000 + 0x4 * d, 0, 2⟩
abbrev LAND_STATE_HOLD (s : Nat) (d : Nat) : Fld := ⟨clBlk s + 0x6000 + 0x4 * d, 2, 1⟩
abbrev LAND_STATE_WRITER (s : Nat) (d : Nat) : Fld := ⟨clBlk s + 0x6000 + 0x4 * d, 3, 4⟩
abbrev LAND_STATE_FILLS (s : Nat) (d : Nat) : Fld := ⟨clBlk s + 0x6000 + 0x4 * d, 16, 16⟩
/-- Offset of LAND_CFG (R218). -/
abbrev LAND_CFG (s : Nat) : Nat := clBlk s + 0x7000
abbrev LAND_CFG_BASE (s : Nat) : Fld := ⟨clBlk s + 0x7000, 0, 16⟩
abbrev LAND_CFG_SLOT_UNITS (s : Nat) : Fld := ⟨clBlk s + 0x7000, 16, 9⟩
/-- Offset of LAND_NSLOT (R218). -/
abbrev LAND_NSLOT (s : Nat) : Nat := clBlk s + 0x7004
abbrev LAND_NSLOT_NSLOT (s : Nat) : Fld := ⟨clBlk s + 0x7004, 0, 11⟩
/-- Offset of LAND_CTL (R218). -/
abbrev LAND_CTL (s : Nat) : Nat := clBlk s + 0x7008
abbrev LAND_CTL_CLEAR (s : Nat) : Fld := ⟨clBlk s + 0x7008, 0, 1⟩
/-- Offset of LAND_SEND_HELD (R218). -/
abbrev LAND_SEND_HELD (s : Nat) : Nat := clBlk s + 0x700C
abbrev LAND_SEND_HELD_COUNT (s : Nat) : Fld := ⟨clBlk s + 0x700C, 0, 32⟩
/-- Offset of BANK_CONF (R218). -/
abbrev BANK_CONF (s : Nat) (b : Nat) : Nat := clBlk s + 0x9000 + 0x4 * b
abbrev BANK_CONF_COUNT (s : Nat) (b : Nat) : Fld := ⟨clBlk s + 0x9000 + 0x4 * b, 0, 32⟩
/-- Offset of BANK_OFF_REQ (R218). -/
abbrev BANK_OFF_REQ (s : Nat) : Nat := clBlk s + 0x9100
abbrev BANK_OFF_REQ_REQ (s : Nat) : Fld := ⟨clBlk s + 0x9100, 0, 32⟩
/-- Offset of BANK_ON_REQ (R218). -/
abbrev BANK_ON_REQ (s : Nat) : Nat := clBlk s + 0x9104
abbrev BANK_ON_REQ_REQ (s : Nat) : Fld := ⟨clBlk s + 0x9104, 0, 32⟩
/-- Offset of BANK_PWR_LAST (R218). -/
abbrev BANK_PWR_LAST (s : Nat) : Nat := clBlk s + 0x9108
abbrev BANK_PWR_LAST_BANK (s : Nat) : Fld := ⟨clBlk s + 0x9108, 0, 5⟩
abbrev BANK_PWR_LAST_RESULT (s : Nat) : Fld := ⟨clBlk s + 0x9108, 5, 2⟩
abbrev BANK_PWR_LAST_REASON (s : Nat) : Fld := ⟨clBlk s + 0x9108, 16, 16⟩
/-- Offset of BANK_STATE (R218). -/
abbrev BANK_STATE (s : Nat) (b : Nat) : Nat := clBlk s + 0x9200 + 0x4 * b
abbrev BANK_STATE_POWER (s : Nat) (b : Nat) : Fld := ⟨clBlk s + 0x9200 + 0x4 * b, 0, 2⟩
abbrev BANK_STATE_PENDING (s : Nat) (b : Nat) : Fld := ⟨clBlk s + 0x9200 + 0x4 * b, 2, 14⟩
abbrev BANK_STATE_WAITED (s : Nat) (b : Nat) : Fld := ⟨clBlk s + 0x9200 + 0x4 * b, 16, 7⟩
/-- Offset of MEM_SPLIT (R218). -/
abbrev MEM_SPLIT : Nat := 0x570000
abbrev MEM_SPLIT_PATTERN : Fld := ⟨0x570000, 0, 3⟩
abbrev MEM_SPLIT_GRANTS : Fld := ⟨0x570000, 8, 20⟩
/-! 07_synchronisation.md R240. -/

/-- Offset of SYNC_VAL (R240). -/
abbrev SYNC_VAL (s : Nat) (n : Nat) : Nat := clBlk s + 0x8000 + 0x4 * n
abbrev SYNC_VAL_VALUE (s : Nat) (n : Nat) : Fld := ⟨clBlk s + 0x8000 + 0x4 * n, 0, 24⟩
/-- Offset of SYNC_OVF (R240). -/
abbrev SYNC_OVF (s : Nat) : Nat := clBlk s + 0x80C0
/-- Offset of SYNC_UDF (R240). -/
abbrev SYNC_UDF (s : Nat) : Nat := clBlk s + 0x80C8
/-- Offset of SYNC_TMO (R240). -/
abbrev SYNC_TMO (s : Nat) : Nat := clBlk s + 0x8100
abbrev SYNC_TMO_BEATS (s : Nat) : Fld := ⟨clBlk s + 0x8100, 0, 16⟩
/-- Offset of SYNC_TMO_LAST (R240). -/
abbrev SYNC_TMO_LAST (s : Nat) : Nat := clBlk s + 0x8108
abbrev SYNC_TMO_LAST_REF (s : Nat) : Fld := ⟨clBlk s + 0x8108, 0, 16⟩
abbrev SYNC_TMO_LAST_LANDING (s : Nat) : Fld := ⟨clBlk s + 0x8108, 16, 1⟩
abbrev SYNC_TMO_LAST_UNIT (s : Nat) : Fld := ⟨clBlk s + 0x8108, 17, 4⟩
abbrev SYNC_TMO_LAST_SLOT (s : Nat) : Fld := ⟨clBlk s + 0x8108, 21, 2⟩
abbrev SYNC_TMO_LAST_CONTEXT (s : Nat) : Fld := ⟨clBlk s + 0x8108, 23, 6⟩
abbrev SYNC_TMO_LAST_VALID (s : Nat) : Fld := ⟨clBlk s + 0x8108, 29, 1⟩
abbrev SYNC_TMO_LAST_BEAT (s : Nat) : Fld := ⟨clBlk s + 0x8108 + 4, 0, 32⟩
/-- Offset of SYNC_REALIGN (R240). -/
abbrev SYNC_REALIGN (s : Nat) : Nat := clBlk s + 0x8110
/-- Offset of SYNC_DRIFT (R240). -/
abbrev SYNC_DRIFT (s : Nat) : Nat := clBlk s + 0x8118
/-- Offset of SYNC_EXPECT (R240). -/
abbrev SYNC_EXPECT (s : Nat) (n : Nat) : Nat := clBlk s + 0x8200 + 0x4 * n
abbrev SYNC_EXPECT_EXPECT (s : Nat) (n : Nat) : Fld := ⟨clBlk s + 0x8200 + 0x4 * n, 0, 24⟩
abbrev SYNC_EXPECT_ACT (s : Nat) (n : Nat) : Fld := ⟨clBlk s + 0x8200 + 0x4 * n, 24, 1⟩
/-- Offset of BAR_PART (R240). -/
abbrev BAR_PART (s : Nat) (w : Nat) : Nat := clBlk s + 0x8400 + 0x4 * w
abbrev BAR_PART_SLOTS (s : Nat) (w : Nat) : Fld := ⟨clBlk s + 0x8400 + 0x4 * w, 0, 32⟩
/-- Offset of BAR_SLOT (R240). -/
abbrev BAR_SLOT (s : Nat) (n : Nat) : Nat := clBlk s + 0x8440 + 0x4 * n
abbrev BAR_SLOT_BARRIER (s : Nat) (n : Nat) : Fld := ⟨clBlk s + 0x8440 + 0x4 * n, 0, 6⟩
abbrev BAR_SLOT_HELD (s : Nat) (n : Nat) : Fld := ⟨clBlk s + 0x8440 + 0x4 * n, 6, 1⟩
abbrev BAR_SLOT_OVERRUN (s : Nat) (n : Nat) : Fld := ⟨clBlk s + 0x8440 + 0x4 * n, 7, 1⟩
abbrev BAR_SLOT_GEN (s : Nat) (n : Nat) : Fld := ⟨clBlk s + 0x8440 + 0x4 * n, 8, 16⟩
/-- Offset of TOBJ_VAL (R240). -/
abbrev TOBJ_VAL (n : Nat) : Nat := 0x80000 + 0x4 * n
abbrev TOBJ_VAL_VALUE (n : Nat) : Fld := ⟨0x80000 + 0x4 * n, 0, 24⟩
/-- Offset of TOBJ_FLAG (R240). -/
abbrev TOBJ_FLAG (w : Nat) : Nat := 0x80400 + 0x4 * w
abbrev TOBJ_FLAG_OVF (w : Nat) : Fld := ⟨0x80400 + 0x4 * w, 0, 16⟩
abbrev TOBJ_FLAG_UDF (w : Nat) : Fld := ⟨0x80400 + 0x4 * w, 16, 16⟩
/-- Offset of BAR_ROOT (R240). -/
abbrev BAR_ROOT : Nat := 0x80800
abbrev BAR_ROOT_PKG_MASTER : Fld := ⟨0x80800, 0, 32⟩
abbrev BAR_ROOT_SYS_ROOT : Fld := ⟨0x80800 + 4, 0, 32⟩
/-- Offset of BAR_CFG (R240). -/
abbrev BAR_CFG (b : Nat) : Nat := 0x81000 + 0x10 * b
abbrev BAR_CFG_KIND (b : Nat) : Fld := ⟨0x81000 + 0x10 * b, 0, 1⟩
abbrev BAR_CFG_SPAN (b : Nat) : Fld := ⟨0x81000 + 0x10 * b, 1, 2⟩
abbrev BAR_CFG_ROOT (b : Nat) : Fld := ⟨0x81000 + 0x10 * b, 3, 3⟩
abbrev BAR_CFG_EN (b : Nat) : Fld := ⟨0x81000 + 0x10 * b, 6, 1⟩
abbrev BAR_CFG_LAG (b : Nat) : Fld := ⟨0x81000 + 0x10 * b, 8, 8⟩
abbrev BAR_CFG_REALIGN_EVERY (b : Nat) : Fld := ⟨0x81000 + 0x10 * b, 16, 8⟩
/-- Offset of BAR_EXPECT (R240). -/
abbrev BAR_EXPECT (b : Nat) : Nat := 0x81004 + 0x10 * b
abbrev BAR_EXPECT_EXPECT (b : Nat) : Fld := ⟨0x81004 + 0x10 * b, 0, 16⟩
abbrev BAR_EXPECT_TILES (b : Nat) : Fld := ⟨0x81004 + 0x10 * b, 16, 8⟩
/-- Offset of BAR_GEN (R240). -/
abbrev BAR_GEN (b : Nat) : Nat := 0x81008 + 0x10 * b
abbrev BAR_GEN_GEN (b : Nat) : Fld := ⟨0x81008 + 0x10 * b, 0, 16⟩
abbrev BAR_GEN_OVERRUN (b : Nat) : Fld := ⟨0x81008 + 0x10 * b, 16, 1⟩
/-- Offset of BAR_CNT (R240). -/
abbrev BAR_CNT (b : Nat) : Nat := 0x8100C + 0x10 * b
abbrev BAR_CNT_CUR (b : Nat) : Fld := ⟨0x8100C + 0x10 * b, 0, 16⟩
abbrev BAR_CNT_NEXT (b : Nat) : Fld := ⟨0x8100C + 0x10 * b, 16, 16⟩
/-! 08_reduction.md R270. -/

/-- Offset of REDUCE_CTL (R270). -/
abbrev REDUCE_CTL : Nat := 0x90000
abbrev REDUCE_CTL_EN : Fld := ⟨0x90000, 0, 1⟩
abbrev REDUCE_CTL_CHECKING : Fld := ⟨0x90000, 1, 1⟩
/-- Offset of RED_DONE (R270). -/
abbrev RED_DONE : Nat := 0x90010
abbrev RED_DONE_COUNT : Fld := ⟨0x90010, 0, 32⟩
/-- Offset of RED_REPEAT (R270). -/
abbrev RED_REPEAT : Nat := 0x90014
abbrev RED_REPEAT_COUNT : Fld := ⟨0x90014, 0, 32⟩
/-- Offset of RED_ABANDON (R270). -/
abbrev RED_ABANDON : Nat := 0x90018
abbrev RED_ABANDON_COUNT : Fld := ⟨0x90018, 0, 32⟩
/-- Offset of RED_RESIDUE (R270). -/
abbrev RED_RESIDUE : Nat := 0x9001C
abbrev RED_RESIDUE_COUNT : Fld := ⟨0x9001C, 0, 32⟩
/-- Offset of RED_STALE (R270). -/
abbrev RED_STALE : Nat := 0x90020
abbrev RED_STALE_COUNT : Fld := ⟨0x90020, 0, 32⟩
/-- Offset of RED_SAT (R270). -/
abbrev RED_SAT : Nat := 0x90024
abbrev RED_SAT_COUNT : Fld := ⟨0x90024, 0, 32⟩
/-- Offset of REDUCE_LAST (R270). -/
abbrev REDUCE_LAST : Nat := 0x90028
abbrev REDUCE_LAST_REASON : Fld := ⟨0x90028, 0, 16⟩
abbrev REDUCE_LAST_GROUP : Fld := ⟨0x90028, 16, 4⟩
abbrev REDUCE_LAST_BUCKET : Fld := ⟨0x90028, 20, 12⟩
abbrev REDUCE_LAST_STEP : Fld := ⟨0x90028 + 4, 0, 16⟩
abbrev REDUCE_LAST_ATTEMPT : Fld := ⟨0x90028 + 4, 16, 2⟩
abbrev REDUCE_LAST_MISSING : Fld := ⟨0x90028 + 4, 18, 6⟩
abbrev REDUCE_LAST_VALID : Fld := ⟨0x90028 + 4, 24, 1⟩
/-- Offset of REDUCE_GRP0 (R270). -/
abbrev REDUCE_GRP0 (g : Nat) : Nat := 0x90100 + 0x20 * g
abbrev REDUCE_GRP0_EN (g : Nat) : Fld := ⟨0x90100 + 0x20 * g, 0, 1⟩
abbrev REDUCE_GRP0_MODE (g : Nat) : Fld := ⟨0x90100 + 0x20 * g, 1, 1⟩
abbrev REDUCE_GRP0_KIND (g : Nat) : Fld := ⟨0x90100 + 0x20 * g, 2, 1⟩
abbrev REDUCE_GRP0_ROOT (g : Nat) : Fld := ⟨0x90100 + 0x20 * g, 3, 1⟩
abbrev REDUCE_GRP0_IN_MASK (g : Nat) : Fld := ⟨0x90100 + 0x20 * g, 4, 6⟩
abbrev REDUCE_GRP0_OUT (g : Nat) : Fld := ⟨0x90100 + 0x20 * g, 10, 3⟩
abbrev REDUCE_GRP0_MARGIN_BASE (g : Nat) : Fld := ⟨0x90100 + 0x20 * g, 13, 5⟩
abbrev REDUCE_GRP0_REPEAT_MAX (g : Nat) : Fld := ⟨0x90100 + 0x20 * g, 18, 2⟩
abbrev REDUCE_GRP0_DECAY (g : Nat) : Fld := ⟨0x90100 + 0x20 * g, 20, 4⟩
/-- Offset of REDUCE_GRP1 (R270). -/
abbrev REDUCE_GRP1 (g : Nat) : Nat := 0x90104 + 0x20 * g
abbrev REDUCE_GRP1_PARTICIPANTS (g : Nat) : Fld := ⟨0x90104 + 0x20 * g, 0, 16⟩
abbrev REDUCE_GRP1_DEADLINE (g : Nat) : Fld := ⟨0x90104 + 0x20 * g, 16, 16⟩
/-- Offset of REDUCE_GRP2 (R270). -/
abbrev REDUCE_GRP2 (g : Nat) : Nat := 0x90108 + 0x20 * g
abbrev REDUCE_GRP2_INIT_EXP (g : Nat) : Fld := ⟨0x90108 + 0x20 * g, 0, 9⟩
abbrev REDUCE_GRP2_NBUCKET (g : Nat) : Fld := ⟨0x90108 + 0x20 * g, 12, 13⟩
/-- Offset of REDUCE_GRP45 (R270). -/
abbrev REDUCE_GRP45 (g : Nat) : Nat := 0x90110 + 0x20 * g
/-- Offset of REDUCE_GST (R270). -/
abbrev REDUCE_GST (g : Nat) : Nat := 0x90118 + 0x20 * g
abbrev REDUCE_GST_NEXT (g : Nat) : Fld := ⟨0x90118 + 0x20 * g, 0, 12⟩
abbrev REDUCE_GST_ATTEMPT (g : Nat) : Fld := ⟨0x90118 + 0x20 * g, 12, 2⟩
abbrev REDUCE_GST_INFLIGHT (g : Nat) : Fld := ⟨0x90118 + 0x20 * g, 14, 13⟩
/-! 10_queues.md R307. -/

/-- Offset of QUEUE_CTL (R307). -/
abbrev QUEUE_CTL (q : Nat) : Nat := qBlk q + 0x0
abbrev QUEUE_CTL_EN (q : Nat) : Fld := ⟨qBlk q + 0x0, 0, 1⟩
abbrev QUEUE_CTL_PRIO (q : Nat) : Fld := ⟨qBlk q + 0x0, 1, 2⟩
abbrev QUEUE_CTL_LIMIT (q : Nat) : Fld := ⟨qBlk q + 0x0, 3, 7⟩
abbrev QUEUE_CTL_LOG2_SQ (q : Nat) : Fld := ⟨qBlk q + 0x0, 10, 5⟩
abbrev QUEUE_CTL_LOG2_CQ (q : Nat) : Fld := ⟨qBlk q + 0x0, 15, 5⟩
/-- Offset of QUEUE_STATE (R307). -/
abbrev QUEUE_STATE (q : Nat) : Nat := qBlk q + 0x4
abbrev QUEUE_STATE_STATE (q : Nat) : Fld := ⟨qBlk q + 0x4, 0, 3⟩
abbrev QUEUE_STATE_OUTST (q : Nat) : Fld := ⟨qBlk q + 0x4, 3, 7⟩
abbrev QUEUE_STATE_REASON (q : Nat) : Fld := ⟨qBlk q + 0x4, 16, 16⟩
/-- Offset of SQ_BASE_LO (R307). -/
abbrev SQ_BASE_LO (q : Nat) : Nat := qBlk q + 0x8
abbrev SQ_BASE_LO_ADDR (q : Nat) : Fld := ⟨qBlk q + 0x8, 12, 20⟩
/-- Offset of CQ_BASE_LO (R307). -/
abbrev CQ_BASE_LO (q : Nat) : Nat := qBlk q + 0xC
abbrev CQ_BASE_LO_ADDR (q : Nat) : Fld := ⟨qBlk q + 0xC, 12, 20⟩
/-- Offset of QBASE_HI (R307). -/
abbrev QBASE_HI (q : Nat) : Nat := qBlk q + 0x10
abbrev QBASE_HI_SQ_HI (q : Nat) : Fld := ⟨qBlk q + 0x10, 0, 16⟩
abbrev QBASE_HI_CQ_HI (q : Nat) : Fld := ⟨qBlk q + 0x10, 16, 16⟩
/-- Offset of SQ_PTR (R307). -/
abbrev SQ_PTR (q : Nat) : Nat := qBlk q + 0x14
abbrev SQ_PTR_HEAD (q : Nat) : Fld := ⟨qBlk q + 0x14, 0, 16⟩
abbrev SQ_PTR_TAIL (q : Nat) : Fld := ⟨qBlk q + 0x14, 16, 16⟩
/-- Offset of CQ_PTR (R307). -/
abbrev CQ_PTR (q : Nat) : Nat := qBlk q + 0x18
abbrev CQ_PTR_TAIL (q : Nat) : Fld := ⟨qBlk q + 0x18, 0, 16⟩
abbrev CQ_PTR_HEAD (q : Nat) : Fld := ⟨qBlk q + 0x18, 16, 16⟩
/-- Offset of QUEUE_SEQ (R307). -/
abbrev QUEUE_SEQ (q : Nat) : Nat := qBlk q + 0x1C
abbrev QUEUE_SEQ_SEQ0 (q : Nat) : Fld := ⟨qBlk q + 0x1C, 0, 16⟩
abbrev QUEUE_SEQ_NEXT (q : Nat) : Fld := ⟨qBlk q + 0x1C, 16, 16⟩
/-- Offset of CHK_REASON (R307). -/
abbrev CHK_REASON : Nat := 0x10
abbrev CHK_REASON_REASON : Fld := ⟨0x10, 0, 16⟩
abbrev CHK_REASON_SOURCE : Fld := ⟨0x10, 16, 3⟩
abbrev CHK_REASON_INDEX : Fld := ⟨0x10, 19, 13⟩
/-- Offset of QDB (R307). -/
abbrev QDB : Nat := 0x20
abbrev QDB_DB : Fld := ⟨0x20, 0, 32⟩
/-- Offset of Q_INFLIGHT (R307). -/
abbrev Q_INFLIGHT : Nat := 0x24
abbrev Q_INFLIGHT_COUNT : Fld := ⟨0x24, 0, 10⟩
/-- Offset of QDB_DROP (R307). -/
abbrev QDB_DROP : Nat := 0x28
abbrev QDB_DROP_COUNT : Fld := ⟨0x28, 0, 32⟩
/-! 11_command_set.md R332. -/

/-- Offset of TILE_STATE (R332). -/
abbrev TILE_STATE : Nat := 0x8
abbrev TILE_STATE_STATE : Fld := ⟨0x8, 0, 4⟩
abbrev TILE_STATE_PREV : Fld := ⟨0x8, 4, 4⟩
abbrev TILE_STATE_STEP_OPEN : Fld := ⟨0x8, 8, 1⟩
abbrev TILE_STATE_PAUSE_PENDING : Fld := ⟨0x8, 9, 1⟩
abbrev TILE_STATE_PAUSED_AT_STEP : Fld := ⟨0x8, 10, 1⟩
abbrev TILE_STATE_JOB_CHECKING : Fld := ⟨0x8, 11, 1⟩
abbrev TILE_STATE_REASON : Fld := ⟨0x8, 16, 16⟩
/-- Offset of TILE_CTL (R332). -/
abbrev TILE_CTL : Nat := 0xC
abbrev TILE_CTL_JOB_EN : Fld := ⟨0xC, 0, 1⟩
abbrev TILE_CTL_JOB_ID : Fld := ⟨0xC, 16, 16⟩
/-- Offset of TILE_STEP (R332). -/
abbrev TILE_STEP : Nat := 0x18
abbrev TILE_STEP_STEP : Fld := ⟨0x18, 0, 32⟩
/-! 12_errors_and_recovery.md R356. -/

/-- Offset of ERR_STATUS (R356). -/
abbrev ERR_STATUS : Nat := 0x30000
abbrev ERR_STATUS_WR_IDX : Fld := ⟨0x30000, 0, 10⟩
abbrev ERR_STATUS_WRAPPED : Fld := ⟨0x30000, 10, 1⟩
abbrev ERR_STATUS_LAST_CLASS : Fld := ⟨0x30000, 16, 8⟩
abbrev ERR_STATUS_LAST_ACTION : Fld := ⟨0x30000, 24, 3⟩
/-- Offset of ERR_TOTAL (R356). -/
abbrev ERR_TOTAL : Nat := 0x30004
abbrev ERR_TOTAL_COUNT : Fld := ⟨0x30004, 0, 32⟩
/-- Offset of ERR_CFG (R356). -/
abbrev ERR_CFG : Nat := 0x30008
abbrev ERR_CFG_STEP_BAR : Fld := ⟨0x30008, 0, 6⟩
abbrev ERR_CFG_STEP_EN : Fld := ⟨0x30008, 6, 1⟩
abbrev ERR_CFG_REPEAT_MAX : Fld := ⟨0x30008, 8, 2⟩
abbrev ERR_CFG_CE_LIMIT : Fld := ⟨0x30008, 16, 8⟩
/-- Offset of ERR_STEP (R356). -/
abbrev ERR_STEP : Nat := 0x3000C
abbrev ERR_STEP_ATTEMPT : Fld := ⟨0x3000C, 0, 2⟩
abbrev ERR_STEP_REPEATING : Fld := ⟨0x3000C, 2, 1⟩
abbrev ERR_STEP_REPEATS : Fld := ⟨0x3000C, 16, 16⟩
/-- Offset of ERR_REPLAYS (R356). -/
abbrev ERR_REPLAYS : Nat := 0x30010
abbrev ERR_REPLAYS_COUNT : Fld := ⟨0x30010, 0, 32⟩
/-- Offset of TILE_WDOG (R356). -/
abbrev TILE_WDOG : Nat := 0x30020
abbrev TILE_WDOG_BEATS : Fld := ⟨0x30020, 0, 24⟩
/-- Offset of ERR_LOG (R356). -/
abbrev ERR_LOG (i : Nat) : Nat := 0x38000 + 0x20 * i
/-- Offset of CL_ERR_STATUS (R356). -/
abbrev CL_ERR_STATUS (s : Nat) : Nat := clBlk s + 0xA000
abbrev CL_ERR_STATUS_WINDOW (s : Nat) : Fld := ⟨clBlk s + 0xA000, 0, 2⟩
abbrev CL_ERR_STATUS_LEVEL (s : Nat) : Fld := ⟨clBlk s + 0xA000, 2, 3⟩
abbrev CL_ERR_STATUS_FAULTS_STEP (s : Nat) : Fld := ⟨clBlk s + 0xA000, 5, 3⟩
abbrev CL_ERR_STATUS_NONREPLAY (s : Nat) : Fld := ⟨clBlk s + 0xA000, 8, 1⟩
/-- Offset of CL_RETIRED (R356). -/
abbrev CL_RETIRED (s : Nat) : Nat := clBlk s + 0xA004
abbrev CL_RETIRED_UNITS (s : Nat) : Fld := ⟨clBlk s + 0xA004, 0, 16⟩
abbrev CL_RETIRED_SWAP_PENDING (s : Nat) : Fld := ⟨clBlk s + 0xA004, 16, 1⟩
abbrev CL_RETIRED_QUARANTINED (s : Nat) : Fld := ⟨clBlk s + 0xA004, 17, 1⟩
/-- Offset of CL_BANK_RET (R356). -/
abbrev CL_BANK_RET (s : Nat) : Nat := clBlk s + 0xA008
abbrev CL_BANK_RET_BANKS (s : Nat) : Fld := ⟨clBlk s + 0xA008, 0, 32⟩
/-- Offset of CL_REDIRECT (R356). -/
abbrev CL_REDIRECT (s : Nat) : Nat := clBlk s + 0xA00C
abbrev CL_REDIRECT_MAP (s : Nat) : Fld := ⟨clBlk s + 0xA00C, 0, 8⟩
abbrev CL_REDIRECT_ACC_OK (s : Nat) : Fld := ⟨clBlk s + 0xA00C, 8, 4⟩
/-- Offset of CL_ERR_COUNT (R356). -/
abbrev CL_ERR_COUNT (s : Nat) : Nat := clBlk s + 0xA010
abbrev CL_ERR_COUNT_TRANSIENT (s : Nat) : Fld := ⟨clBlk s + 0xA010, 0, 16⟩
abbrev CL_ERR_COUNT_LASTING (s : Nat) : Fld := ⟨clBlk s + 0xA010, 16, 16⟩
/-- Offset of CL_SRAM (R356). -/
abbrev CL_SRAM (s : Nat) : Nat := clBlk s + 0xA014
abbrev CL_SRAM_CE (s : Nat) : Fld := ⟨clBlk s + 0xA014, 0, 16⟩
abbrev CL_SRAM_UE (s : Nat) : Fld := ⟨clBlk s + 0xA014, 16, 16⟩
/-- Offset of CL_GUARD (R356). -/
abbrev CL_GUARD (s : Nat) : Nat := clBlk s + 0xA018
abbrev CL_GUARD_LINE (s : Nat) : Fld := ⟨clBlk s + 0xA018, 0, 16⟩
abbrev CL_GUARD_KIND (s : Nat) : Fld := ⟨clBlk s + 0xA018, 16, 1⟩
abbrev CL_GUARD_VALID (s : Nat) : Fld := ⟨clBlk s + 0xA018, 17, 1⟩
abbrev CL_GUARD_BLOCK_ID (s : Nat) : Fld := ⟨clBlk s + 0xA018 + 4, 0, 32⟩
/-- Offset of CL_GUARD_TRIPS (R356). -/
abbrev CL_GUARD_TRIPS (s : Nat) : Nat := clBlk s + 0xA020
abbrev CL_GUARD_TRIPS_COUNT (s : Nat) : Fld := ⟨clBlk s + 0xA020, 0, 32⟩
/-- Offset of CL_WDOG (R356). -/
abbrev CL_WDOG (s : Nat) : Nat := clBlk s + 0xA028
abbrev CL_WDOG_BEATS (s : Nat) : Fld := ⟨clBlk s + 0xA028, 0, 24⟩
/-! 13_power_and_always_on.md R377. -/

/-- Offset of TIME_NOW (R377). -/
abbrev TIME_NOW : Nat := 0x10030
/-- Offset of AON_CMP (R377). -/
abbrev AON_CMP (n : Nat) : Nat := 0x10040 + 0x10 * n
abbrev AON_CMP_EN (n : Nat) : Fld := ⟨0x10040 + 0x10 * n, 0, 1⟩
abbrev AON_CMP_FIRED (n : Nat) : Fld := ⟨0x10040 + 0x10 * n, 1, 1⟩
abbrev AON_CMP_WAKE (n : Nat) : Fld := ⟨0x10040 + 0x10 * n, 2, 1⟩
abbrev AON_CMP_ALERT (n : Nat) : Fld := ⟨0x10040 + 0x10 * n, 3, 1⟩
abbrev AON_CMP_COND (n : Nat) : Fld := ⟨0x10040 + 0x10 * n, 4, 1⟩
/-- Offset of AON_CMP_VAL (R377). -/
abbrev AON_CMP_VAL (n : Nat) : Nat := 0x10048 + 0x10 * n
/-- Offset of PWR_CAP (R377). -/
abbrev PWR_CAP : Nat := 0x20000
abbrev PWR_CAP_CAP : Fld := ⟨0x20000, 0, 11⟩
abbrev PWR_CAP_FAST : Fld := ⟨0x20000, 16, 11⟩
/-- Offset of PWR_LIM (R377). -/
abbrev PWR_LIM : Nat := 0x20004
abbrev PWR_LIM_HYST : Fld := ⟨0x20004, 0, 8⟩
abbrev PWR_LIM_DWELL : Fld := ⟨0x20004, 8, 8⟩
abbrev PWR_LIM_S_REQ : Fld := ⟨0x20004, 16, 4⟩
abbrev PWR_LIM_HARD : Fld := ⟨0x20004, 20, 1⟩
/-- Offset of PWR_NOW (R377). -/
abbrev PWR_NOW : Nat := 0x20008
abbrev PWR_NOW_SLOW : Fld := ⟨0x20008, 0, 16⟩
abbrev PWR_NOW_FAST : Fld := ⟨0x20008, 16, 16⟩
/-- Offset of PWR_STATUS (R377). -/
abbrev PWR_STATUS : Nat := 0x2000C
abbrev PWR_STATUS_TELEM_LOST : Fld := ⟨0x2000C, 0, 1⟩
abbrev PWR_STATUS_THROTTLED : Fld := ⟨0x2000C, 1, 1⟩
abbrev PWR_STATUS_THERM_TRIP : Fld := ⟨0x2000C, 2, 1⟩
abbrev PWR_STATUS_REASON : Fld := ⟨0x2000C, 16, 16⟩
/-- Offset of PWR_STRETCH (R377). -/
abbrev PWR_STRETCH : Nat := 0x20010
abbrev PWR_STRETCH_BEATS : Fld := ⟨0x20010, 0, 32⟩
abbrev PWR_STRETCH_SUM : Fld := ⟨0x20010 + 4, 0, 32⟩
/-- Offset of PWR_OP (R377). -/
abbrev PWR_OP : Nat := 0x20018
abbrev PWR_OP_REQ : Fld := ⟨0x20018, 0, 4⟩
abbrev PWR_OP_CUR : Fld := ⟨0x20018, 4, 4⟩
abbrev PWR_OP_BUSY : Fld := ⟨0x20018, 8, 1⟩
/-- Offset of PWR_REGION (R377). -/
abbrev PWR_REGION : Nat := 0x2001C
abbrev PWR_REGION_OFF : Fld := ⟨0x2001C, 0, 8⟩
abbrev PWR_REGION_DOWN : Fld := ⟨0x2001C, 8, 8⟩
/-- Offset of PWR_SLEEP (R377). -/
abbrev PWR_SLEEP : Nat := 0x20020
abbrev PWR_SLEEP_REQ : Fld := ⟨0x20020, 0, 1⟩
abbrev PWR_SLEEP_STATE : Fld := ⟨0x20020, 1, 2⟩
abbrev PWR_SLEEP_LAST : Fld := ⟨0x20020, 3, 2⟩
abbrev PWR_SLEEP_WAKE_SRC : Fld := ⟨0x20020, 5, 2⟩
/-- Offset of DROOP_CFG (R377). -/
abbrev DROOP_CFG : Nat := 0x20024
abbrev DROOP_CFG_MARGIN : Fld := ⟨0x20024, 0, 8⟩
abbrev DROOP_CFG_EN : Fld := ⟨0x20024, 8, 1⟩
/-- Offset of DROOP_SKIP (R377). -/
abbrev DROOP_SKIP : Nat := 0x20028
/-- Offset of DROOP_TRIP (R377). -/
abbrev DROOP_TRIP : Nat := 0x20030
abbrev DROOP_TRIP_REGIONS : Fld := ⟨0x20030, 0, 8⟩
/-- Offset of PWR_VF (R377). -/
abbrev PWR_VF (p : Nat) : Nat := 0x20100 + 0x8 * p
abbrev PWR_VF_FREQ (p : Nat) : Fld := ⟨0x20100 + 0x8 * p, 0, 12⟩
abbrev PWR_VF_V_ARR (p : Nat) : Fld := ⟨0x20100 + 0x8 * p, 12, 10⟩
abbrev PWR_VF_V_LOG (p : Nat) : Fld := ⟨0x20100 + 0x8 * p, 22, 10⟩
abbrev PWR_VF_V_SRAM (p : Nat) : Fld := ⟨0x20100 + 0x8 * p + 4, 0, 10⟩
abbrev PWR_VF_VALID (p : Nat) : Fld := ⟨0x20100 + 0x8 * p + 4, 31, 1⟩
/-- Offset of ENERGY_JOB (R377). -/
abbrev ENERGY_JOB (i : Nat) : Nat := 0x20200 + 0x8 * i
/-- Offset of TEMP (R377). -/
abbrev TEMP : Nat := 0x20300
abbrev TEMP_TJ_MAX : Fld := ⟨0x20300, 0, 8⟩
abbrev TEMP_REGION : Fld := ⟨0x20300, 8, 3⟩
/-! 14_gulto_links.md R404. -/

/-- Offset of LINK_CTL (R404). -/
abbrev LINK_CTL (e : Nat) : Nat := edgeBlk e + 0x0
abbrev LINK_CTL_EN (e : Nat) : Fld := ⟨edgeBlk e + 0x0, 0, 1⟩
abbrev LINK_CTL_CHECKING (e : Nat) : Fld := ⟨edgeBlk e + 0x0, 1, 1⟩
abbrev LINK_CTL_LANE_ERR_MAX (e : Nat) : Fld := ⟨edgeBlk e + 0x0, 8, 8⟩
/-- Offset of LINK_STATUS (R404). -/
abbrev LINK_STATUS (e : Nat) : Nat := edgeBlk e + 0x4
abbrev LINK_STATUS_STATE (e : Nat) : Fld := ⟨edgeBlk e + 0x4, 0, 3⟩
abbrev LINK_STATUS_LANES (e : Nat) : Fld := ⟨edgeBlk e + 0x4, 3, 6⟩
abbrev LINK_STATUS_SPARES_USED (e : Nat) : Fld := ⟨edgeBlk e + 0x4, 9, 2⟩
abbrev LINK_STATUS_CAP_DEFAULT (e : Nat) : Fld := ⟨edgeBlk e + 0x4, 11, 1⟩
abbrev LINK_STATUS_HOP_LAT (e : Nat) : Fld := ⟨edgeBlk e + 0x4, 16, 12⟩
/-- Offset of LINK_LANEMAP (R404). -/
abbrev LINK_LANEMAP (e : Nat) : Nat := edgeBlk e + 0x8
abbrev LINK_LANEMAP_SPARE0_FOR (e : Nat) : Fld := ⟨edgeBlk e + 0x8 + 4, 2, 6⟩
abbrev LINK_LANEMAP_SPARE1_FOR (e : Nat) : Fld := ⟨edgeBlk e + 0x8 + 4, 8, 6⟩
abbrev LINK_LANEMAP_S0_USED (e : Nat) : Fld := ⟨edgeBlk e + 0x8 + 4, 14, 1⟩
abbrev LINK_LANEMAP_S1_USED (e : Nat) : Fld := ⟨edgeBlk e + 0x8 + 4, 15, 1⟩
/-- Offset of LINK_PEER (R404). -/
abbrev LINK_PEER (e : Nat) : Nat := edgeBlk e + 0x10
/-- Offset of LINK_CRC_ERR (R404). -/
abbrev LINK_CRC_ERR (e : Nat) : Nat := edgeBlk e + 0x50
abbrev LINK_CRC_ERR_COUNT (e : Nat) : Fld := ⟨edgeBlk e + 0x50, 0, 32⟩
/-- Offset of LINK_FEC_CORR (R404). -/
abbrev LINK_FEC_CORR (e : Nat) : Nat := edgeBlk e + 0x54
abbrev LINK_FEC_CORR_COUNT (e : Nat) : Fld := ⟨edgeBlk e + 0x54, 0, 32⟩
/-- Offset of LINK_RETRY (R404). -/
abbrev LINK_RETRY (e : Nat) : Nat := edgeBlk e + 0x58
abbrev LINK_RETRY_COUNT (e : Nat) : Fld := ⟨edgeBlk e + 0x58, 0, 32⟩
/-- Offset of LINK_DISCARD (R404). -/
abbrev LINK_DISCARD (e : Nat) : Nat := edgeBlk e + 0x5C
abbrev LINK_DISCARD_COUNT (e : Nat) : Fld := ⟨edgeBlk e + 0x5C, 0, 32⟩
/-- Offset of LINK_VCQ (R404). -/
abbrev LINK_VCQ (e : Nat) (v : Nat) : Nat := edgeBlk e + 0x100 + 0x4 * v
abbrev LINK_VCQ_CREDITS (e : Nat) (v : Nat) : Fld := ⟨edgeBlk e + 0x100 + 0x4 * v, 0, 15⟩
abbrev LINK_VCQ_USED (e : Nat) (v : Nat) : Fld := ⟨edgeBlk e + 0x100 + 0x4 * v, 16, 15⟩
/-- Offset of LINK_LOOP (R404). -/
abbrev LINK_LOOP (e : Nat) : Nat := edgeBlk e + 0x200
abbrev LINK_LOOP_MODE (e : Nat) : Fld := ⟨edgeBlk e + 0x200, 0, 2⟩
abbrev LINK_LOOP_RUN (e : Nat) : Fld := ⟨edgeBlk e + 0x200, 2, 1⟩
abbrev LINK_LOOP_DONE (e : Nat) : Fld := ⟨edgeBlk e + 0x200, 3, 1⟩
/-- Offset of LINK_LOOP_FAIL (R404). -/
abbrev LINK_LOOP_FAIL (e : Nat) : Nat := edgeBlk e + 0x208
/-- Offset of VPORT_STATUS (R404). -/
abbrev VPORT_STATUS (p : Nat) : Nat := 0x508000 + 0x100 * p
abbrev VPORT_STATUS_STATE (p : Nat) : Fld := ⟨0x508000 + 0x100 * p, 0, 2⟩
abbrev VPORT_STATUS_SINGLE (p : Nat) : Fld := ⟨0x508000 + 0x100 * p, 2, 13⟩
abbrev VPORT_STATUS_REMAP (p : Nat) : Fld := ⟨0x508000 + 0x100 * p, 16, 3⟩
/-- Offset of VPORT_CRC (R404). -/
abbrev VPORT_CRC (p : Nat) : Nat := 0x508004 + 0x100 * p
abbrev VPORT_CRC_COUNT (p : Nat) : Fld := ⟨0x508004 + 0x100 * p, 0, 32⟩
/-- Offset of VPORT_LOOP (R404). -/
abbrev VPORT_LOOP (p : Nat) : Nat := 0x508008 + 0x100 * p
abbrev VPORT_LOOP_MODE (p : Nat) : Fld := ⟨0x508008 + 0x100 * p, 0, 2⟩
abbrev VPORT_LOOP_RUN (p : Nat) : Fld := ⟨0x508008 + 0x100 * p, 2, 1⟩
abbrev VPORT_LOOP_DONE (p : Nat) : Fld := ⟨0x508008 + 0x100 * p, 3, 1⟩
abbrev VPORT_LOOP_FAILED (p : Nat) : Fld := ⟨0x508008 + 0x100 * p, 4, 13⟩
/-- Offset of LINK_BEAT (R404). -/
abbrev LINK_BEAT : Nat := 0x509000
abbrev LINK_BEAT_UP : Fld := ⟨0x509000, 0, 3⟩
abbrev LINK_BEAT_DOWN : Fld := ⟨0x509000, 3, 4⟩
/-- Offset of MEM_CFG (R404). -/
abbrev MEM_CFG : Nat := 0x509004
abbrev MEM_CFG_NSTACK : Fld := ⟨0x509004, 0, 5⟩
abbrev MEM_CFG_STACK_LOG2 : Fld := ⟨0x509004, 5, 6⟩
/-- Offset of LINK_ROUTE (R404). -/
abbrev LINK_ROUTE : Nat := 0x509010
abbrev LINK_ROUTE_XPKG : Fld := ⟨0x509010 + 4, 28, 4⟩
/-! 15_sideband.md R418. -/

/-- Offset of SB_UID (R418). -/
abbrev SB_UID : Nat := 0x580000
/-- Offset of SB_ADDR (R418). -/
abbrev SB_ADDR : Nat := 0x580008
abbrev SB_ADDR_ADDR : Fld := ⟨0x580008, 0, 8⟩
abbrev SB_ADDR_STATE : Fld := ⟨0x580008, 8, 2⟩
abbrev SB_ADDR_PRIMARY_LOST : Fld := ⟨0x580008, 10, 1⟩
/-- Offset of SB_RX_OK (R418). -/
abbrev SB_RX_OK : Nat := 0x580010
abbrev SB_RX_OK_COUNT : Fld := ⟨0x580010, 0, 32⟩
/-- Offset of SB_BAD (R418). -/
abbrev SB_BAD : Nat := 0x580014
abbrev SB_BAD_COUNT : Fld := ⟨0x580014, 0, 32⟩
/-- Offset of SB_RETRY (R418). -/
abbrev SB_RETRY : Nat := 0x580018
abbrev SB_RETRY_COUNT : Fld := ⟨0x580018, 0, 32⟩
/-- Offset of SB_TX_FAIL (R418). -/
abbrev SB_TX_FAIL : Nat := 0x58001C
abbrev SB_TX_FAIL_COUNT : Fld := ⟨0x58001C, 0, 32⟩
/-- Offset of SB_TX_DROP (R418). -/
abbrev SB_TX_DROP : Nat := 0x580020
abbrev SB_TX_DROP_COUNT : Fld := ⟨0x580020, 0, 32⟩
/-- Offset of SB_ARB_LOST (R418). -/
abbrev SB_ARB_LOST : Nat := 0x580024
abbrev SB_ARB_LOST_COUNT : Fld := ⟨0x580024, 0, 32⟩
/-- Offset of SB_UNKNOWN (R418). -/
abbrev SB_UNKNOWN : Nat := 0x580028
abbrev SB_UNKNOWN_COUNT : Fld := ⟨0x580028, 0, 32⟩
/-- Offset of SB_CONTEST (R418). -/
abbrev SB_CONTEST : Nat := 0x58002C
abbrev SB_CONTEST_COUNT : Fld := ⟨0x58002C, 0, 32⟩
/-- Offset of SB_ASSIGN (R418). -/
abbrev SB_ASSIGN : Nat := 0x580040
abbrev SB_ASSIGN_PKG : Fld := ⟨0x580040, 0, 12⟩
abbrev SB_ASSIGN_PKG_VALID : Fld := ⟨0x580040, 12, 1⟩
abbrev SB_ASSIGN_Q0_VALID : Fld := ⟨0x580040, 13, 1⟩
abbrev SB_ASSIGN_SQ_SIZE : Fld := ⟨0x580040, 16, 4⟩
abbrev SB_ASSIGN_CQ_SIZE : Fld := ⟨0x580040, 20, 4⟩
abbrev SB_ASSIGN_SEQ0 : Fld := ⟨0x580040 + 4, 0, 16⟩
abbrev SB_ASSIGN_POINT : Fld := ⟨0x580040 + 24, 0, 4⟩
abbrev SB_ASSIGN_NSTACK : Fld := ⟨0x580040 + 24, 8, 5⟩
abbrev SB_ASSIGN_STACK_LOG2 : Fld := ⟨0x580040 + 24, 16, 6⟩
abbrev SB_ASSIGN_Q0_LIMIT : Fld := ⟨0x580040 + 28, 8, 7⟩
abbrev SB_ASSIGN_Q0_PRIO : Fld := ⟨0x580040 + 28, 16, 2⟩
abbrev SB_ASSIGN_CFG_VALID : Fld := ⟨0x580040 + 28, 18, 1⟩
/-! 16_boot_and_security.md R441. -/

/-- Offset of BOOT_STATUS (R441). -/
abbrev BOOT_STATUS : Nat := 0x5C0000
abbrev BOOT_STATUS_STEP : Fld := ⟨0x5C0000, 0, 4⟩
abbrev BOOT_STATUS_REASON : Fld := ⟨0x5C0000, 16, 16⟩
/-- Offset of FW_ID (R441). -/
abbrev FW_ID : Nat := 0x5C0004
abbrev FW_ID_VERSION : Fld := ⟨0x5C0004, 0, 32⟩
abbrev FW_ID_BUILD : Fld := ⟨0x5C0004 + 4, 0, 32⟩
abbrev FW_ID_SVN : Fld := ⟨0x5C0004 + 8, 0, 16⟩
abbrev FW_ID_KEY_SLOT : Fld := ⟨0x5C0004 + 8, 16, 1⟩
/-- Offset of FW_DIGEST (R441). -/
abbrev FW_DIGEST : Nat := 0x5C0010
/-- Offset of FUSE_SEC (R441). -/
abbrev FUSE_SEC : Nat := 0x5C0040
abbrev FUSE_SEC_LIFECYCLE : Fld := ⟨0x5C0040, 0, 1⟩
abbrev FUSE_SEC_REVOKE : Fld := ⟨0x5C0040, 1, 2⟩
abbrev FUSE_SEC_MIN_SVN : Fld := ⟨0x5C0040, 3, 7⟩
/-- Offset of ID_PUBKEY (R441). -/
abbrev ID_PUBKEY : Nat := 0x5C0080
/-- Offset of ID_CERT (R441). -/
abbrev ID_CERT : Nat := 0x5C00E0
/-- Offset of DBG_STATE (R441). -/
abbrev DBG_STATE : Nat := 0x5C0140
abbrev DBG_STATE_UNLOCKED : Fld := ⟨0x5C0140, 0, 1⟩
abbrev DBG_STATE_CHALLENGE : Fld := ⟨0x5C0140, 1, 1⟩
abbrev DBG_STATE_LOCK : Fld := ⟨0x5C0140, 2, 1⟩
abbrev DBG_STATE_FAILS : Fld := ⟨0x5C0140, 16, 16⟩
/-- Offset of MON_CFG (R441). -/
abbrev MON_CFG : Nat := 0x5C0144
abbrev MON_CFG_BAUD : Fld := ⟨0x5C0144, 0, 3⟩
/-- Offset of RST_LOG (R441). -/
abbrev RST_LOG (i : Nat) : Nat := 0x5C0180 + 0x4 * i
abbrev RST_LOG_ADDR (i : Nat) : Fld := ⟨0x5C0180 + 0x4 * i, 0, 8⟩
abbrev RST_LOG_RESULT (i : Nat) : Fld := ⟨0x5C0180 + 0x4 * i, 8, 3⟩
/-- Offset of BOOT_PEER (R441). -/
abbrev BOOT_PEER (i : Nat) : Nat := 0x5C0200 + 0x4 * i
abbrev BOOT_PEER_ADDR (i : Nat) : Fld := ⟨0x5C0200 + 0x4 * i, 0, 8⟩
abbrev BOOT_PEER_VALID (i : Nat) : Fld := ⟨0x5C0200 + 0x4 * i, 8, 1⟩

end Reg

end Sys2Proof.Machine
end

