-- ==== Sys2Proof/Machine/Store.lean ====
section
/-! DEFINITION. Sparse data by key: an ordered list of (key, value) pairs with a value that every unlisted
key holds. Registers, memories and the tables of the tile are kept so. -/

namespace Sys2Proof.Machine

/-- Values by natural-number key, kept in rising order of key. -/
abbrev Store (α : Type) := List (Nat × α)

/-- The value at a key; `d` where the key is not listed. -/
def Store.get {α : Type} (d : α) : Store α → Nat → α
  | [], _ => d
  | (k, v) :: t, n => if k = n then v else Store.get d t n

/-- The list without a key. -/
def Store.drop {α : Type} (m : Store α) (n : Nat) : Store α :=
  m.filter fun p => p.1 != n

/-- Insert at the key's place in the order. -/
def Store.ins {α : Type} : Store α → Nat → α → Store α
  | [], n, v => [(n, v)]
  | (k, w) :: t, n, v => if n < k then (n, v) :: (k, w) :: t else (k, w) :: Store.ins t n v

/-- Set a key. -/
def Store.put {α : Type} (m : Store α) (n : Nat) (v : α) : Store α :=
  Store.ins (Store.drop m n) n v

/-- Set a key in a store that lists no key holding `d`. -/
def Store.putD {α : Type} [DecidableEq α] (d : α) (m : Store α) (n : Nat) (v : α) : Store α :=
  if v = d then Store.drop m n else Store.put m n v

/-- Change the value at a key. -/
def Store.upd {α : Type} (d : α) (m : Store α) (n : Nat) (f : α → α) : Store α :=
  Store.put m n (f (Store.get d m n))

/-- The keys rise strictly and none of them holds `d`: equal stores are equal lists. -/
def Store.canon {α : Type} [DecidableEq α] (d : α) : Store α → Bool
  | [] => true
  | (_, v) :: [] => decide (v ≠ d)
  | (k, v) :: (k', w) :: t => decide (v ≠ d) && decide (k < k') && Store.canon d ((k', w) :: t)

end Sys2Proof.Machine
end

