-- ==== Sys2Proof/Machine/State.lean ====
section
/-! DEFINITION. The state of the tile as plain data. Registers, memories and tables are sparse stores; a register that
shows a piece of state is the home of that state. -/

namespace Sys2Proof.Machine

open Host (Cell)

/-! ## Straps and fuses -/

/-- The straps as sampled (R419) and the fuses (R420, R17, R361). -/
structure Dev where
  primarySel : Bool := false
  tileSel    : BitVec 3 := 0
  bootEdge   : BitVec 2 := 0
  testMode   : Bool := false
  sbClk      : Bool := true
  aonClk     : Bool := true
  /-- Column of each region's spare (R32). -/
  spareCol   : List Nat := [0, 0, 0, 0, 0, 0, 0, 0]
  /-- Bit `r`: the spare of region `r` is good. -/
  spareGood  : BitVec 8 := 0
  /-- `PWR_VF[0..15]` (R361). -/
  vf         : List DWord
  uid        : DWord := 0
  lifecycle  : Bool := false
  revoke     : BitVec 2 := 0
  minSvn     : BitVec 7 := 0
  keyHash0   : BitVec 384 := 0
  keyHash1   : BitVec 384 := 0
  dbgPubkey  : BitVec 768 := 0
  idKey      : BitVec 384 := 0
  idPubkey   : BitVec 768 := 0
  idCert     : BitVec 768 := 0
  fuseCrc    : Word := 0
deriving DecidableEq, Repr

/-! ## Control space -/

/-- A holding register (R12): the offset of the 64-bit register it serves and the word it holds. -/
structure Holding where
  tag : Nat
  val : Word
deriving DecidableEq, Repr

/-! ## Power and time -/

/-- Telemetry of one rail (R362, R366). -/
structure Rail where
  mv      : Nat := 0
  /-- In units of 0.5 A. -/
  current : Nat := 0
  /-- A frame has arrived since the latest sample. -/
  fresh   : Bool := false
  /-- Samples in a row without a frame. -/
  missing : Nat := 0
deriving DecidableEq, Repr

/-- A move of the operating point in progress (R358, R361). -/
structure Move where
  target  : Nat
  former  : Nat
  /-- Rails still to be raised or lowered, in order, with their voltages. -/
  rails   : List (Nat × Nat)
  /-- The move returns to the former point after a missing ACK_V. -/
  back    : Bool
  /-- The REG_WRITE that started it. -/
  starter : Option (Nat × Nat) := none
deriving DecidableEq, Repr

/-- The power logic (R357 to R372). -/
structure Pwr where
  rails     : Store Rail := []
  /-- Voltage last requested of rails 0..2, mV. -/
  volts     : Store Nat := []
  /-- Power samples, latest first, in units of 0.5 mW. -/
  samples   : List Nat := []
  /-- Local marks since S_REQ last changed (R363). -/
  dwell     : Nat := 0
  /-- Energy below 1 µJ, in nJ (R370). -/
  energyRem : Nat := 0
  /-- FAST exceeded the fast limit with S = 15 at the latest sample (R365). -/
  fastHot   : Bool := false
  /-- Stretch requests of each child edge, latest first, with the beat and the ACLK cycle of their arrival (R364). -/
  child     : Store (List (Nat × Nat × Nat)) := []
  /-- Largest request last forwarded up the tree. -/
  forwarded : Nat := 0
  move      : Option Move := none
  /-- A droop detector has been tripped within the latest 32 cycles (R367). -/
  droop     : Bool := false
  /-- Regions powering up (R371). -/
  regionsUp : List Nat := []
  /-- Fields saved at sleep entry (R372). -/
  saved     : List (Nat × Word) := []
  savedProg : List (Nat × Store Word) := []
  /-- The wake has written its saved fields back, and trains the edges again (R372). -/
  restored  : Bool := false
  /-- VDD_AON as last read, in mV (R374). -/
  vddAon    : Option Nat := none
  /-- Regulator frames sent (R359), latest last. -/
  regTx     : List (BitVec 40) := []
deriving DecidableEq, Repr

/-- The clocks (R373, R452, R53). -/
structure Clk where
  refclk  : Bool := true
  /-- The PLLs stopped at a loss of REFCLK: no unit advances until TILE reset (R452). -/
  stopped : Bool := false
  /-- The 6-bit fraction of AONCLK counting. -/
  aonFrac : Nat := 0
  /-- ACLK cycles since the job's first mark. -/
  aclk    : Nat := 0
  /-- The last ACLK edge of the tick before was left over by the suppression (R367). -/
  odd     : Bool := false
  /-- Hundredths of an ACLK cycle carried between ticks. -/
  aclkRem : Nat := 0
  /-- ACLK cycles since the latest mark while no marks fire (R226, R363). -/
  idle    : Nat := 0
  /-- ACLK cycles of the beat that draining banks count outside RUNNING and PAUSED (R215). -/
  bank    : Nat := 0
deriving DecidableEq, Repr

/-! ## Beat -/

/-- The beat block (R36 to R41, R336). -/
structure Beat where
  /-- A mark received and armed: its number and stretch. -/
  armed   : Option (Nat × Nat) := none
  /-- A beat-loss error stands. -/
  lost    : Bool := false
  /-- Number of the latest on-time mark after a loss. -/
  cand    : Option Nat := none
  /-- The job has a first mark. -/
  started : Bool := false
  /-- Latency probes without a reply, oldest first: the edge that a probe came by, none for the tile's own (R395). -/
  probes  : List (Option Nat) := []
deriving DecidableEq, Repr

/-! ## Sideband -/

/-- A frame to send (R407, R410). -/
structure TxFrame where
  prio    : Nat
  ty      : Byte
  dst     : Byte
  payload : List Byte
  retries : Nat := 0
  /-- SRC, of a frame sent (R406). -/
  src     : Byte := 0xFF
  /-- The frame is the ADDR_CLAIM of a candidate. -/
  claim   : Bool := false
  /-- The cause of a HEALTH_ALERT. -/
  cause   : Nat := 0
deriving DecidableEq, Repr

/-- Progress of the primary's release of the other tiles (R424). -/
inductive RelPhase where
  | idle
  | asking (addr : Nat) (left : List Nat) (marked : List Nat)
  | health (addr : Nat) (left : List Nat)
  | waiting (addr : Nat) (left : List Nat)
deriving DecidableEq, Repr

/-- The sideband responder and release logic (R405 to R424). -/
structure Sb where
  txq       : List TxFrame := []
  /-- Frames sent and acknowledged, latest last. -/
  sent      : List TxFrame := []
  /-- Candidates still to be tried (R412). -/
  cands     : List Nat := []
  /-- The claim's EOF has passed and its contest window runs. -/
  window    : Bool := false
  /-- An accepted appointment (R416). -/
  appoint   : Option Word := none
  /-- A RESET_HOLD from 0x00 came before the self-release (R422). -/
  held      : Bool := false
  /-- A value of `SB_ASSIGN` was replaced while firmware slept in FW_READY (R429). -/
  owed      : Bool := false
  /-- The self-release is spent: it happens once after POR, and never after a trip. -/
  released  : Bool := false
  /-- The tile's own release since POR has been followed by FW_READY handling (R424). -/
  phase     : RelPhase := .idle
deriving DecidableEq, Repr

/-! ## Boot, debug, monitor, JTAG -/

/-- Privilege modes of a management core (R308): machine and user, no other. -/
inductive Priv where
  | machine | user
deriving DecidableEq, Repr

/-- A management core (R308): RV64GC state, its mode, and the entries of its physical memory protection (log entry 87). -/
structure MgmtCore where
  /-- The core runs: the boot ROM's core 0, or firmware (R426). -/
  on   : Bool := false
  priv : Priv := .machine
  /-- Byte offset in management-core memory. -/
  pc   : DWord := 0
  x    : List DWord := List.replicate 32 0
  f    : List DWord := List.replicate 32 0
  fcsr : Byte := 0
  /-- Configuration and address of each PMP entry. -/
  pmp  : List (Byte × DWord) := List.replicate 16 (0, 0)
deriving DecidableEq, Repr

/-- The boot ROM and the debug challenge (R426, R433). -/
structure Boot where
  flashOff  : Nat := 0
  header    : List Byte := []
  body      : List Byte := []
  /-- A failed step waits for its retry timer. -/
  retry     : Bool := false
  /-- Firmware runs on the management cores. -/
  running   : Bool := false
  /-- The four management cores (R308). -/
  mgmt      : List MgmtCore := List.replicate 4 {}
  challenge : Option (List Byte) := none
  /-- The latest challenge made, once replaced or spent. -/
  challengeAt : Nat := 0
deriving DecidableEq, Repr

/-- The serial monitor (R435 to R437). -/
structure Mon where
  /-- Reply lines, latest last. -/
  out      : List String := []
  /-- The rate that a switch pends to. -/
  baudPend : Option Nat := none
  /-- The unit that the monitor command selftest tests. -/
  test     : Option TestUnit := none
  /-- The monitor command poke waits for the end of the check or the move that it started (R304, R316). -/
  poke     : Bool := false
  /-- Lines received while such a command runs, oldest first, each as the command it spells (R436). -/
  input    : List Instr := []
deriving DecidableEq, Repr

/-- JTAG instructions (R438). -/
inductive JInstr where
  | extest | sample | idcode | highz | clamp | dbgAccess | bypass
deriving DecidableEq, Repr

/-- The test access port (R438, R439). -/
structure Jtag where
  /-- The instruction register; TAP reset selects IDCODE. -/
  ir      : BitVec 8 := 2
  bypass  : Bool := false
  /-- What the latest scan shifted out at TDO, first bit first: the instruction register's capture, then the data register's. -/
  tdo     : List Bool := []
  /-- Boundary-scan register, update side (R446). -/
  bsr     : BitVec 15 := 0
  /-- Boundary-scan register, what a capture shifted out. -/
  bsrOut  : BitVec 15 := 0
  data    : Word := 0
  done    : Bool := false
  err     : Bool := false
deriving DecidableEq, Repr

/-! ## Host commands -/

/-- Where a command in flight stands. -/
inductive Phase where
  /-- Fetched; not yet carried out. -/
  | fetched
  /-- Its effect runs on and a completion row ends it. -/
  | running
deriving DecidableEq, Repr

/-- A command in flight (R294): its packet, and what its progress needs. -/
structure Flight where
  queue   : Nat
  seq     : Nat
  /-- Tells apart commands of one queue in flight with the same SEQ, which counts modulo 2^16 (R294). -/
  lap     : Nat := 0
  opcode  : Nat
  tag     : Nat
  jobId   : Nat
  halt    : Bool
  head    : Nat
  param   : Nat
  phase   : Phase := .fetched
  /-- A poisoned source line, for the data commands and JOB_LOAD. -/
  poison  : Option Nat := none
  /-- Beats counted toward the command's limit. -/
  beats   : Nat := 0
  /-- Enable checks that a REG_WRITE started and that have not ended. -/
  checks  : Nat := 0
  /-- Words recorded for the reply. -/
  detail  : Nat := 0
  /-- A data command in RUNNING: the grants of the read and the write class that it has still to take (R324). -/
  want    : Option (Nat × Nat) := none
deriving DecidableEq, Repr

/-- An enable bit with a consistency check (R304). -/
inductive Enable where
  | queue (q : Nat)
  | job
  | link (e : Nat)
  | reduce
deriving DecidableEq, Repr

/-- A consistency check waiting or running, and the REG_WRITE that started it. -/
structure Check where
  what : Enable
  /-- `LINK_STATUS.STATE` before the write, for a link's check. -/
  was  : Nat := 0
  starter : Option (Nat × Nat) := none
deriving DecidableEq, Repr

/-- A section of a job image (R317). -/
structure Section where
  dest  : Nat
  bytes : Nat
  src   : Nat
  fixed : Bool
deriving DecidableEq, Repr

/-- Job control (R314 to R322). -/
structure Job where
  /-- Sections of the loaded image. -/
  image    : List Section := []
  /-- Reason of the latest step repeat (R322, R348). -/
  repeatReason : Nat := 0
  /-- Ready reports at the beat master: tile and TILES. -/
  ready    : List (Nat × Nat) := []
  /-- Every tile is ready: the next mark starts the job. -/
  starting : Bool := false
  /-- AT_BEAT of an armed pause. -/
  pauseAt  : Option Nat := none
  /-- The pause point has passed and no slot starts a block. -/
  pausing  : Bool := false
  /-- The pause point was a control-barrier release. -/
  pauseRel : Bool := false
  stopping : Bool := false
  /-- A step of the job has begun. -/
  stepped  : Bool := false
  /-- TILES of the job. -/
  tiles    : Nat := 0
deriving DecidableEq, Repr

/-- What R424 and the queues keep beside the registers: the completion-ring phase of a queue. -/
structure QSt where
  /-- PHASE of the present trip round the completion ring (R298). -/
  phase : Bool := true
deriving DecidableEq, Repr

/-! ## Links -/

/-- Where the training of an edge stands (R391): the step in progress, 0 when none. -/
structure Train where
  step    : Nat := 0
  bad     : BitVec 34 := 0
  lanes   : Nat := 0
  asked   : Nat := 0
  reason  : Nat := 0
  /-- Of the retraining after a self-test: the credit held before it, which stands again after it (R401; log entry 110). -/
  saved   : Option (Store Nat) := none
deriving DecidableEq, Repr

/-- A flit sent and not acknowledged (R379, R382): its SEQ, whether it is DATA, its body and its CREDIT word. -/
structure TxFlit where
  seq    : Nat
  data   : Bool
  body   : List Byte
  credit : Nat
deriving DecidableEq, Repr

/-- A change of lanes that a lane-control symbol has announced (R383, R392): the first SEQ that uses it, the logical lane, the spare (0, 1) that
takes it, none where the edge goes on without the lane, and whether this tile's own flits are meant. -/
structure LanePlan where
  seq     : Nat
  logical : Nat
  spare   : Option Nat
  own     : Bool
deriving DecidableEq, Repr

/-- An edge (R379 to R394). -/
structure EdgeSt where
  txSeq    : Nat := 0
  /-- SEQ expected next. -/
  rxSeq    : Nat := 0
  /-- Latest SEQ accepted. -/
  ack      : Nat := 4095
  nak      : Bool := false
  /-- Refusals of each SEQ since a flit was accepted. -/
  refused  : Store Nat := []
  /-- Flits that arrived on each logical lane, and which of them, by that count, were uncorrectable (R392). -/
  laneFlits : Store Nat := []
  laneErrs : Store (List Nat) := []
  plans    : List LanePlan := []
  /-- Flits sent and not acknowledged, oldest first. -/
  replay   : List TxFlit := []
  /-- Flits put on the wire, latest last. -/
  wire     : List (List Byte) := []
  /-- Message units that the next flits carry. -/
  txBuf    : List Byte := []
  /-- The channel served last (R389). -/
  vcServed : Nat := 15
  /-- Units to be returned to the partner, per channel (R388), and those returned that the partner has not used. -/
  owed     : Store Nat := []
  given    : Store Nat := []
  /-- Second copies of marks: the SEQ that carries each, and its symbol (R384). -/
  echo     : List (Nat × Word) := []
  /-- A flit has arrived since the latest one sent: its acknowledgement is due. -/
  ackDue   : Bool := false
  /-- Units of a message that is still arriving. -/
  partialMsg : List Byte := []
  /-- Credit held toward the partner, per channel. -/
  credit   : Store Nat := []
  /-- Messages in the ingress burst queue. -/
  ingress  : List GMsg := []
  /-- Messages waiting to be sent, and those of them that belong to a REMOTE transfer of this tile: site, context, serial number. -/
  out      : List GMsg := []
  routed   : List (GMsg × Nat × Nat × Nat) := []
  /-- Link symbols waiting to be sent. -/
  lsym     : List Word := []
  /-- Symbols received whose command has not come, and the number of the latest mark among those received (R383, R384). -/
  rsym     : List Word := []
  markNum  : Option Nat := none
  /-- The partner's descriptor has been accepted. -/
  peer     : Bool := false
  train    : Train := {}
  /-- A substitution was logged for this step's first violation (R394). -/
  violation : Bool := false
  /-- Out of service once the replay buffer is acknowledged (R402). -/
  leaving  : Bool := false
  loop     : Bool := false
  /-- A self-test of the lanes runs (R401): 1 near-end, 2 far-end. -/
  test     : Nat := 0
deriving DecidableEq, Repr

/-! ## Numbers -/

/-- A number as the numeric units hold it (R77 to R101): NaN (signalling or quiet), infinity, or (−1)^neg × m × 2^e. -/
inductive Num where
  | nan (sig : Bool)
  | inf (neg : Bool)
  | fin (neg : Bool) (m : Nat) (e : Int)
deriving DecidableEq, Repr

/-- Counts, flags and hint of a status record (R111). -/
structure Rec where
  sat       : Nat := 0
  flush     : Nat := 0
  hexp      : Nat := 0
  hnan      : Bool := false
  hinf      : Bool := false
  nan       : Bool := false
  infIn     : Bool := false
  ovf       : Bool := false
  invalid   : Bool := false
  underflow : Bool := false
  divzero   : Bool := false
  empty     : Bool := false
deriving DecidableEq, Repr

/-! ## Clusters -/

/-- A signal (R220, R222): object reference, increment, the Gulto address of a remote object's site, and the recorded source. -/
structure Sig where
  ref : Nat
  inc : Int
  dst : Nat := 0
  src : Nat := 0
deriving DecidableEq, Repr

/-- A BZ.SEND (R61): direction, link slot, bytes from SRC, the task slot that issued it, and the beats held (R193). -/
structure SendRec where
  dir  : Nat
  j    : Nat
  src  : Nat
  len  : Nat
  slot : Nat
  blk  : Nat := 0
  /-- `BEAT_COUNT` when the issuing block committed: the send takes a link slot of a later beat. -/
  since : Nat := 0
  held : Nat := 0
  /-- The hold has been raised as an error. -/
  timed : Bool := false
  /-- The cluster's serial number of the BZ.SEND: sends of one direction and slot go in the order of issue (R61). -/
  seq  : Nat := 0
deriving DecidableEq, Repr

/-- A transfer on its way to a receiver (R193): direction it came over, its link slot, its landing slot, the bytes, and the
direction in which the receiver forwards it. -/
structure Hop where
  dir   : Nat
  j     : Nat
  land  : Nat
  bytes : List Byte
  pass  : Option Nat
  /-- Site, task slot and block that issued the BZ.SEND. -/
  src   : Nat × Nat × Nat
deriving DecidableEq, Repr

/-- What a slot's block in progress has recorded for its commit (R46 to R48, R67) and for its replay (R339, R340). -/
structure Blk where
  /-- The serial number that tags its operations; 0 before the first block. -/
  id        : Nat := 0
  blockId   : Nat := 0
  last      : Bool := false
  /-- Pending deltas by cluster object (R223). -/
  deltas    : Store Int := []
  /-- Amounts taken from committed values (R223). -/
  taken     : Store Nat := []
  /-- Completion signals held until the commit. -/
  held      : List Sig := []
  /-- BZ.SIG signals. -/
  sigs      : List Sig := []
  sends     : List SendRec := []
  /-- Arrays whose banks are to be swapped. -/
  swaps     : Nat := 0
  /-- Arrivals: barrier, whether the slot waits, and the generation; none for an arrival that R231 discards. -/
  bars      : List (Nat × Bool × Option Nat) := []
  /-- Landing slots that the block fills and drains. -/
  fills     : List Nat := []
  drains    : List Nat := []
  /-- Contexts armed: context, whether the arm entered the shadow, `STR_HOME` before it. -/
  arms      : List (Nat × Bool × Word) := []
  /-- Lines read before the block wrote them, and lines written (R339). -/
  reads     : List Nat := []
  writes    : List Nat := []
  /-- Accumulator entries initialised, one bit per 32-bit entry, by array (R138). -/
  inits     : Store Nat := []
  /-- Bytes of the slice that its own operations wrote, latest first: offset, value before, value written (R282, log entry 85). -/
  undo      : List (Nat × Byte × Byte) := []
  nonReplay : Bool := false
  /-- An error has been charged to the block. -/
  failed    : Bool := false
  /-- Its deadline miss has been counted. -/
  missed    : Bool := false
deriving DecidableEq, Repr

/-- What a task slot waits for (R225, R208). -/
inductive Wait where
  | object (ref thr : Nat) (sub : Bool)
  | cancel (ctx : Nat)
deriving DecidableEq, Repr

/-- What an instruction that stalls its slot needs (R51, R68, R204, R216): room in the queues of the arrays of a mask, of an engine, of
the fetch engine or the transposer, or for a marker of a context; the release of a full batch, or of any; or a range of the slice whose
bank wakes. -/
inductive StallOn where
  | arrays (mask : Nat)
  | engine (e : Nat)
  | copies (transposer : Bool)
  | marker (ctx : Nat)
  | batch (a : Nat)
  | flush (a : Nat)
  | bank (addr bytes : Nat)
deriving DecidableEq, Repr

/-- A task slot (R44 to R47, R53, R340). -/
structure SlotSt where
  x       : Store DWord := []
  y       : Store Word := []
  pc      : Nat := 0
  /-- The block buffer's code. -/
  buf     : List Byte := []
  /-- The next block's code is in the buffer, and its entry: BLOCK_ID, LAST, and the trap found at the read. -/
  copied  : Bool := false
  /-- The copy waits for a bank that wakes (R216). -/
  toCopy  : Bool := false
  entId   : Nat := 0
  entLast : Bool := false
  entTrap : Nat := 0
  /-- Index of the next block entry, once BZ.ENDB has named it. -/
  next    : Nat := 0
  instret : Nat := 0
  /-- Load reservation: address and bytes. -/
  resv    : Option (Nat × Nat) := none
  blk     : Blk := {}
  /-- A wait in progress and the marks counted. -/
  wait    : Option (Wait × Nat) := none
  /-- What the stalled instruction needs. -/
  stallOn : Option StallOn := none
  /-- BZ.ENDB has ended the block, which has not committed. -/
  ended   : Bool := false
  /-- Registers, VL values and ENTRY at the block's start. -/
  shX     : Store DWord := []
  shY     : Store Word := []
  shVl    : Nat × Nat := (0, 0)
  shEntry : Nat := 0
  /-- Arrivals at each barrier this job (R231). -/
  arrived : Store Nat := []
  /-- The block in progress, or the next one, is a replay. -/
  replay  : Bool := false
  /-- Objects of other clusters, and of the tile (64), that the discarded block was to signal: its replay holds them (R350). -/
  owes    : List (Nat × Nat) := []
  /-- The slot's first miss of the step has been logged. -/
  missLog : Bool := false
  /-- Entries of the slot whose first guard trip of the step has been logged (R339). -/
  trips   : List Nat := []
  /-- LATE: the slot starts blocks without a mark until the release of this barrier and generation (R57). -/
  late    : Bool := false
  lateBar : Option (Nat × Nat) := none
  /-- The releases that the slot, held, waits for: barriers and generations (R231, R233). -/
  holdBar : List (Nat × Nat) := []
deriving DecidableEq, Repr

/-- Operations of the units (R51). -/
inductive OpKind where
  | aload | astream | ainit | vrun | vred | vperm | vcmpx | fill | copy | xcopy
deriving DecidableEq, Repr

/-- An operation accepted by a unit: its serial number, who issued it, and its operands as issued. -/
structure Op where
  id    : Nat
  kind  : OpKind
  slot  : Nat
  blk   : Nat
  f7    : Nat
  /-- Slice offset of the descriptor; of a fill or copy, the descriptor as read. -/
  desc  : Nat
  /-- Row count, or the constant of a fill. -/
  arg   : Nat := 0
  vl    : Nat := 0
  scal  : List Word := []
  /-- Row addresses of a batch release (R132). -/
  batch : Option (List Nat) := none
deriving DecidableEq, Repr

/-- An array operation in progress: next row, bank written, the rows since the latest checksum row, counts. -/
structure Run where
  op      : Op
  /-- The descriptor as read at the start. -/
  dv      : Nat := 0
  bank    : Nat := 0
  row     : Nat := 0
  /-- Fed rows since the latest checksum row. -/
  fed     : Nat := 0
  /-- Sums over those rows, by column and by leaf position (R142). -/
  sumT    : List Num := []
  sumA    : List Num := []
  absA    : List Num := []
  special : Bool := false
  /-- Entry of the latest fed row. -/
  entry   : Nat := 0
  /-- Rows fed in the whole operation. -/
  total   : Nat := 0
  /-- Landing slots that it has bound (R188). -/
  bound   : List Nat := []
  stat    : Rec := {}
  done    : Bool := false
deriving DecidableEq, Repr

/-- A matrix array (R114, R119, R138, R147). -/
structure Arr where
  queue  : List Op := []
  /-- The operation that uses the cells. -/
  cur    : Option Run := none
  /-- Loads and streams that have left the cells and have not completed (R120, R130). -/
  past   : List Run := []
  inits  : List Run := []
  /-- Expanded weights: 64 columns, each a list of leaf positions; an absent cell is none. -/
  cells  : List (List (Option Num)) := []
  /-- Leaf positions, K, N and problems of the current load. -/
  leaves : Nat := 128
  k      : Nat := 0
  n      : Nat := 0
  probs  : Nat := 1
  /-- Block that made the load. -/
  owner  : Nat × Nat := (0, 0)
  active : Bool := false
  idle   : Nat := 0
  /-- A stall on a landing slot, and the marks counted. -/
  stall  : Option (Nat × Nat) := none
  /-- Batch queue: row addresses (R68). -/
  batch  : List Nat := []
deriving DecidableEq, Repr

/-- What a vector operation has read and computed and has still to write (R176): its chunk's first element and length; the values of its two
outputs, each with its source value as R110 folds it; or element codes with the operand that they go to. -/
structure VPend where
  base  : Nat := 0
  len   : Nat := 0
  outs  : List (List (Num × Num)) := []
  codes : List (Nat × Nat × Nat) := []
deriving DecidableEq, Repr

/-- A vector operation in progress (R163, R167, R176). -/
structure VRun where
  op    : Op
  /-- The descriptor, and the readout descriptors of the inputs, as read at the start, each with the physical bank that it binds in bit 512
  (R136). -/
  dv    : Nat
  ros   : List Nat := []
  /-- The mode, fixed at the start (R104). -/
  strict : Bool := false
  /-- Chunks read. -/
  next  : Nat := 0
  /-- Landing slots it has bound to read or to write. -/
  bound : List Nat := []
  /-- Chunks read and not yet written, in order. -/
  pends : List VPend := []
  /-- Tile registers. -/
  regs  : List (List Word) := []
  /-- Active elements so far (R172). -/
  count : Nat := 0
  /-- Elements of a reduction so far (R173). -/
  vals  : List (Option Num) := []
  stat  : Rec := {}
  /-- What is written after the last chunk has been formed. -/
  last  : Bool := false
deriving DecidableEq, Repr

/-- A vector engine (R176, R179). -/
structure Eng where
  queue  : List Op := []
  /-- The operation in progress. -/
  cur    : Option VRun := none
  active : Bool := false
  idle   : Nat := 0
  stall  : Option (Nat × Nat) := none
deriving DecidableEq, Repr

/-- A dependence marker (R204). -/
structure Marker where
  ref  : Nat
  thr  : Nat
  step : Nat
deriving DecidableEq, Repr

/-- An arm (R196, R197): its record, home, the block that armed it, and its progress. -/
structure Arm where
  desc  : Nat
  home  : Nat
  slot  : Nat
  blk   : Nat
  /-- The arming block has committed. -/
  sure  : Bool := false
  next  : Nat := 0
  limit : Nat := 0
  marks : List Marker := []
  /-- Marks counted while its head marker waits. -/
  waited : Nat := 0
deriving DecidableEq, Repr

/-- A transfer issued (R200, R207): its serial number, its arm's record, index, epoch, lines arrived, whether a LOAD's data is all
written, whether it was cancelled. -/
structure Xfer where
  id    : Nat := 0
  desc  : Nat
  slot  : Nat
  blk   : Nat
  idx   : Nat
  epoch : Nat
  lines : Nat := 0
  dead  : Bool := false
  /-- It met an uncorrectable or poisoned word, or a poisoned acknowledgement: it never completes (R333, R397). -/
  bad   : Bool := false
  /-- Package memory has acknowledged the STORE (R200). -/
  acked : Bool := false
  /-- A STORE or REMOTE whose data waits for its turn at the transposer (R198). -/
  waits : Bool := false
  /-- Bytes read from the slice by a STORE. -/
  data  : List Byte := []
deriving DecidableEq, Repr

/-- A stream context (R196 to R207). -/
structure Ctx where
  act   : Option Arm := none
  shd   : Option Arm := none
  xfers : List Xfer := []
  /-- A stall on a landing slot, and the marks counted. -/
  stall : Option (Nat × Nat) := none
  /-- Stopped by a timeout (R227). -/
  stop  : Bool := false
deriving DecidableEq, Repr

/-- What the debugger view records of an object beside its value and flags (R238). -/
structure ObjRec where
  src      : Nat := 0
  beat     : Nat := 0
  produced : Nat := 0
  consumed : Nat := 0
deriving DecidableEq, Repr

/-- A word of a unit whose parity is bad (R333 class 0x05): the structure, the unit that reads it (R15), and the index within it. Structures:
0 register files, 1 block buffers, 2 issue queues, 3 descriptor paths, 4 working accumulator banks, 5 tile registers, 6 element-program
stores, 7 sync counters, 8 committed accumulator banks. -/
structure BadWord where
  kind : Nat
  unit : Nat
  idx  : Nat
deriving DecidableEq, Repr

/-- A cluster (R15, R16). -/
structure Cluster where
  slice   : List Cell := []
  /-- Slice words of 64 bits that hold an error (R333): 1 correctable, 2 uncorrectable, 3 + a loaded from poisoned address a. -/
  ecc     : Store Nat := []
  /-- The clusters whose recovery windows are linked with this one's (R350). -/
  linked  : List Nat := []
  /-- Words with bad parity that no operation has met (R333 class 0x05; log entry 31). -/
  parity  : List BadWord := []
  /-- Corrected errors of each bank in the step. -/
  ces     : Store Nat := []
  pstore  : Store Word := []
  slots   : Store SlotSt := []
  arrs    : Store Arr := []
  /-- Accumulators: bank × 65,536 + column × 1,024 + entry (R133). -/
  acc     : Store Word := []
  engs    : Store Eng := []
  ctxs    : Store Ctx := []
  /-- The context whose turn is next (R199). -/
  served  : Nat := 0
  /-- The slot from which each control core issued last, or the one after it where that slot has stalled or ended its block (R51). -/
  issued  : Store Nat := []
  /-- By direction, the landing slots that this cluster's copy of a neighbour's states shows as not free (R193). -/
  copies  : Store (List Nat) := []
  fills   : List Op := []
  xcopies : List Op := []
  /-- What the transposer serves, in the order it reached it (R198): the context and serial number of a transfer, or 64 and a copy's. -/
  xline   : List (Nat × Nat) := []
  /-- Shares of the arrays that have finished a load that several load one by one, by operation (R121). -/
  parts   : Store Rec := []
  /-- Serial numbers of operations and blocks. -/
  nextOp  : Nat := 1
  nextBlk : Nat := 1
  sends   : List SendRec := []
  /-- Transfers whose trailing signal is on its way here. -/
  hops    : List Hop := []
  /-- Beat, and the first link slot of it that has not started. -/
  slotAt  : Nat × Nat := (0, 0)
  recs    : Store ObjRec := []
  /-- Beats with a slot held at a barrier and no commit (R351), and whether a block has committed in the beat. -/
  wdog    : Nat := 0
  committed : Bool := false
deriving DecidableEq, Repr

/-- JOB reset of a cluster (R13, R45, R133, R154): units idle, registers, VL and accumulators zero; the slice and the
element-program stores stay. -/
def Cluster.jobReset (c : Cluster) : Cluster := { slice := c.slice, ecc := c.ecc, pstore := c.pstore }

/-- TILE reset of a cluster: as JOB reset, and every element-program store word is zero (R181). -/
def Cluster.tileReset (c : Cluster) : Cluster := { slice := c.slice, ecc := c.ecc }

/-! ## The tile's own units -/

/-- An error that waits for its self-test (R337, R342, R343, R355). -/
structure PErr where
  cls     : Nat
  reason  : Nat := 0
  /-- The cluster charged; none for an error of the tile. -/
  site    : Option Nat
  unit    : TestUnit
  source  : Nat
  slot    : Nat := 0
  /-- Serial number and BLOCK_ID of the block charged; 0 when none is. -/
  blk     : Nat := 0
  blockId : Nat := 0
  detail  : Nat := 0
  context : Nat := 0
  landing : Bool := false
  beat    : Nat
  step    : Nat
  attempt : Nat
  level   : Nat
  /-- The test may end: the block has been discarded, or none is charged. -/
  ready   : Bool
deriving DecidableEq, Repr

/-- A node of a barrier (R233). -/
structure Node where
  gen  : Nat := 0
  /-- The arrival of `gen` has been forwarded; at a root, `gen` has been released. -/
  sent : Bool := false
  /-- CUR, NEXT and the held overruns, as participants: slots, clusters, regions, or the tiles' agent addresses / 1,024. -/
  inCur  : List Nat := []
  inNext : List Nat := []
  /-- Held overruns, with their generations. -/
  ahead  : List (Nat × Nat) := []
  /-- At a cluster node: the generation, slot and block of each arrival counted or held (R232). -/
  blks   : List (Nat × Nat × Nat) := []
  /-- At a root: the tiles of the latest generation that completed. -/
  members : List Nat := []
deriving DecidableEq, Repr

/-- An arrival on its way to a barrier node: barrier, node, generation, the participant (slot, cluster, region or tile), and the
block of a slot's arrival. -/
structure BArr where
  bar  : Nat
  node : Nat
  gen  : Nat
  who  : Nat
  blk  : Nat := 0
deriving DecidableEq, Repr

/-- A control release that waits for its beat (R234). -/
structure Rel where
  bar  : Nat
  gen  : Nat
  beat : Nat
deriving DecidableEq, Repr

/-- The snapshot of a step (R346): registers, and per slot its registers and arrival counts, and the barrier nodes. -/
structure Snap where
  regs  : List (Nat × Word)
  slots : List (Nat × Nat × SlotSt)
  nodes : Store Node
deriving DecidableEq, Repr

/-- A step repeat (R347): named beat and attempt of a repeat received and not yet applied; whether the tile has rewound and
whether its restart arrival is out; what the root has granted and which tiles have arrived. -/
structure Rep where
  named   : Option (Nat × Nat) := none
  asked   : Bool := false
  rewound : Bool := false
  ready   : Bool := false
  /-- The repeat carries this reason (R348). -/
  reason  : Nat := 0
  granted : Option (Nat × Nat) := none
  arrived : List Nat := []
  /-- The release of the restart has been applied: the next mark enters RUNNING. -/
  resume  : Bool := false
deriving DecidableEq, Repr

/-- A message that a cluster sent, on its way through the mesh or arrived over it (R60, R63, R194): the way it came (the tile's
edges are 0..3; 4 where no link of the tile carried it; 8 + s inside site s; 512 + 4 s + d over link d of site s), the site of this
tile it goes to, the beat and link slot of its latest hop, and the REMOTE transfer it belongs to: site, context, serial number. -/
structure NMsg where
  msg  : GMsg
  path : Nat := 4
  goal : Nat := 0
  hop  : Nat × Nat := (0, 0)
  xfer : Option (Nat × Nat × Nat) := none
deriving DecidableEq, Repr

/-- The first arrival of a way and channel waits for its landing slot (R194): the marks counted. -/
structure Hold where
  path  : Nat
  vch   : Nat
  marks : Nat := 0
deriving DecidableEq, Repr

/-- A reduction line as a node holds it (R253, R255): its input, the units it takes of that edge's ingress burst queue (R256), eight
64-bit words, tag NAN, SAT and RESIDUE. -/
structure RLine where
  inp   : Nat
  units : Nat := 0
  words : List Nat
  nan   : Nat
  sat   : Bool
  res   : Nat
deriving DecidableEq, Repr

/-- A bucket of a group at this tile's node (R244 to R263). -/
structure Bucket where
  /-- Sealed at this tile and not yet DONE, ABANDONED or discarded. -/
  mine     : Bool := false
  /-- This tile's contribution is sealed and converts; grants of the read class still to be taken. -/
  converting : Bool := false
  want     : Nat := 0
  /-- Lines held until every input has delivered them, in order of arrival. -/
  lines    : Store (List RLine) := []
  trailers : List (Nat × Nat) := []
  /-- Root: summed lines, and down lines formed. -/
  sums     : Store RLine := []
  down     : Nat := 0
  /-- A value of the bucket saturated at or below this node. -/
  sat      : Bool := false
  /-- A residue failure recurred (R257). -/
  marked   : Bool := false
  /-- Marks since the root's own seal (R261). -/
  since    : Option Nat := none
  /-- Root: the inputs without a trailer at the deadline (R261). -/
  missing  : Nat := 0
  /-- The root has decided, or the node has sent its trailer. -/
  closed   : Bool := false
  /-- The next piece of its result waits for a grant of the write class (R267). -/
  asks     : Bool := false
deriving DecidableEq, Repr

/-- A reduction group (R247, R249, R262, R322). -/
structure Grp where
  sealing : Bool := false
  /-- Buckets DONE in the step. -/
  done    : List Nat := []
  /-- Buckets whose clean completion of the step has been counted. -/
  counted : List Nat := []
  /-- Reason of an abandoned bucket of the step. -/
  aband   : Option Nat := none
  /-- Buckets of the step whose first discard has been logged (R258). -/
  stale   : List Nat := []
deriving DecidableEq, Repr

/-- The tile's units outside the clusters. -/
structure Tile where
  /-- Barrier nodes: barrier × 128 + node, clusters 0..63, regions 64..71, die 72, root 73. -/
  nodes  : Store Node := []
  rels   : List Rel := []
  /-- Records of the tile objects (R238). -/
  recs   : Store ObjRec := []
  snap   : Option Snap := none
  rep    : Rep := {}
  errs   : List PErr := []
  /-- Vertical ports under self-test (R401). -/
  portTest : BitVec 8 := 0
  /-- Beats counted by the tile watchdog (R351). -/
  wdog   : Nat := 0
  /-- Grants left in the beat, by class (R210), and the requester each class served last. -/
  grants : Store Nat := []
  served : Store Nat := []
  held   : List Hold := []
  /-- Messages waiting to cross a mesh link on a channel (R60): link × 16 + channel, link 4 s + d. -/
  net    : Store (List NMsg) := []
  /-- Messages that reached a cluster over the mesh, in order of arrival. -/
  arrived : List NMsg := []
  /-- Ways, with the channel + 16 × the site, whose latest transfer was discarded (R200): the signal right behind it is not applied. -/
  mute   : List (Nat × Nat) := []
  /-- The tile holds its arrival at the closing generation for a swap (R349). -/
  swapping : Bool := false
  /-- Arrivals on their way to a node of this tile. -/
  arrivals : List BArr := []
  /-- Buckets by group × 4,096 + index, and the groups. -/
  buckets : Store Bucket := []
  grps    : Store Grp := []
  /-- What a fault of the router adder adds to the words of its next sums, one entry a sum (R257; log entry 84). -/
  upsets  : List (List Int) := []
deriving DecidableEq, Repr

/-- JOB reset of those units (R13): an error whose self-test still runs is logged at the test's end (R355), charged to no block. -/
def Tile.jobReset (t : Tile) : Tile :=
  { errs := t.errs.map fun e => { e with blk := 0, ready := true }, portTest := t.portTest }

/-! ## Stops -/

/-- Reasons for which a command stops the block. No meaning raises one: every command of the table answers a next state, and the
tile's own faults (R333) are entries of `ERR_LOG` and states of its units. -/
inductive Fault where
  /-- Raised by no command. Safe: it claims nothing. -/
  | none
deriving DecidableEq, Repr

/-- Reasons for which a command is refused. -/
inductive Refusal where
  /-- Raised by an arm of `exec` whose command has no meaning yet, named by its mnemonic. Safe: nothing is claimed of it. -/
  | notModelled (mnemonic : String)
deriving DecidableEq, Repr

/-! ## The tile -/

/-- The tile. -/
structure State where
  /-- The commands that wait, first in first out. -/
  pending   : List Instr := []
  dev       : Dev
  /-- Control-space words by offset; an unlisted word holds its reset value. -/
  regs      : Store Word := []
  /-- Read and write holding registers, by requester (R12). -/
  rdHold    : Store Holding := []
  wrHold    : Store Holding := []
  pkgMem    : List Cell := []
  /-- Poisoned 64 B lines of package memory, by line number (R397). -/
  poison    : List Nat := []
  clusters  : Store Cluster := []
  tile      : Tile := {}
  pwr       : Pwr := {}
  clk       : Clk := {}
  beat      : Beat := {}
  sb        : Sb := {}
  boot      : Boot := {}
  mon       : Mon := {}
  jtag      : Jtag := {}
  job       : Job := {}
  flights   : List Flight := []
  /-- The queue of each priority served last (R296). -/
  served    : Store Nat := []
  queues    : Store QSt := []
  checks    : List Check := []
  edges     : Store EdgeSt := []
  /-- Messages for this tile that have been delivered and wait for their row. -/
  inbox     : List GMsg := []
  /-- Messages sent down the vertical ports. -/
  vpOut     : List GMsg := []
  /-- The model's own counter: numbers the free values drawn. -/
  free      : Nat := 0
deriving DecidableEq, Repr

/-- The operating points a reset device is fused with: 16 valid points, 1,100 MHz to 3,300 MHz, at the boot voltages. -/
def bootVf : List DWord :=
  [1100, 1250, 1400, 1550, 1700, 1850, 2000, 2150, 2300, 2450, 2600, 2750, 2900, 3050, 3200, 3300].map
    fun f => BitVec.ofNat 64 (f + 750 * 2 ^ 12 + 750 * 2 ^ 22 + 800 * 2 ^ 32 + 2 ^ 63)

/-- The tile right after POR: AON, every register at its reset value, no memory written, nothing waiting; the candidates
of its address claim (R412) are those of a follower strapped as tile 0. -/
def State.reset : State :=
  { dev := { vf := bootVf }, sb := { cands := (List.range 29).map fun j => 0x10 + 8 * j } }

end Sys2Proof.Machine
end

