-- ==== Sys2Proof/Machine/RegMap.lean ====
section
/-! DEFINITION. The register map: for every control-space word the access code of each bit (R7), its reset scope (R13) and its
reset value, from the register tables of spec/, and the rows' look-up by offset (R28 to R30). -/

namespace Sys2Proof.Machine

/-- Reset scopes (R13). -/
inductive Scope where
  | por | tile | job | sticky
deriving DecidableEq, Repr

/-- The bits of a word by access code (R7), and its reset value; a bit in no mask is read-only or reserved (R8). -/
structure WordAcc where
  rw  : Nat
  w1c : Nat
  wo  : Nat
  rc  : Nat
  rst : Nat
deriving DecidableEq, Repr

/-- One register table: first offset, distance and number of its instances, scope, whether it is a 64-bit register
(R12), and its words. -/
structure RegRow where
  base   : Nat
  stride : Nat
  count  : Nat
  scope  : Scope
  pair   : Bool
  words  : List WordAcc
deriving DecidableEq, Repr

/-- The registers outside the cluster, queue and edge blocks, part 1. -/
def globalRows1 : List RegRow :=
  [ ⟨0x0, 4, 1, .por, false, [⟨0, 0, 0, 0, 0x16002111⟩]⟩  -- TILE_ID
  , ⟨0x4, 4, 1, .por, false, [⟨0, 0, 0, 0, 0x8c7c28⟩]⟩  -- TILE_CAPS
  , ⟨0x14, 4, 1, .tile, false, [⟨0xfff, 0, 0, 0, 0⟩]⟩  -- PKG_ID
  , ⟨0x100, 4, 8, .sticky, false, [⟨0, 0, 0, 0, 0⟩]⟩  -- REGION_MAP
  , ⟨0x10000, 4, 1, .tile, false, [⟨0x3f, 0, 0, 0, 0xc⟩]⟩  -- BEAT_CFG
  , ⟨0x10008, 8, 1, .job, true, [⟨0, 0, 0, 0, 0⟩, ⟨0, 0, 0, 0, 0⟩]⟩  -- BEAT_COUNT
  , ⟨0x10010, 4, 1, .job, false, [⟨0, 0, 0, 0xffffffff, 0⟩]⟩  -- BEAT_MISS_COUNT
  , ⟨0x10018, 8, 1, .job, true, [⟨0, 0, 0, 0, 0⟩, ⟨0, 0, 0, 0, 0⟩]⟩  -- BEAT_MISS_LAST
  , ⟨0x10020, 4, 1, .tile, false, [⟨0xffff, 0, 0, 0, 0⟩]⟩  -- BEAT_ALIGN
  , ⟨0x570000, 4, 1, .tile, false, [⟨0xfffff07, 0, 0, 0, 0⟩]⟩  -- MEM_SPLIT
  , ⟨0x80000, 4, 256, .job, false, [⟨0xffffff, 0, 0, 0, 0⟩]⟩  -- TOBJ_VAL
  , ⟨0x80400, 4, 16, .job, false, [⟨0, 0xffffffff, 0, 0, 0⟩]⟩  -- TOBJ_FLAG
  , ⟨0x80800, 8, 1, .tile, true, [⟨0xffffffff, 0, 0, 0, 0⟩, ⟨0xffffffff, 0, 0, 0, 0⟩]⟩  -- BAR_ROOT
  , ⟨0x81000, 16, 64, .tile, false, [⟨0xffff7f, 0, 0, 0, 0x10000⟩]⟩  -- BAR_CFG
  , ⟨0x81004, 16, 64, .tile, false, [⟨0xffffff, 0, 0, 0, 0⟩]⟩  -- BAR_EXPECT
  , ⟨0x81008, 16, 64, .job, false, [⟨0, 0x10000, 0, 0, 0⟩]⟩  -- BAR_GEN
  , ⟨0x8100C, 16, 64, .job, false, [⟨0, 0, 0, 0, 0⟩]⟩  -- BAR_CNT
  , ⟨0x90000, 4, 1, .tile, false, [⟨1, 0, 0, 0, 0⟩]⟩  -- REDUCE_CTL
  , ⟨0x90010, 4, 1, .job, false, [⟨0, 0, 0, 0xffffffff, 0⟩]⟩  -- RED_DONE
  , ⟨0x90014, 4, 1, .job, false, [⟨0, 0, 0, 0xffffffff, 0⟩]⟩  -- RED_REPEAT
  ]

/-- The registers outside the cluster, queue and edge blocks, part 2. -/
def globalRows2 : List RegRow :=
  [ ⟨0x90018, 4, 1, .job, false, [⟨0, 0, 0, 0xffffffff, 0⟩]⟩  -- RED_ABANDON
  , ⟨0x9001C, 4, 1, .job, false, [⟨0, 0, 0, 0xffffffff, 0⟩]⟩  -- RED_RESIDUE
  , ⟨0x90020, 4, 1, .job, false, [⟨0, 0, 0, 0xffffffff, 0⟩]⟩  -- RED_STALE
  , ⟨0x90024, 4, 1, .job, false, [⟨0, 0, 0, 0xffffffff, 0⟩]⟩  -- RED_SAT
  , ⟨0x90028, 8, 1, .job, true, [⟨0, 0, 0, 0, 0⟩, ⟨0, 0, 0, 0, 0⟩]⟩  -- REDUCE_LAST
  , ⟨0x90120, 32, 12, .tile, false, [⟨0xffffff, 0, 0, 0, 0x8c4000⟩]⟩  -- REDUCE_GRP0
  , ⟨0x90124, 32, 12, .tile, false, [⟨0xffffffff, 0, 0, 0, 0x400000⟩]⟩  -- REDUCE_GRP1
  , ⟨0x90128, 32, 12, .tile, false, [⟨0x1fff1ff, 0, 0, 0, 0x1d8⟩]⟩  -- REDUCE_GRP2
  , ⟨0x90130, 32, 12, .tile, true, [⟨0xffffffff, 0, 0, 0, 0⟩, ⟨0xffff, 0, 0, 0, 0⟩]⟩  -- REDUCE_GRP45
  , ⟨0x90138, 32, 12, .job, false, [⟨0, 0, 0, 0, 0⟩]⟩  -- REDUCE_GST
  , ⟨0x10, 4, 1, .tile, false, [⟨0, 0, 0, 0, 0⟩]⟩  -- CHK_REASON
  , ⟨0x20, 4, 1, .tile, false, [⟨0, 0, 0xffffffff, 0, 0⟩]⟩  -- QDB
  , ⟨0x24, 4, 1, .tile, false, [⟨0, 0, 0, 0, 0⟩]⟩  -- Q_INFLIGHT
  , ⟨0x28, 4, 1, .tile, false, [⟨0, 0, 0, 0xffffffff, 0⟩]⟩  -- QDB_DROP
  , ⟨0x8, 4, 1, .tile, false, [⟨0, 0, 0, 0, 1⟩]⟩  -- TILE_STATE
  , ⟨0xC, 4, 1, .tile, false, [⟨1, 0, 0, 0, 0⟩]⟩  -- TILE_CTL
  , ⟨0x18, 4, 1, .job, false, [⟨0, 0, 0, 0, 0⟩]⟩  -- TILE_STEP
  , ⟨0x30000, 4, 1, .tile, false, [⟨0, 0x400, 0, 0, 0⟩]⟩  -- ERR_STATUS
  , ⟨0x30004, 4, 1, .tile, false, [⟨0, 0, 0, 0, 0⟩]⟩  -- ERR_TOTAL
  , ⟨0x30008, 4, 1, .tile, false, [⟨0xff037f, 0, 0, 0, 0x100300⟩]⟩  -- ERR_CFG
  ]

/-- The registers outside the cluster, queue and edge blocks, part 3. -/
def globalRows3 : List RegRow :=
  [ ⟨0x3000C, 4, 1, .job, false, [⟨0, 0, 0, 0, 0⟩]⟩  -- ERR_STEP
  , ⟨0x30010, 4, 1, .job, false, [⟨0, 0, 0, 0xffffffff, 0⟩]⟩  -- ERR_REPLAYS
  , ⟨0x30020, 4, 1, .tile, false, [⟨0xffffff, 0, 0, 0, 0x40000⟩]⟩  -- TILE_WDOG
  , ⟨0x38000, 32, 1024, .tile, false, List.replicate 8 ⟨0, 0, 0, 0, 0⟩⟩  -- ERR_LOG
  , ⟨0x10030, 8, 1, .por, true, [⟨0xffffffff, 0, 0, 0, 0⟩, ⟨0xffffffff, 0, 0, 0, 0⟩]⟩  -- TIME_NOW
  , ⟨0x10040, 16, 4, .por, false, [⟨0xd, 2, 0, 0, 0⟩]⟩  -- AON_CMP
  , ⟨0x10048, 16, 4, .por, true, [⟨0xffffffff, 0, 0, 0, 0⟩, ⟨0xffffffff, 0, 0, 0, 0⟩]⟩  -- AON_CMP_VAL
  , ⟨0x20000, 4, 1, .tile, false, [⟨0x7ff, 0, 0, 0, 0x70805dc⟩]⟩  -- PWR_CAP
  , ⟨0x20004, 4, 1, .tile, false, [⟨0xffff, 0, 0, 0, 0x404b⟩]⟩  -- PWR_LIM
  , ⟨0x20008, 4, 1, .tile, false, [⟨0, 0, 0, 0, 0⟩]⟩  -- PWR_NOW
  , ⟨0x2000C, 4, 1, .sticky, false, [⟨0, 6, 0, 0, 0⟩]⟩  -- PWR_STATUS
  , ⟨0x20010, 8, 1, .job, true, [⟨0, 0, 0, 0xffffffff, 0⟩, ⟨0, 0, 0, 0xffffffff, 0⟩]⟩  -- PWR_STRETCH
  , ⟨0x20018, 4, 1, .tile, false, [⟨0xf, 0, 0, 0, 0⟩]⟩  -- PWR_OP
  , ⟨0x2001C, 4, 1, .tile, false, [⟨0xff, 0, 0, 0, 0⟩]⟩  -- PWR_REGION
  , ⟨0x20020, 4, 1, .tile, false, [⟨0, 0, 1, 0, 0⟩]⟩  -- PWR_SLEEP
  , ⟨0x20024, 4, 1, .tile, false, [⟨0x1ff, 0, 0, 0, 0x128⟩]⟩  -- DROOP_CFG
  , ⟨0x20028, 8, 1, .job, true, [⟨0, 0, 0, 0xffffffff, 0⟩, ⟨0, 0, 0, 0xffffffff, 0⟩]⟩  -- DROOP_SKIP
  , ⟨0x20030, 4, 1, .job, false, [⟨0, 0xff, 0, 0, 0⟩]⟩  -- DROOP_TRIP
  , ⟨0x20100, 8, 16, .sticky, true, [⟨0, 0, 0, 0, 0⟩, ⟨0, 0, 0, 0, 0⟩]⟩  -- PWR_VF
  , ⟨0x20200, 8, 16, .tile, true, [⟨0, 0, 0, 0, 0⟩, ⟨0, 0, 0, 0, 0⟩]⟩  -- ENERGY_JOB
  ]

/-- The registers outside the cluster, queue and edge blocks, part 4. -/
def globalRows4 : List RegRow :=
  [ ⟨0x20300, 4, 1, .tile, false, [⟨0, 0, 0, 0, 0⟩]⟩  -- TEMP
  , ⟨0x508000, 256, 8, .tile, false, [⟨0, 0, 0, 0, 0⟩]⟩  -- VPORT_STATUS
  , ⟨0x508004, 256, 8, .job, false, [⟨0, 0, 0, 0xffffffff, 0⟩]⟩  -- VPORT_CRC
  , ⟨0x508008, 256, 8, .tile, false, [⟨3, 0, 4, 0, 0⟩]⟩  -- VPORT_LOOP
  , ⟨0x509000, 4, 1, .tile, false, [⟨0x7f, 0, 0, 0, 4⟩]⟩  -- LINK_BEAT
  , ⟨0x509004, 4, 1, .tile, false, [⟨0x7ff, 0, 0, 0, 0x480⟩]⟩  -- MEM_CFG
  , ⟨0x509010, 8, 1, .tile, true, [⟨0xffffffff, 0, 0, 0, 0xffffffff⟩, ⟨0xffffffff, 0, 0, 0, 0xffffffff⟩]⟩  -- LINK_ROUTE
  , ⟨0x580000, 8, 1, .sticky, true, [⟨0, 0, 0, 0, 0⟩, ⟨0, 0, 0, 0, 0⟩]⟩  -- SB_UID
  , ⟨0x580008, 4, 1, .por, false, [⟨0, 0, 0, 0, 0xff⟩]⟩  -- SB_ADDR
  , ⟨0x580010, 4, 1, .por, false, [⟨0, 0, 0, 0xffffffff, 0⟩]⟩  -- SB_RX_OK
  , ⟨0x580014, 4, 1, .por, false, [⟨0, 0, 0, 0xffffffff, 0⟩]⟩  -- SB_BAD
  , ⟨0x580018, 4, 1, .por, false, [⟨0, 0, 0, 0xffffffff, 0⟩]⟩  -- SB_RETRY
  , ⟨0x58001C, 4, 1, .por, false, [⟨0, 0, 0, 0xffffffff, 0⟩]⟩  -- SB_TX_FAIL
  , ⟨0x580020, 4, 1, .por, false, [⟨0, 0, 0, 0xffffffff, 0⟩]⟩  -- SB_TX_DROP
  , ⟨0x580024, 4, 1, .por, false, [⟨0, 0, 0, 0xffffffff, 0⟩]⟩  -- SB_ARB_LOST
  , ⟨0x580028, 4, 1, .por, false, [⟨0, 0, 0, 0xffffffff, 0⟩]⟩  -- SB_UNKNOWN
  , ⟨0x58002C, 4, 1, .por, false, [⟨0, 0, 0, 0xffffffff, 0⟩]⟩  -- SB_CONTEST
  , ⟨0x580040, 32, 1, .por, false, List.replicate 8 ⟨0, 0, 0, 0, 0⟩⟩  -- SB_ASSIGN
  , ⟨0x5C0000, 4, 1, .tile, false, [⟨0, 0, 0, 0, 0⟩]⟩  -- BOOT_STATUS
  , ⟨0x5C0004, 12, 1, .tile, false, List.replicate 3 ⟨0, 0, 0, 0, 0⟩⟩  -- FW_ID
  ]

/-- The registers outside the cluster, queue and edge blocks, part 5. -/
def globalRows5 : List RegRow :=
  [ ⟨0x5C0010, 48, 1, .tile, false, List.replicate 12 ⟨0, 0, 0, 0, 0⟩⟩  -- FW_DIGEST
  , ⟨0x5C0040, 4, 1, .sticky, false, [⟨0, 0, 0, 0, 0⟩]⟩  -- FUSE_SEC
  , ⟨0x5C0080, 96, 1, .sticky, false, List.replicate 24 ⟨0, 0, 0, 0, 0⟩⟩  -- ID_PUBKEY
  , ⟨0x5C00E0, 96, 1, .sticky, false, List.replicate 24 ⟨0, 0, 0, 0, 0⟩⟩  -- ID_CERT
  , ⟨0x5C0140, 4, 1, .tile, false, [⟨0, 0, 4, 0xffff0000, 0⟩]⟩  -- DBG_STATE
  , ⟨0x5C0144, 4, 1, .tile, false, [⟨0, 0, 0, 0, 0⟩]⟩  -- MON_CFG
  , ⟨0x5C0180, 4, 8, .tile, false, [⟨0, 0, 0, 0, 0⟩]⟩  -- RST_LOG
  , ⟨0x5C0200, 4, 32, .por, false, [⟨0, 0, 0, 0, 0⟩]⟩  -- BOOT_PEER
  ]

/-- The registers outside the cluster, queue and edge blocks. -/
def globalRows : List RegRow := globalRows1 ++ globalRows2 ++ globalRows3 ++ globalRows4 ++ globalRows5

/-- The registers of a cluster block, by offset in the block (R30), part 1. -/
def clusterRows1 : List RegRow :=
  [ ⟨0x0, 4, 1, .sticky, false, [⟨0, 0, 0, 0, 0⟩]⟩  -- CL_INFO
  , ⟨0x100, 16, 4, .job, false, [⟨0x1ffff, 0, 0, 0, 0⟩]⟩  -- SLOT_CFG
  , ⟨0x104, 16, 4, .job, false, [⟨0x7ffff0, 0, 0, 0, 0⟩]⟩  -- SLOT_TAB
  , ⟨0x108, 16, 4, .job, false, [⟨0, 0, 0, 0, 0⟩]⟩  -- SLOT_STATUS
  , ⟨0x10C, 16, 4, .job, false, [⟨0, 0, 0, 0xffffffff, 0⟩]⟩  -- SLOT_MISSES
  , ⟨0x180, 4, 1, .job, false, [⟨0x7ff000, 0, 0, 0, 0⟩]⟩  -- LINK_SCHED
  , ⟨0x140, 4, 1, .job, false, [⟨0x7ff, 0, 0, 0, 0⟩]⟩  -- BATCH_CFG
  , ⟨0x150, 4, 4, .job, false, [⟨0x7fffff, 0, 0, 0, 0⟩]⟩  -- BATCH_DESC
  , ⟨0x160, 4, 4, .job, false, [⟨0, 0, 0, 0, 0⟩]⟩  -- BATCH_STATUS
  , ⟨0x3000, 4, 1, .job, false, [⟨1, 0, 0, 0, 0⟩]⟩  -- NUM_CTL
  , ⟨0x3004, 4, 1, .job, false, [⟨0, 0xff, 0, 0, 0⟩]⟩  -- NUM_FLAGS
  , ⟨0x3100, 8, 16, .job, false, [⟨0, 0, 0, 0xffffffff, 0⟩]⟩  -- NUM_SAT
  , ⟨0x3104, 8, 16, .job, false, [⟨0, 0, 0, 0xffffffff, 0⟩]⟩  -- NUM_FLUSH
  , ⟨0x1000, 256, 4, .job, false, [⟨0, 0, 0, 0, 0⟩]⟩  -- ARR_STATUS
  , ⟨0x1004, 256, 4, .job, false, [⟨0, 0, 0, 0xffffffff, 0⟩]⟩  -- ARR_ROWS
  , ⟨0x1008, 256, 4, .job, false, [⟨0, 0, 0, 0xffffffff, 0⟩]⟩  -- ARR_CSROWS
  , ⟨0x100C, 256, 4, .job, false, [⟨0, 0, 0, 0xffffffff, 0⟩]⟩  -- ARR_DUMMY
  , ⟨0x1010, 256, 4, .job, false, [⟨0, 0, 0, 0xffffffff, 0⟩]⟩  -- ARR_CS_FAIL
  , ⟨0x1014, 256, 4, .job, false, [⟨0, 0, 0, 0xffffffff, 0⟩]⟩  -- ARR_CS_SKIP
  , ⟨0x1018, 256, 4, .job, false, [⟨0, 0, 0, 0xffffffff, 0⟩]⟩  -- ARR_GUARD
  ]

/-- The registers of a cluster block, by offset in the block (R30), part 2. -/
def clusterRows2 : List RegRow :=
  [ ⟨0x1020, 256, 4, .job, true, [⟨0, 0, 0, 0, 0⟩, ⟨0, 0, 0, 0, 0⟩]⟩  -- ARR_CS_LAST
  , ⟨0x1028, 256, 4, .tile, false, [⟨1, 0, 0, 0, 1⟩]⟩  -- ARR_CTL
  , ⟨0x2000, 256, 2, .job, false, [⟨0, 0, 0, 0, 0⟩]⟩  -- VE_STATUS
  , ⟨0x2004, 256, 2, .job, false, [⟨0, 0, 0, 0xffffffff, 0⟩]⟩  -- VE_OOR
  , ⟨0x2008, 256, 2, .job, false, [⟨0, 0, 0, 0xffffffff, 0⟩]⟩  -- VE_DUMMY
  , ⟨0x200C, 256, 2, .tile, false, [⟨1, 0, 0, 0, 1⟩]⟩  -- VE_CTL
  , ⟨0x2200, 4, 8, .job, false, [⟨0, 0, 0, 0, 0⟩]⟩  -- SLOT_VL
  , ⟨0x2800, 4, 1, .tile, false, [⟨0xfff, 0, 0, 0, 0⟩]⟩  -- VE_PSTORE_ADDR
  , ⟨0x2804, 4, 1, .tile, false, [⟨0xffffffff, 0, 0, 0, 0⟩]⟩  -- VE_PSTORE_DATA
  , ⟨0x4000, 64, 64, .job, false, [⟨0, 0, 0, 0, 0⟩]⟩  -- STR_STATE
  , ⟨0x4004, 64, 64, .job, false, [⟨0, 0, 0, 0, 0⟩]⟩  -- STR_NEXT
  , ⟨0x4008, 64, 64, .job, false, [⟨0, 0, 0, 0, 0⟩]⟩  -- STR_LIMIT
  , ⟨0x400C, 64, 64, .job, false, [⟨0, 0, 0, 0, 0⟩]⟩  -- STR_HOME
  , ⟨0x5000, 8, 1, .job, true, [⟨0, 0, 0, 0xffffffff, 0⟩, ⟨0, 0, 0, 0xffffffff, 0⟩]⟩  -- WASTED_FETCH_BYTES
  , ⟨0x5008, 4, 1, .job, false, [⟨0, 0, 0, 0xffffffff, 0⟩]⟩  -- FE_REFUSED
  , ⟨0x500C, 4, 1, .job, false, [⟨0, 0, 0, 0xffffffff, 0⟩]⟩  -- FE_MK_DROP
  , ⟨0x5010, 4, 1, .job, false, [⟨0, 1, 0, 0, 0⟩]⟩  -- FE_STATUS
  , ⟨0x6000, 4, 1024, .job, false, [⟨0, 0, 0, 0, 0⟩]⟩  -- LAND_STATE
  , ⟨0x7000, 4, 1, .job, false, [⟨0x1ffffff, 0, 0, 0, 0⟩]⟩  -- LAND_CFG
  , ⟨0x7004, 4, 1, .job, false, [⟨0x7ff, 0, 0, 0, 0⟩]⟩  -- LAND_NSLOT
  ]

/-- The registers of a cluster block, by offset in the block (R30), part 3. -/
def clusterRows3 : List RegRow :=
  [ ⟨0x7008, 4, 1, .job, false, [⟨0, 0, 1, 0, 0⟩]⟩  -- LAND_CTL
  , ⟨0x700C, 4, 1, .job, false, [⟨0, 0, 0, 0xffffffff, 0⟩]⟩  -- LAND_SEND_HELD
  , ⟨0x9000, 4, 32, .job, false, [⟨0, 0, 0, 0xffffffff, 0⟩]⟩  -- BANK_CONF
  , ⟨0x9100, 4, 1, .tile, false, [⟨0, 0, 0xffffffff, 0, 0⟩]⟩  -- BANK_OFF_REQ
  , ⟨0x9104, 4, 1, .tile, false, [⟨0, 0, 0xffffffff, 0, 0⟩]⟩  -- BANK_ON_REQ
  , ⟨0x9108, 4, 1, .tile, false, [⟨0, 0, 0, 0, 0⟩]⟩  -- BANK_PWR_LAST
  , ⟨0x9200, 4, 32, .tile, false, [⟨0, 0, 0, 0, 0⟩]⟩  -- BANK_STATE
  , ⟨0x8000, 4, 48, .job, false, [⟨0xffffff, 0, 0, 0, 0⟩]⟩  -- SYNC_VAL
  , ⟨0x80C0, 8, 1, .job, true, [⟨0, 0xffffffff, 0, 0, 0⟩, ⟨0, 0xffff, 0, 0, 0⟩]⟩  -- SYNC_OVF
  , ⟨0x80C8, 8, 1, .job, true, [⟨0, 0xffffffff, 0, 0, 0⟩, ⟨0, 0xffff, 0, 0, 0⟩]⟩  -- SYNC_UDF
  , ⟨0x8100, 4, 1, .tile, false, [⟨0xffff, 0, 0, 0, 0x100⟩]⟩  -- SYNC_TMO
  , ⟨0x8108, 8, 1, .job, true, [⟨0, 0, 0, 0, 0⟩, ⟨0, 0, 0, 0, 0⟩]⟩  -- SYNC_TMO_LAST
  , ⟨0x8110, 8, 1, .job, true, [⟨0xffffffff, 0, 0, 0, 0⟩, ⟨0xffff, 0, 0, 0, 0⟩]⟩  -- SYNC_REALIGN
  , ⟨0x8118, 8, 1, .job, true, [⟨0, 0xffffffff, 0, 0, 0⟩, ⟨0, 0xffff, 0, 0, 0⟩]⟩  -- SYNC_DRIFT
  , ⟨0x8200, 4, 48, .job, false, [⟨0x1ffffff, 0, 0, 0, 0⟩]⟩  -- SYNC_EXPECT
  , ⟨0x8400, 4, 8, .job, false, [⟨0xffffffff, 0, 0, 0, 0⟩]⟩  -- BAR_PART
  , ⟨0x8440, 4, 4, .job, false, [⟨0, 0, 0, 0, 0⟩]⟩  -- BAR_SLOT
  , ⟨0xA000, 4, 1, .job, false, [⟨0, 0, 0, 0, 0⟩]⟩  -- CL_ERR_STATUS
  , ⟨0xA004, 4, 1, .sticky, false, [⟨0, 0, 0, 0, 0⟩]⟩  -- CL_RETIRED
  , ⟨0xA008, 4, 1, .sticky, false, [⟨0, 0, 0, 0, 0⟩]⟩  -- CL_BANK_RET
  ]

/-- The registers of a cluster block, by offset in the block (R30), part 4. -/
def clusterRows4 : List RegRow :=
  [ ⟨0xA00C, 4, 1, .sticky, false, [⟨0, 0, 0, 0, 0xfe4⟩]⟩  -- CL_REDIRECT
  , ⟨0xA010, 4, 1, .job, false, [⟨0, 0, 0, 0xffffffff, 0⟩]⟩  -- CL_ERR_COUNT
  , ⟨0xA014, 4, 1, .job, false, [⟨0, 0, 0, 0xffffffff, 0⟩]⟩  -- CL_SRAM
  , ⟨0xA018, 8, 1, .job, true, [⟨0, 0, 0, 0, 0⟩, ⟨0, 0, 0, 0, 0⟩]⟩  -- CL_GUARD
  , ⟨0xA020, 4, 1, .job, false, [⟨0, 0, 0, 0xffffffff, 0⟩]⟩  -- CL_GUARD_TRIPS
  , ⟨0xA028, 4, 1, .tile, false, [⟨0xffffff, 0, 0, 0, 0x4000⟩]⟩  -- CL_WDOG
  ]

/-- The registers of a cluster block, by offset in the block (R30). -/
def clusterRows : List RegRow := clusterRows1 ++ clusterRows2 ++ clusterRows3 ++ clusterRows4

/-- The registers of a queue group, by offset in the group (R307). -/
def queueRows : List RegRow :=
  [ ⟨0x0, 4, 1, .tile, false, [⟨0xfffff, 0, 0, 0, 0⟩]⟩  -- QUEUE_CTL
  , ⟨0x4, 4, 1, .tile, false, [⟨0, 0, 0, 0, 0⟩]⟩  -- QUEUE_STATE
  , ⟨0x8, 4, 1, .tile, false, [⟨0xfffff000, 0, 0, 0, 0⟩]⟩  -- SQ_BASE_LO
  , ⟨0xC, 4, 1, .tile, false, [⟨0xfffff000, 0, 0, 0, 0⟩]⟩  -- CQ_BASE_LO
  , ⟨0x10, 4, 1, .tile, false, [⟨0xffffffff, 0, 0, 0, 0⟩]⟩  -- QBASE_HI
  , ⟨0x14, 4, 1, .tile, false, [⟨0, 0, 0, 0, 0⟩]⟩  -- SQ_PTR
  , ⟨0x18, 4, 1, .tile, false, [⟨0, 0, 0, 0, 0⟩]⟩  -- CQ_PTR
  , ⟨0x1C, 4, 1, .tile, false, [⟨0xffff, 0, 0, 0, 0⟩]⟩  -- QUEUE_SEQ
  ]

/-- The registers of an edge block, by offset in the block (R404). -/
def edgeRows : List RegRow :=
  [ ⟨0x0, 4, 1, .tile, false, [⟨0xff01, 0, 0, 0, 0x1000⟩]⟩  -- LINK_CTL
  , ⟨0x4, 4, 1, .tile, false, [⟨0, 0, 0, 0, 0⟩]⟩  -- LINK_STATUS
  , ⟨0x8, 8, 1, .tile, true, [⟨0, 0, 0, 0, 0⟩, ⟨0, 0, 0, 0, 0⟩]⟩  -- LINK_LANEMAP
  , ⟨0x10, 64, 1, .tile, false, List.replicate 16 ⟨0, 0, 0, 0, 0⟩⟩  -- LINK_PEER
  , ⟨0x50, 4, 1, .job, false, [⟨0, 0, 0, 0xffffffff, 0⟩]⟩  -- LINK_CRC_ERR
  , ⟨0x54, 4, 1, .job, false, [⟨0, 0, 0, 0xffffffff, 0⟩]⟩  -- LINK_FEC_CORR
  , ⟨0x58, 4, 1, .job, false, [⟨0, 0, 0, 0xffffffff, 0⟩]⟩  -- LINK_RETRY
  , ⟨0x5C, 4, 1, .job, false, [⟨0, 0, 0, 0xffffffff, 0⟩]⟩  -- LINK_DISCARD
  , ⟨0x100, 4, 16, .tile, false, [⟨0x7fff, 0, 0, 0, 0x400⟩]⟩  -- LINK_VCQ
  , ⟨0x200, 4, 1, .tile, false, [⟨3, 0, 4, 0, 0⟩]⟩  -- LINK_LOOP
  , ⟨0x208, 8, 1, .tile, true, [⟨0, 0, 0, 0, 0⟩, ⟨0, 0, 0, 0, 0⟩]⟩  -- LINK_LOOP_FAIL
  ]

/-- The word of a row at an offset: its index in the register, and its access codes. -/
def RegRow.at? (r : RegRow) (o : Nat) : Option (Nat × WordAcc) :=
  if o < r.base then none
  else if (o - r.base) / r.stride < r.count then
    (r.words[(o - r.base) % r.stride / 4]?).map fun w => ((o - r.base) % r.stride / 4, w)
  else none

/-- What the map holds of one word: scope, whether its register is a 64-bit one, its index in the register, its codes. -/
structure RegInfo where
  scope : Scope
  pair  : Bool
  idx   : Nat
  acc   : WordAcc
deriving DecidableEq, Repr

/-- The first row that holds an offset. -/
def findRow : List RegRow → Nat → Option RegInfo
  | [], _ => none
  | r :: t, o =>
    match r.at? o with
    | some (i, w) => some ⟨r.scope, r.pair, i, w⟩
    | none => findRow t o

/-- KIND of a site (R14): columns 3 and 4 are vector sites. -/
def isVector (s : Nat) : Bool := s % 8 == 3 || s % 8 == 4

/-- Banks of a site (R16). -/
def bankCount (s : Nat) : Nat := if isVector s then 16 else 32

/-- Slice size of a site in bytes (R16). -/
def sliceSize (s : Nat) : Nat := if isVector s then 0x400000 else 0x800000

/-- Offsets in a vector site's cluster block that no register occupies: the array range (R30), the batcher registers
(R55) and the banks beyond its 16 (R218). -/
def vectorAbsent (o : Nat) : Bool :=
  (0x1000 ≤ o && o < 0x2000) || (0x140 ≤ o && o < 0x180) ||
  (0x9040 ≤ o && o < 0x9080) || (0x9240 ≤ o && o < 0x9280)

/-- Offsets in a matrix site's cluster block that no register occupies: the registers of engine 1 and the VL1
registers (R181). -/
def matrixAbsent (o : Nat) : Bool :=
  (0x2100 ≤ o && o < 0x2200) || (0x2200 ≤ o && o < 0x2220 && o % 8 == 4)

/-- The register word at a control-space offset, none where no register stands (R9, R28 to R30). -/
def regInfo (o : Nat) : Option RegInfo :=
  if o % 4 ≠ 0 then none
  else if 0x100000 ≤ o && o < 0x500000 then
    if isVector ((o - 0x100000) / 0x10000) && vectorAbsent (o % 0x10000) then none
    else if !isVector ((o - 0x100000) / 0x10000) && matrixAbsent (o % 0x10000) then none
    else findRow clusterRows (o % 0x10000)
  else if 0x40000 ≤ o && o < 0x80000 then findRow queueRows (o % 32)
  else if 0x500000 ≤ o && o < 0x504000 then findRow edgeRows (o % 0x1000)
  else findRow globalRows o

/-- The columns of the matrix sites of a row (R14). -/
def matrixCols : List Nat := [0, 1, 2, 5, 6, 7]

/-- Column of the spare of a region. -/
def Dev.spare (d : Dev) (r : Nat) : Nat := d.spareCol.getD r 0

/-- Columns of M.(5r) to M.(5r + 4) at POR (R17). -/
def Dev.cols (d : Dev) (r : Nat) : List Nat := matrixCols.filter (· != d.spare r)

/-- `REGION_MAP[r]` at POR (R32). -/
def Dev.regionMap (d : Dev) (r : Nat) : Nat :=
  let c := d.cols r
  d.spare r + (if d.spareGood.getLsbD r then 8 else 2 ^ 23) + c.getD 0 0 * 2 ^ 4 + c.getD 1 0 * 2 ^ 7 + c.getD 2 0 * 2 ^ 10
    + c.getD 3 0 * 2 ^ 13 + c.getD 4 0 * 2 ^ 16 + d.spare r * 2 ^ 19

/-- Index of an element in a list. -/
def indexOf (l : List Nat) (a : Nat) : Nat := l.findIdx (· == a)

/-- `CL_INFO` of site `s` at POR (R17, R32). -/
def Dev.clInfo (d : Dev) (s : Nat) : Nat :=
  let r := s / 8
  let c := s % 8
  if isVector s then s + 2 ^ 6 + (2 * r + (c - 3)) * 2 ^ 8 + 2 ^ 14
  else if c = d.spare r then s + 2 ^ 16
  else s + (5 * r + indexOf (d.cols r) c) * 2 ^ 8 + 2 ^ 14

/-- 32-bit word `i` of a wide value, low word first (R5). -/
def wordOf (v : Nat) (i : Nat) : Nat := v / 2 ^ (32 * i) % 2 ^ 32

/-- Word `i`, in ascending order, of a byte string of `n` words kept most significant byte first (R421, R441): the bytes of the
string are laid at rising addresses. -/
def wordOfString (v : Nat) (n i : Nat) : Nat :=
  let w := v / 2 ^ (32 * (n - 1 - i)) % 2 ^ 32
  w / 2 ^ 24 + w / 2 ^ 16 % 256 * 2 ^ 8 + w / 2 ^ 8 % 256 * 2 ^ 16 + w % 256 * 2 ^ 24

/-- The reset value of a word (R13): the table's, and for fields from straps, fuses, the site or an index the value
these give. -/
def resetNat (d : Dev) (o : Nat) : Nat :=
  if o = Reg.TILE_ID then
    0x16002111 + d.tileSel.toNat * 2 ^ 16 + (if d.primarySel then 2 ^ 19 else 0)
  else if o = Reg.BEAT_CFG then 12 + (if d.primarySel then 2 ^ 12 else 0)
  else if 0x100 ≤ o && o < 0x120 then d.regionMap ((o - 0x100) / 4)
  else if 0x100000 ≤ o && o < 0x500000 && o % 0x10000 == 0 then d.clInfo ((o - 0x100000) / 0x10000)
  else if 0x10040 ≤ o && o < 0x10080 then
    (if o % 16 = 0 then (if o = 0x10060 then 4 else if o = 0x10070 then 5 else 9)
     else if o = 0x10048 then 105
     else if o = 0x10058 then 700
     else if o = 0x10068 || o = 0x1006C then 0xFFFFFFFF
     else 0)
  else if 0x20100 ≤ o && o < 0x20180 then wordOf (d.vf.getD ((o - 0x20100) / 8) 0).toNat (o / 4 % 2)
  else if o = Reg.SB_UID || o = Reg.SB_UID + 4 then wordOf d.uid.toNat (o / 4 % 2)
  else if o = Reg.FUSE_SEC then
    (if d.lifecycle then 1 else 0) + d.revoke.toNat * 2 + d.minSvn.toNat * 8
  else if 0x5C0080 ≤ o && o < 0x5C00E0 then wordOfString d.idPubkey.toNat 24 ((o - 0x5C0080) / 4)
  else if 0x5C00E0 ≤ o && o < 0x5C0140 then wordOfString d.idCert.toNat 24 ((o - 0x5C00E0) / 4)
  else if o = Reg.DBG_STATE then (if d.lifecycle then 0 else 1)
  else if 0x508000 ≤ o && o < 0x508800 && o % 0x100 == 0 then (o - 0x508000) / 0x100 * 2 ^ 16
  else
    match regInfo o with
    | some i => i.acc.rst
    | none => 0

/-- The reset word at an offset. -/
def resetWord (d : Dev) (o : Nat) : Word := BitVec.ofNat 32 (resetNat d o)

/-- The reset scope of the word at an offset. -/
def scopeOf (o : Nat) : Option Scope := (regInfo o).map (·.scope)

end Sys2Proof.Machine
end

