-- ==== Sys2Proof/Machine/Regs.lean ====
section
/-! DEFINITION. Registers as the tile itself reads and writes them: whole words, fields, 64-bit registers, counters.
The rules of control-space accesses (R7 to R12) stand in Machine/Control.lean. -/

namespace Sys2Proof.Machine

/-- The word with bits `lo .. lo + w - 1` replaced by the low bits of `v`. -/
def insBits (x : Word) (lo w v : Nat) : Word :=
  let m : Word := BitVec.ofNat 32 (2 ^ w - 1) <<< lo
  (x &&& ~~~m) ||| ((BitVec.ofNat 32 v <<< lo) &&& m)

/-- The word at a control-space offset. -/
def State.rd (s : State) (o : Nat) : Word := Store.get (resetWord s.dev o) s.regs o

/-- Set the word at a control-space offset. -/
def State.wr (s : State) (o : Nat) (v : Word) : State :=
  { s with regs := Store.putD (resetWord s.dev o) s.regs o v }

/-- The value of a field. -/
def State.fld (s : State) (f : Fld) : Nat := ((s.rd f.off).extractLsb' f.lo f.w).toNat

/-- Set a field to the low bits of a number. -/
def State.setFld (s : State) (f : Fld) (v : Nat) : State :=
  s.wr f.off (insBits (s.rd f.off) f.lo f.w v)

/-- A one-bit field as a truth value. -/
def State.flag (s : State) (f : Fld) : Bool := s.fld f != 0

/-- Set a one-bit field. -/
def State.setFlag (s : State) (f : Fld) (b : Bool) : State := s.setFld f b.toNat

/-- A 64-bit register, low half first (R12). -/
def State.rd64 (s : State) (o : Nat) : Nat := (s.rd o).toNat + (s.rd (o + 4)).toNat * 2 ^ 32

/-- Set a 64-bit register. -/
def State.wr64 (s : State) (o : Nat) (v : Nat) : State :=
  (s.wr o (BitVec.ofNat 32 v)).wr (o + 4) (BitVec.ofNat 32 (v / 2 ^ 32))

/-- Bits of a 64-bit register. -/
def State.fld64 (s : State) (o lo w : Nat) : Nat := s.rd64 o / 2 ^ lo % 2 ^ w

/-- Set bits of a 64-bit register. -/
def State.setFld64 (s : State) (o lo w v : Nat) : State :=
  let x := s.rd64 o
  s.wr64 o (x % 2 ^ lo + v % 2 ^ w * 2 ^ lo + x / 2 ^ (lo + w) * 2 ^ (lo + w))

/-- The words of a wide register, low word first. -/
def State.rdWide (s : State) (o : Nat) : Nat → Nat
  | 0 => 0
  | n + 1 => (s.rd o).toNat + State.rdWide s (o + 4) n * 2 ^ 32

/-- Set the words of a wide register, low word first. -/
def State.wrWide (s : State) (o : Nat) : Nat → Nat → State
  | 0, _ => s
  | n + 1, v => State.wrWide (s.wr o (BitVec.ofNat 32 v)) (o + 4) n (v / 2 ^ 32)

/-- Set the words of a register that holds a byte string (R421). -/
def State.wrString (s : State) (o : Nat) (n v : Nat) : State :=
  (List.range n).foldl (fun s i => s.wr (o + 4 * i) (BitVec.ofNat 32 (wordOfString v n i))) s

/-- Advance a counter that saturates at all ones (R6). -/
def State.count (s : State) (f : Fld) (n : Nat) : State :=
  s.setFld f (min (2 ^ f.w - 1) (s.fld f + n))

/-- Advance a 64-bit counter that saturates (R6). -/
def State.count64 (s : State) (o n : Nat) : State :=
  s.wr64 o (min (2 ^ 64 - 1) (s.rd64 o + n))

/-- Set bits of a word that hardware sets (R33). -/
def State.setBits (s : State) (o : Nat) (m : Nat) : State := s.wr o (s.rd o ||| BitVec.ofNat 32 m)

/-- Return every listed word that a rule names to its reset value. -/
def State.resetWhere (s : State) (p : Nat → Bool) : State :=
  { s with regs := s.regs.filter fun e => !p e.1 }

/-- Apply a change to every listed word that a rule names. -/
def State.mapRegs (s : State) (p : Nat → Bool) (f : Word → Word) : State :=
  (s.regs.filter fun e => p e.1).foldl (fun s e => s.wr e.1 (f (s.rd e.1))) s

/-! The registers that other operations read most. -/

/-- `TILE_STATE.STATE` (R310). -/
def State.ts (s : State) : Nat := s.fld Reg.TILE_STATE_STATE

/-- TILE_STATE values (R310). -/
abbrev tsOff : Nat := 0
abbrev tsAon : Nat := 1
abbrev tsBootRom : Nat := 2
abbrev tsMonitor : Nat := 3
abbrev tsFwReady : Nat := 4
abbrev tsJobLoaded : Nat := 5
abbrev tsRunning : Nat := 6
abbrev tsPaused : Nat := 7
abbrev tsRecovering : Nat := 8
abbrev tsFailed : Nat := 9

/-- `CL_INFO.ACTIVE` of a site (R30). -/
def State.active (s : State) (site : Nat) : Bool := s.flag (Reg.CL_INFO_ACTIVE site)

/-- A region whose power is off (R371). -/
def State.regionDown (s : State) (r : Nat) : Bool := (s.fld Reg.PWR_REGION_DOWN).testBit r

/-- A site whose units and slice are there: it carries a logical cluster and its region has power. -/
def State.live (s : State) (site : Nat) : Bool := s.active site && !s.regionDown (site / 8)

/-- Low 32 bits of `BEAT_COUNT`. -/
def State.beatLow (s : State) : Nat := (s.rd Reg.BEAT_COUNT).toNat

/-- `PWR_SLEEP.STATE` values (R372): AWAKE, ENTERING, ASLEEP, WAKING. -/
def State.sleep (s : State) : Nat := s.fld Reg.PWR_SLEEP_STATE

/-- The units outside the island can act: not OFF, the PLLs run, rails present (R373, R372, R452). -/
def State.alive (s : State) : Bool :=
  s.ts != tsOff && !s.clk.stopped && s.clk.refclk && s.sleep < 2

/-- The edges and the regulators' pair run: the tile is alive, or waking (R372). -/
def State.powered (s : State) : Bool :=
  s.alive || (s.ts != tsOff && s.sleep == 3 && !s.clk.stopped && s.clk.refclk)

/-- The tile runs code: BOOT_ROM or later, and its units can act. -/
def State.awake (s : State) : Bool := s.alive && tsBootRom ≤ s.ts

/-- Firmware runs: FW_READY or later (R310, R311). -/
def State.fw (s : State) : Bool := s.alive && tsFwReady ≤ s.ts

/-- Enter a tile state; PREV takes the state left, and `BEAT_CFG.LOCKED` shows RUNNING and PAUSED (R43). -/
def State.enter (s : State) (t : Nat) : State :=
  ((s.setFld Reg.TILE_STATE_PREV s.ts).setFld Reg.TILE_STATE_STATE t).setFlag Reg.BEAT_CFG_LOCKED (t == tsRunning || t == tsPaused)

/-- The Gulto address of unit `u` of a site of this tile (R25). -/
def State.unitAddr (s : State) (site u : Nat) : Nat :=
  u + site * 2 ^ 4 + s.fld Reg.TILE_ID_TILE_NUM * 2 ^ 10 + s.fld Reg.PKG_ID_PKG * 2 ^ 13

/-- The Gulto address of a tile agent of this tile (R25, R26). -/
def State.agentAddr (s : State) (a : Nat) : Nat :=
  a + s.fld Reg.TILE_ID_TILE_NUM * 2 ^ 10 + s.fld Reg.PKG_ID_PKG * 2 ^ 13 + 2 ^ 25

end Sys2Proof.Machine
end

