-- ==== Sys2Proof/Machine/Ops.lean ====
section
/-! DEFINITION. Named operations over memory, the error log and the sideband queue: bytes and numbers (R5), package memory with
its poison (R397, R398), the slices (R31), log entries (R355), frames to send (R410), Gulto messages to send. -/

namespace Sys2Proof.Machine

open Host (Cell)

/-! ## Bytes and numbers (R5) -/

/-- A little-endian number. -/
def leNat : List Byte → Nat
  | [] => 0
  | b :: t => b.toNat + 256 * leNat t

/-- The `n` bytes of a number, little-endian. -/
def leBytes : Nat → Nat → List Byte
  | 0, _ => []
  | n + 1, v => BitVec.ofNat 8 v :: leBytes n (v / 256)

/-- A byte string as a number, first byte most significant (R421). -/
def beNat (l : List Byte) : Nat := l.foldl (fun a b => a * 256 + b.toNat) 0

/-- A number as a byte string of `n` bytes, most significant first. -/
def beBytes (n v : Nat) : List Byte := (leBytes n v).reverse

/-- Bits `lo .. lo + w - 1` of a number. -/
def bits (v lo w : Nat) : Nat := v / 2 ^ lo % 2 ^ w

/-- A number as a two's-complement value of `w` bits. -/
def sext (v w : Nat) : Int :=
  if v % 2 ^ w < 2 ^ (w - 1) then (v % 2 ^ w : Nat) else ((v % 2 ^ w : Nat) : Int) - 2 ^ w

/-! ## Memories -/

/-- A byte of a memory; an unlisted one reads zero (log entry 4). -/
def memGet (m : List Cell) (a : Nat) : Byte := Store.get 0 m a

/-- Set a byte of a memory. -/
def memPut (m : List Cell) (a : Nat) (b : Byte) : List Cell := Store.putD 0 m a b

/-- `n` bytes from an address. -/
def memRead (m : List Cell) (a n : Nat) : List Byte := (List.range n).map fun i => memGet m (a + i)

/-- Write bytes from an address on. -/
def memWrite (m : List Cell) : Nat → List Byte → List Cell
  | _, [] => m
  | a, b :: t => memWrite (memPut m a b) (a + 1) t

/-- The canonical form of a memory: addresses strictly rising, no byte listed that reads as unlisted. -/
def memWf (m : List Cell) : Bool := Store.canon (0 : Byte) m

/-- Size M of package memory (R398). -/
def State.memSize (s : State) : Nat := s.fld Reg.MEM_CFG_NSTACK * 2 ^ s.fld Reg.MEM_CFG_STACK_LOG2

/-- The 64 B lines that a range touches. -/
def linesOf (a n : Nat) : List Nat :=
  if n = 0 then [] else (List.range ((a + n - 1) / 64 + 1 - a / 64)).map (· + a / 64)

/-- The first address of a range that lies in a poisoned line, if any (R397). -/
def State.poisonAt (s : State) (a n : Nat) : Option Nat :=
  ((linesOf a n).find? fun l => s.poison.contains l).map fun l => max a (64 * l)

/-- Read package memory (R397, R398). -/
def State.pkgRead (s : State) (a n : Nat) : List Byte := memRead s.pkgMem a n

/-- Whether a read returns poison: a poisoned line, or an address at or beyond M (R398). -/
def State.pkgBad (s : State) (a n : Nat) : Bool := (s.poisonAt a n).isSome || s.memSize < a + n

/-- The poison list after a write (R397): a line written whole is clean; a line written in part stays as it was. -/
def poisonAfterWrite (p : List Nat) (a n : Nat) : List Nat :=
  p.filter fun l => !(decide (a ≤ 64 * l) && decide (64 * l + 64 ≤ a + n))

/-- Write package memory (R397, R398): the bytes at or beyond M are not sent. -/
def State.pkgWrite (s : State) (a : Nat) (bs : List Byte) : State :=
  let l := bs.take (s.memSize - a)
  { s with pkgMem := memWrite s.pkgMem a l, poison := poisonAfterWrite s.poison a l.length }

/-- Whether a write is acknowledged with poison (R397, R398). -/
def State.pkgWriteBad (s : State) (a n : Nat) : Bool :=
  decide (s.memSize < a + n) || (poisonAfterWrite s.poison a n).any fun l => (linesOf a n).contains l

/-- Poison the lines of a range. -/
def State.pkgPoison (s : State) (a n : Nat) : State :=
  { s with poison := s.poison ++ (linesOf a n).filter fun l => !s.poison.contains l }

/-- The cluster of a site. -/
def State.cl (s : State) (site : Nat) : Cluster := Store.get {} s.clusters site

/-- Replace the cluster of a site. -/
def State.setCl (s : State) (site : Nat) (c : Cluster) : State :=
  { s with clusters := Store.put s.clusters site c }

/-- Change the cluster of a site. -/
def State.modCl (s : State) (site : Nat) (f : Cluster → Cluster) : State := s.setCl site (f (s.cl site))

/-- Bytes of a slice. -/
def State.sliceBytes (s : State) (site a n : Nat) : List Byte := memRead (s.cl site).slice a n

/-! ## The error log (R355) -/

/-- What an entry holds beside the tile's own beat, step and attempt. -/
structure Entry where
  cls     : Nat
  action  : Nat := 0
  test    : Nat := 0
  slot    : Nat := 0
  reason  : Nat := 0
  source  : Nat := 0
  block   : Nat := 0
  context : Nat := 0
  landing : Bool := false
  detail  : Nat := 0
  /-- BEAT, STEP and ATTEMPT at detection, when the entry is written later than that. -/
  at_     : Option (Nat × Nat × Nat) := none
deriving DecidableEq, Repr

/-- The 32 B of an entry as a number (R355). -/
def Entry.pack (e : Entry) (beat step attempt : Nat) : Nat :=
  let p := e.at_.getD (beat, step, attempt)
  e.cls % 2 ^ 8 + e.action % 2 ^ 3 * 2 ^ 8 + e.test % 4 * 2 ^ 11 + e.slot % 4 * 2 ^ 13 + e.reason % 2 ^ 16 * 2 ^ 16
    + e.source % 2 ^ 32 * 2 ^ 32 + p.1 % 2 ^ 32 * 2 ^ 64 + e.block % 2 ^ 32 * 2 ^ 96 + p.2.1 % 2 ^ 32 * 2 ^ 128
    + p.2.2 % 4 * 2 ^ 160 + e.context % 2 ^ 6 * 2 ^ 162 + e.landing.toNat * 2 ^ 168 + e.detail % 2 ^ 64 * 2 ^ 192

/-- Write an entry at WR_IDX and advance it (R355). -/
def State.log (s : State) (e : Entry) : State :=
  let i := s.fld Reg.ERR_STATUS_WR_IDX
  let v := e.pack s.beatLow (s.rd Reg.TILE_STEP).toNat (s.fld Reg.ERR_STEP_ATTEMPT)
  let s1 := s.wrWide (Reg.ERR_LOG i) 8 v
  let s2 := if 1024 ≤ (s.rd Reg.ERR_TOTAL).toNat then s1.setFlag Reg.ERR_STATUS_WRAPPED true else s1
  let s3 := s2.setFld Reg.ERR_STATUS_WR_IDX (i + 1)
  let s4 := s3.setFld Reg.ERR_STATUS_LAST_CLASS e.cls
  let s5 := s4.setFld Reg.ERR_STATUS_LAST_ACTION e.action
  s5.count Reg.ERR_TOTAL_COUNT 1

/-- Log an event (R334): ACTION 0, charged to no block. -/
def State.logEvent (s : State) (cls reason source detail : Nat) : State :=
  s.log { cls := cls, reason := reason, source := source, detail := detail }

/-! ## Frames and messages to send -/

/-- Queue a sideband frame (R410): at most four wait; an alert whose cause already waits is not queued again. -/
def State.sbQueue (s : State) (f : TxFrame) : State :=
  if f.cause != 0 && s.sb.txq.any (fun g => g.cause == f.cause) then s
  else if 4 ≤ s.sb.txq.length then s.count Reg.SB_TX_DROP_COUNT 1
  else { s with sb := { s.sb with txq := s.sb.txq ++ [f] } }

/-- Send a HEALTH_ALERT to the package controller (R413) for a cause: a reason code or 0xFF00 + n. -/
def State.alert (s : State) (cause : Nat) : State :=
  s.sbQueue { prio := 1, ty := 0x40, dst := 0, cause := cause,
              payload := leBytes 2 cause ++ [BitVec.ofNat 8 s.ts, BitVec.ofNat 8 (s.fld Reg.TEMP_TJ_MAX)] }

/-- The state of an edge. -/
def State.edge (s : State) (e : Nat) : EdgeSt := Store.get {} s.edges e

/-- Change the state of an edge. -/
def State.modEdge (s : State) (e : Nat) (f : EdgeSt → EdgeSt) : State :=
  { s with edges := Store.put s.edges e (f (s.edge e)) }

/-- A command takes the first received symbol of an edge that it names, where one waits; else it comes from outside the model. -/
def State.takeSym (s : State) (e : Nat) (p : Word → Bool) : State :=
  if e < 4 then s.modEdge e fun x => { x with rsym := x.rsym.eraseP p } else s

/-- An edge in service: UP or DEGRADED. -/
def State.edgeUp (s : State) (e : Nat) : Bool :=
  s.fld (Reg.LINK_STATUS_STATE e) == 2 || s.fld (Reg.LINK_STATUS_STATE e) == 3

/-- Where a message to a Gulto address leaves this tile (R390, R425). -/
inductive Route where
  | self
  | edge (e : Nat)
  | vport
  | none
deriving DecidableEq, Repr

/-- A route code of `LINK_ROUTE` (R404). -/
def routeOf (c : Nat) : Route :=
  if c < 4 then .edge c else if c = 4 then .vport else if c = 5 then .self else .none

/-- The route to a Gulto address (R25, R390); in BOOT_ROM and MONITOR everything leaves on the boot edge (R425). -/
def State.route (s : State) (a : Nat) : Route :=
  if s.ts = tsBootRom ∨ s.ts = tsMonitor then .edge s.dev.bootEdge.toNat
  else
    let die := bits a 10 3
    let foreignDie := bits a 26 1 == 1
    if bits a 13 12 ≠ s.fld Reg.PKG_ID_PKG then
      let x := s.fld64 Reg.LINK_ROUTE 60 4
      if 7 ≤ x then .none else routeOf (s.fld64 Reg.LINK_ROUTE (32 + 4 * x) 4)
    else if foreignDie then
      if die = 7 then .none else routeOf (s.fld64 Reg.LINK_ROUTE (32 + 4 * die) 4)
    else if die = s.fld Reg.TILE_ID_TILE_NUM then .self
    else routeOf (s.fld64 Reg.LINK_ROUTE (4 * die) 4)

/-- The partner's VCHS (R394): 1 where it sent no descriptor. -/
def State.peerVchs (s : State) (e : Nat) : Nat :=
  if s.flag (Reg.LINK_STATUS_CAP_DEFAULT e) then 1 else bits (s.rdWide (Reg.LINK_PEER e) 16) 40 5

/-- A bit of the partner's descriptor on an edge (R393). -/
def State.peerBit (s : State) (e k : Nat) : Bool := (s.rdWide (Reg.LINK_PEER e) 16).testBit k

/-- A message with the reserved bits of its destination zero, as the tile sends it (R25). -/
def plainMsg (m : GMsg) : GMsg := { m with dst := m.dst &&& 0x07FFFFFF#32 }

/-- Queue a message on an edge (R388, R394): discarded and logged where the channel is at or beyond the partner's VCHS, and a RED message where
the partner does not advertise REDUCE (log entry 103). -/
def State.edgeSend (s : State) (e : Nat) (m : GMsg) : State :=
  if (s.edge e).peer && (decide (s.peerVchs e ≤ m.vch.val) || (m.ty == 8 && !s.peerBit e 49)) then
    (s.count (Reg.LINK_DISCARD_COUNT e) 1).logEvent 0x21 0x0305 (s.agentAddr (0x10 + e)) m.dst.toNat
  else s.modEdge e fun x => { x with out := x.out ++ [plainMsg m] }

/-- Units that a site has (R15). -/
def unitAt (site u : Nat) : Bool :=
  if isVector site then u == 0 || (decide (5 ≤ u) && decide (u ≤ 11)) else decide (u ≤ 10) && u != 6

/-- Queue on an edge a message that a cluster sent; one of a transfer is remembered as such. -/
def State.edgeSendOf (s : State) (e : Nat) (m : NMsg) : State :=
  let s1 := s.edgeSend e m.msg
  match m.xfer with
  | some x => if (s1.edge e).out.length = (s.edge e).out.length then s1
    else s1.modEdge e fun y => { y with routed := y.routed ++ [(plainMsg m.msg, x)] }
  | none => s1

/-- Agents of a tile (R26). -/
def agentKnown (a : Nat) : Bool := decide (a ≤ 4) || (decide (0x10 ≤ a) && decide (a ≤ 0x13)) || (decide (0x18 ≤ a) && decide (a ≤ 0x1F))

/-- An address names this tile, in whatever state it is (R25). -/
def State.toMe (s : State) (d : Nat) : Bool :=
  bits d 26 1 == 0 && bits d 13 12 == s.fld Reg.PKG_ID_PKG && bits d 10 3 == s.fld Reg.TILE_ID_TILE_NUM

/-- A message to a reserved agent of this tile, or to a unit absent from its site's kind (R26). A CAP has no destination. -/
def State.nobody (s : State) (m : GMsg) : Bool :=
  let d := m.dst.toNat
  s.toMe d && m.ty != 9
    && (if bits d 25 1 = 1 then !agentKnown (bits d 0 10) else !unitAt (bits d 4 6) (bits d 0 4))

/-- A message for this tile is delivered where it is sent; one for nobody is discarded and logged (R26). -/
def State.deliverHere (s : State) (m : GMsg) : State :=
  if s.nobody m then s.logEvent 0x21 0 (s.agentAddr 0) m.dst.toNat else { s with inbox := s.inbox ++ [plainMsg m] }

/-- A message whose route is none is discarded at its sender (R390); a signal with reason 0x0807 and its reference, as it names an absent
tile (R221). -/
def State.noRoute (s : State) (m : GMsg) : State :=
  if m.ty = 6 then s.logEvent 0x21 0x0807 (s.agentAddr 0) (m.dst.toNat + bits m.aux.toNat 0 16 * 2 ^ 32)
  else s.logEvent 0x21 0 (s.agentAddr 0) m.dst.toNat

/-- Send a message over the link that its route names (R390, R394): discarded and logged where the route is none. -/
def State.send (s : State) (m : GMsg) : State :=
  match s.route m.dst.toNat with
  | .self => s.deliverHere m
  | .vport => { s with vpOut := s.vpOut ++ [plainMsg m] }
  | .none => s.noRoute m
  | .edge e => s.edgeSend e m

/-! ## Vertical ports (R398) -/

/-- The port that an access to a package address takes. -/
def State.portOf (s : State) (a : Nat) : Nat := s.fld (Reg.VPORT_STATUS_REMAP (a / 4096 % 8))

/-- REMAP follows the ports' states: a port that is not UP, and not under self-test, hands its granules to the next higher one that is,
modulo 8; with none each port shows itself (log entry 91). -/
def State.showRemap (s : State) : State :=
  let carrier (p : Nat) : Nat := (((List.range 8).map fun k => (p + k) % 8).find? fun q => s.fld (Reg.VPORT_STATUS_STATE q) == 1 || s.tile.portTest.getLsbD q).getD p
  (List.range 8).foldl (fun t p => t.setFld (Reg.VPORT_STATUS_REMAP p) (carrier p)) s

end Sys2Proof.Machine
end

