-- ==== Sys2Proof/Machine/Replies.lean ====
section
/-! DEFINITION. Commands in flight and their replies (R294 to R300), the ends of queue states (R301), and the lines that the serial monitor
prints (R436). -/

namespace Sys2Proof.Machine

/-! ## Lines of the serial monitor (R436) -/

/-- `n` hexadecimal digits of a number, most significant first. -/
def hexChars : Nat → Nat → List Char
  | 0, _ => []
  | n + 1, v => hexChars n (v / 16) ++ [("0123456789ABCDEF".toList.getD (v % 16) '0')]

def hexText (n v : Nat) : String := String.ofList (hexChars n v)

/-- Print lines, each ended by CR LF. -/
def State.print (s : State) (l : List String) : State := { s with mon := { s.mon with out := s.mon.out ++ l.map fun x => x ++ "\r\n" } }

/-- The last line of a reply, and the prompt. -/
def State.sayEnd (s : State) (x : String) : State :=
  let s1 := s.print [x]
  { s1 with mon := { s1.mon with out := s1.mon.out ++ ["> "] } }
def State.sayOk (s : State) : State := s.sayEnd "ok"
def State.sayErr (s : State) (reason : Nat) : State := s.sayEnd ("err 0x" ++ hexText 4 reason)

/-- Who a check or a move of the monitor's poke answers, in the place of a queue and a sequence number. -/
def monStarter : Nat × Nat := (2 ^ 16, 0)

/-! ## Replies -/

/-- Status codes (R300). -/
abbrev stOk : Nat := 0
abbrev stRefusedState : Nat := 1
abbrev stRefusedConfig : Nat := 2
abbrev stInvalid : Nat := 3
abbrev stFaultRecovered : Nat := 4
abbrev stFaultAbandoned : Nat := 5
abbrev stTimeout : Nat := 6
abbrev stCancelled : Nat := 7

/-- Entries of a queue's command ring and of its completion ring (R285). -/
def State.sqEntries (s : State) (q : Nat) : Nat := 2 ^ s.fld (Reg.QUEUE_CTL_LOG2_SQ q)
def State.cqEntries (s : State) (q : Nat) : Nat := 2 ^ s.fld (Reg.QUEUE_CTL_LOG2_CQ q)

/-- Ring bases (R307). -/
def State.sqBase (s : State) (q : Nat) : Nat :=
  s.fld (Reg.SQ_BASE_LO_ADDR q) * 4096 + s.fld (Reg.QBASE_HI_SQ_HI q) * 2 ^ 32
def State.cqBase (s : State) (q : Nat) : Nat :=
  s.fld (Reg.CQ_BASE_LO_ADDR q) * 4096 + s.fld (Reg.QBASE_HI_CQ_HI q) * 2 ^ 32

/-- The phase of a queue's completion ring (R298). -/
def State.qst (s : State) (q : Nat) : QSt := Store.get {} s.queues q

/-- Whether a reply of this status halts a queue whose command has HALT_ON_ERR (R299). -/
def haltsOn (status : Nat) : Bool :=
  status == stRefusedState || status == stRefusedConfig || status == stInvalid || status == stFaultAbandoned
    || status == stTimeout

/-- Put a queue into ERROR (R292, R293, R299): only an ENABLED queue changes state. -/
def State.queueError (s : State) (q reason : Nat) : State :=
  let s1 := s.setFld (Reg.QUEUE_STATE_REASON q) reason
  if s.fld (Reg.QUEUE_STATE_STATE q) = 2 then s1.setFld (Reg.QUEUE_STATE_STATE q) 4 else s1

/-- An invalid doorbell puts its queue into ERROR, a DRAINING one too (R290; R301 lists ENABLED alone, log entry 62). -/
def State.doorbellError (s : State) (q reason : Nat) : State :=
  (s.setFld (Reg.QUEUE_STATE_REASON q) reason).setFld (Reg.QUEUE_STATE_STATE q) 4

/-- The 32 B of a reply (R298). -/
def replyBits (tag status reason seq queue head jobId detail : Nat) (phase : Bool) : Nat :=
  tag % 2 ^ 16 + status % 2 ^ 8 * 2 ^ 16 + phase.toNat * 2 ^ 24 + reason % 2 ^ 16 * 2 ^ 32 + seq % 2 ^ 16 * 2 ^ 48
    + queue % 2 ^ 13 * 2 ^ 64 + head % 2 ^ 16 * 2 ^ 80 + jobId % 2 ^ 16 * 2 ^ 96 + detail % 2 ^ 128 * 2 ^ 128

/-- Write a reply at completion-ring TAIL and advance TAIL; PHASE toggles at the wrap (R298). -/
def State.writeReply (s : State) (q : Nat) (tag status reason seq head jobId detail : Nat) : State :=
  let t := s.fld (Reg.CQ_PTR_TAIL q)
  let ph := (s.qst q).phase
  let s1 := s.pkgWrite (s.cqBase q + 32 * t) (leBytes 32 (replyBits tag status reason seq q head jobId detail ph))
  let t' := (t + 1) % s.cqEntries q
  let s2 := s1.setFld (Reg.CQ_PTR_TAIL q) t'
  if t' = 0 then { s2 with queues := Store.put s2.queues q { phase := !ph } } else s2

/-- A DRAINING queue whose OUTST is 0 becomes DISABLED (R301). -/
def State.drainEnd (s : State) (q : Nat) : State :=
  if s.fld (Reg.QUEUE_STATE_STATE q) = 3 ∧ s.fld (Reg.QUEUE_STATE_OUTST q) = 0 then
    s.setFld (Reg.QUEUE_STATE_STATE q) 0
  else s

/-- The REG_WRITE that runs with a SEQ. -/
def State.regWriteOf (s : State) (q seq : Nat) : Option Flight :=
  s.flights.find? fun f => f.queue == q && f.seq == seq && f.opcode == 0x03 && f.phase == .running

/-- Two records of one command in flight. -/
def Flight.same (f g : Flight) : Bool := g.queue == f.queue && g.seq == f.seq && g.lap == f.lap

/-- Replace a command in flight. -/
def State.setFlight (s : State) (f : Flight) : State :=
  { s with flights := s.flights.map fun g => if f.same g then f else g }

/-- Complete a command: its reply is written, it is no longer in flight, and HALT_ON_ERR may stop its queue
(R294, R298, R299). -/
def State.complete (s : State) (f : Flight) (status reason detail : Nat) : State :=
  let s1 := s.writeReply f.queue f.tag status reason f.seq f.head f.jobId detail
  let s2 := { s1 with flights := s1.flights.filter fun g => !f.same g }
  let s3 := s2.setFld (Reg.QUEUE_STATE_OUTST f.queue) (s2.fld (Reg.QUEUE_STATE_OUTST f.queue) - 1)
  let s4 := s3.setFld Reg.Q_INFLIGHT_COUNT (s3.fld Reg.Q_INFLIGHT_COUNT - 1)
  let s5 := if f.halt && haltsOn status then s4.queueError f.queue reason else s4
  s5.drainEnd f.queue

/-- Bits of a command's PARAM (R315). -/
def Flight.p (f : Flight) (lo w : Nat) : Nat := bits f.param lo w

/-- Serial opcodes (R312). -/
def serialOp (o : Nat) : Bool :=
  o == 0x10 || o == 0x11 || o == 0x12 || o == 0x13 || o == 0x14 || o == 0x40 || o == 0x51 || o == 0x52 || o == 0x72

/-- Opcodes that a FAILED tile allows (R312). -/
def legalInFailed (o : Nat) : Bool :=
  o == 0x00 || o == 0x01 || o == 0x02 || o == 0x03 || o == 0x32 || o == 0x50 || o == 0x51 || o == 0x60 || o == 0x61
    || o == 0x70 || o == 0x71 || o == 0x72

/-- Complete every command that a rule names, in fetch order. -/
def State.completeWhere (s : State) (p : Flight → Bool) (status reason : Nat) : State :=
  (s.flights.filter p).foldl (fun s f => s.complete f status reason 0) s

/-- Send BOOT_STATUS (R413, R424): to 0x08 and 0x00; a primary sends it only to 0x00. -/
def State.sendBootStatus (s : State) : State :=
  let f (dst : Byte) : TxFrame := { prio := 1, ty := 0x12, dst := dst, payload := [BitVec.ofNat 8 s.ts] }
  if s.flag Reg.TILE_ID_PRIMARY && !s.flag Reg.SB_ADDR_PRIMARY_LOST then s.sbQueue (f 0)
  else (s.sbQueue (f 0x08)).sbQueue (f 0)

/-- Enter FAILED (R310, R311): commands not legal there complete FAULT_ABANDONED, reason 0x0217, a pause among them;
BOOT_STATUS is sent. -/
def State.enterFailed (s : State) (reason : Nat) : State :=
  let s0 := ((s.enter tsFailed).setFld Reg.TILE_STATE_REASON reason).setFlag Reg.TILE_STATE_PAUSE_PENDING false
  let s1 := { s0 with job := { s0.job with pauseAt := none, pausing := false } }
  (s1.completeWhere (fun f => !legalInFailed f.opcode) stFaultAbandoned 0x0217).sendBootStatus

/-- Escalation reaches the tile level (R310): from RUNNING, PAUSED or RECOVERING. -/
def State.fail (s : State) (reason : Nat) : State :=
  if s.ts = tsFailed ∨ s.ts < tsRunning then s else s.enterFailed reason

end Sys2Proof.Machine
end

