-- ==== Sys2Proof/Machine/Reset.lean ====
section
/-! DEFINITION. The resets of R13: POR, TILE reset, JOB reset, and what a region or the whole mesh loses with its rails. -/

namespace Sys2Proof.Machine

/-- The word at an offset has a reset scope. -/
def hasScope (k : Scope) (o : Nat) : Bool := scopeOf o == some k

/-- Every site. -/
def allSites : List Nat := List.range 64

/-- The status of retired arrays after their registers were reset (R151): STATE 5. -/
def State.showRetired (s : State) : State :=
  (s.clusters.map fun p : Nat × Cluster => p.1).foldl (fun s site =>
    (List.range 4).foldl (fun s a =>
      if (s.fld (Reg.CL_RETIRED_UNITS site)).testBit (a + 1) then s.setFld (Reg.ARR_STATUS_STATE site a) 5 else s) s) s

/-- JOB reset (R13): every JOB-scope field and every counter of synchronisation at its reset value (R219), registers and
accumulators of the clusters cleared (R45, R133, R154); no transfer is left to write a bank. -/
def State.jobReset (s : State) : State :=
  let s1 := (s.resetWhere (hasScope .job)).mapRegs
    (fun o => decide (0x100000 ≤ o) && decide (o < 0x500000) && decide (0x9200 ≤ o % 0x10000) && decide (o % 0x10000 < 0x9280))
    (fun w => insBits w 2 14 0)
  let s2 := { s1 with
    clusters := s1.clusters.map fun p : Nat × Cluster => (p.1, p.2.jobReset)
    beat := {}
    clk := { s1.clk with aclk := 0, aclkRem := 0, idle := 0 }
    job := { stopping := false }
    tile := s1.tile.jobReset }
  s2.showRetired

/-- What a TILE reset leaves of the state that no register shows: the island's, the slices, package memory. -/
def State.dropTile (s : State) : State :=
  { s with
    rdHold := [], wrHold := []
    clusters := s.clusters.map fun p : Nat × Cluster => (p.1, p.2.tileReset)
    pwr := { regTx := s.pwr.regTx, rails := s.pwr.rails, vddAon := s.pwr.vddAon }
    clk := { s.clk with stopped := false, aclk := 0, aclkRem := 0, idle := 0, odd := false }
    beat := {}
    sb := { s.sb with phase := .idle }
    boot := {}, mon := {}, job := {}, flights := [], served := [], queues := [], checks := []
    edges := [], inbox := [], vpOut := [], tile := {} }

/-- TILE reset (R13, R36, R423): TILE- and JOB-scope fields return to their reset values; the tile waits in AON. MASTER
takes PRIMARY, and is clear while SB_ADDR shows that the claim of 0x08 failed; TEMP reads 0, by which comparator 0 goes (R374). -/
def State.tileReset (s : State) : State :=
  let s1 := (s.resetWhere fun o => hasScope .tile o || hasScope .job o).dropTile
  let s2 := if s1.flag Reg.SB_ADDR_PRIMARY_LOST then s1.setFlag Reg.BEAT_CFG_MASTER false else s1
  (s2.setFlag (Reg.AON_CMP_COND 0) (decide (sext (s2.rd64 (Reg.AON_CMP_VAL 0) % 2 ^ 8) 8 ≤ 0))).showRetired

/-- The candidates of an address claim (R412). -/
def claimCands (primary : Bool) (tile : Nat) : List Nat :=
  (if primary then [0x08] else []) ++ (List.range 29).map fun j => 0x10 + tile + 8 * j

/-- POR (R13, R412, R419, R455): every field at its reset value, straps sampled, the candidates of the address claim
listed; in stand-alone test mode the tile claims only if `SB_CLK` runs. -/
def State.por (s : State) (st : Straps) : State :=
  { dev := { s.dev with
      primarySel := st.primarySel, tileSel := st.tileSel, bootEdge := st.bootEdge, testMode := st.testMode
      sbClk := st.sbClk, aonClk := st.aonClk }
    sb := { cands := if st.testMode && !st.sbClk then [] else claimCands st.primarySel st.tileSel.toNat }
    pending := s.pending, pkgMem := s.pkgMem, poison := s.poison, free := s.free }

/-- VDD_AON falls (R310): OFF. -/
def State.off (s : State) : State :=
  ({ dev := s.dev, pending := s.pending, pkgMem := s.pkgMem, poison := s.poison, free := s.free } : State).setFld
    Reg.TILE_STATE_STATE tsOff

/-- What the clusters lose when rails 0..3 go (R372, R375): slices, stores and units. -/
def State.dropMesh (s : State) : State := { s with clusters := [] }

end Sys2Proof.Machine
end

