-- ==== Sys2Proof/Machine/Power.lean ====
section
/-! DEFINITION. Power, limits and the always-on island (R357 to R376): regulator frames, operating points, limiter, droop,
energy, regions, sleep, time, comparators, trips; and POR and the clocks (R310, R373, R452). -/

namespace Sys2Proof.Machine

/-! ## The regulator channel (R359, R360) -/

/-- One bit of CRC-8 with polynomial 0x07. -/
def crc8Step (c : BitVec 8) (b : Bool) : BitVec 8 :=
  if c.msb != b then (c <<< 1) ^^^ 0x07#8 else c <<< 1

/-- CRC-8 of the 32 bits of a frame in the order sent, bit 0 first (R359). -/
def crc8 (v : BitVec 32) : BitVec 8 := (List.range 32).foldl (fun c i => crc8Step c (v.getLsbD i)) 0

/-- The 40 bits of a regulator frame (R359). -/
def regFrame (ty rail payload : Nat) : BitVec 40 :=
  let v : BitVec 32 := BitVec.ofNat 32 (ty % 16 + rail % 8 * 16 + payload % 2 ^ 24 * 256)
  (crc8 v) ++ v

/-- The rail and the payload of a frame. -/
def regRail (f : BitVec 40) : Nat := bits f.toNat 4 3
def regPay (f : BitVec 40) : Nat := bits f.toNat 8 24

/-- A frame arrives whole and is of a type; a frame whose CRC fails, or of another type, is discarded (R359, R360). -/
def regTakes (f : BitVec 40) (ty : Nat) : Bool := f.extractLsb' 32 8 == crc8 (f.setWidth 32) && f.toNat % 16 == ty

/-- Send a frame to the regulators. -/
def State.regSend (s : State) (ty rail payload : Nat) : State :=
  { s with pwr := { s.pwr with regTx := s.pwr.regTx ++ [regFrame ty rail payload] } }

/-! ## Operating points (R358, R361) -/

/-- Fields of `PWR_VF[p]`. -/
def State.vfFreq (s : State) (p : Nat) : Nat := s.fld64 (Reg.PWR_VF p) 0 12
def State.vfValid (s : State) (p : Nat) : Bool := s.fld64 (Reg.PWR_VF p) 63 1 == 1
/-- Voltage of rail 0..2 at a point. -/
def State.vfRail (s : State) (p r : Nat) : Nat :=
  if r = 0 then s.fld64 (Reg.PWR_VF p) 12 10 else if r = 1 then s.fld64 (Reg.PWR_VF p) 22 10 else s.fld64 (Reg.PWR_VF p) 32 10

/-- The range of a rail, in mV (R357). -/
def railRange (r : Nat) : Nat × Nat := if r = 0 then (600, 850) else if r = 1 then (650, 850) else (750, 900)

/-- The voltage requested of a rail for a point: within its range, and not below that of the point whose ACLK is in force (R358; log
entry 90). -/
def State.railAsk (s : State) (slow p r : Nat) : Nat :=
  max (railRange r).1 (min (railRange r).2 (max (s.vfRail slow r) (s.vfRail p r)))

/-- ACLK in MHz: a point's frequency; while a move is in progress the lower of the two points' (R358). -/
def State.aclkMhz (s : State) : Nat :=
  match s.pwr.move with
  | some m => min (s.vfFreq m.target) (s.vfFreq m.former)
  | none => s.vfFreq (s.fld Reg.PWR_OP_CUR)

/-- Request the voltage of the head rail of the move. -/
def State.moveRequest (s : State) : State :=
  match s.pwr.move with
  | some { rails := (r, v) :: _, .. } =>
    (({ s with pwr := { s.pwr with volts := Store.put s.pwr.volts r v } }).regSend 1 r v)
  | _ => s

/-- The rails of a move, in order (R358): raised SRAM, LOG, ARR; lowered ARR, LOG, SRAM. -/
def State.moveRails (s : State) (former target : Nat) : List (Nat × Nat) :=
  if s.vfFreq former < s.vfFreq target then [2, 1, 0].map fun r => (r, s.railAsk former target r)
  else [0, 1, 2].map fun r => (r, s.railAsk target target r)

/-- The REG_WRITE that started a check or a move completes when all it started has ended (R304, R316, R361); the monitor's poke too
(R437). -/
def State.checkEnded (s : State) (who : Option (Nat × Nat)) (detail : Nat) : State :=
  match who with
  | none => s
  | some (q, n) =>
    if (q, n) = monStarter then (if s.mon.poke then ({ s with mon := { s.mon with poke := false } } : State).sayOk else s)
    else match s.regWriteOf q n with
    | none => s
    | some f =>
      if f.checks ≤ 1 then s.complete f stOk 0 detail
      else s.setFlight { f with checks := f.checks - 1 }

/-- The point whose ACLK is in force (R358): of a move in progress the slower of its two. -/
def State.clockPoint (s : State) : Nat :=
  match s.pwr.move with
  | some m => if s.vfFreq m.target < s.vfFreq m.former then m.target else m.former
  | none => s.fld Reg.PWR_OP_CUR

/-- Begin a move to a point (R361); a move in progress gives way to it, and the REG_WRITE that started that one completes (log entry 19). The
move starts from the point whose ACLK is in force. -/
def State.opStart (s : State) (target : Nat) (starter : Option (Nat × Nat)) : State :=
  let s0 := match s.pwr.move with
    | some m => s.checkEnded m.starter 0
    | none => s
  let cur := s.clockPoint
  let s1 := (s0.setFld Reg.PWR_OP_REQ target).setFlag Reg.PWR_OP_BUSY true
  ({ s1 with pwr := { s1.pwr with
      move := some { target := target, former := cur, rails := s1.moveRails cur target, back := false, starter := starter } } }).moveRequest

/-- The move ends at a point: CUR takes it, BUSY falls, the REG_WRITE completes. -/
def State.moveEnd (s : State) (m : Move) : State :=
  let s1 := (s.setFld Reg.PWR_OP_CUR m.target).setFlag Reg.PWR_OP_BUSY false
  ({ s1 with pwr := { s1.pwr with move := none } }).checkEnded m.starter 0

/-- A failed boot step 2, 3 or 4 (R426): its reason, and a retry in 100 ms. -/
def State.bootRetryLater (s : State) (reason : Nat) : State :=
  let s1 := s.setFld Reg.BOOT_STATUS_REASON reason
  { s1 with boot := { s1.boot with retry := true } }

/-- ACK_V (R360, R361): the acknowledged rail is done; the next is requested, or the move ends. -/
def State.moveAck (s : State) (rail : Nat) : State :=
  match s.pwr.move with
  | some m =>
    match m.rails with
    | (r, _) :: t =>
      if r ≠ rail then s
      else if t.isEmpty then s.moveEnd m
      else ({ s with pwr := { s.pwr with move := some { m with rails := t } } }).moveRequest
    | [] => s.moveEnd m
  | none => s

/-- The rails that differ from a point's voltages, in the order of R358 from the point whose ACLK is in force. -/
def State.backRails (s : State) (slow cur : Nat) : List (Nat × Nat) :=
  ((if s.vfFreq slow < s.vfFreq cur then [2, 1, 0] else [0, 1, 2]).map fun r => (r, s.railAsk slow cur r)).filter fun p =>
    Store.get (s.vfRail cur p.1) s.pwr.volts p.1 != p.2

/-- A SET_V without ACK_V (R361): the tile returns to its former point, which CUR keeps; each rail that has left it goes back. -/
def State.moveNack (s : State) : State :=
  match s.pwr.move with
  | some m =>
    let s1 := s.setFld Reg.PWR_STATUS_REASON 0x0502
    if m.back then s1.moveEnd m
    else
      let cur := s.fld Reg.PWR_OP_CUR
      let slow := s.clockPoint
      let m1 : Move := { m with target := cur, former := slow, rails := s.backRails slow cur, back := true }
      if m1.rails = [] then s1.moveEnd m1 else ({ s1 with pwr := { s1.pwr with move := some m1 } }).moveRequest
  | none => s

/-! ## Comparators and time (R373, R374) -/

/-- Rails return under R358 at the current point (R372; log entry 90): requested in the order of a rise, each after the last was acknowledged. -/
def State.wakeRails (s : State) : State :=
  let cur := s.fld Reg.PWR_OP_CUR
  ({ s with pwr := { s.pwr with
      move := some { target := cur, former := cur, rails := [2, 1, 0].map (fun r => (r, s.railAsk cur cur r)), back := true
                     starter := none } } } : State).moveRequest

/-- A wake condition reaches the sleep logic (R372): it abandons an entry in progress, or starts the wake, at which the PLLs need REFCLK
(R452). -/
def State.wakeBy (s : State) (n : Nat) : State :=
  if s.sleep = 1 then
    (((s.setFld Reg.PWR_SLEEP_STATE 0).setFld Reg.PWR_SLEEP_LAST 2).setFld Reg.PWR_SLEEP_WAKE_SRC n).setFld
      Reg.PWR_STATUS_REASON 0x0504
  else if s.sleep = 2 then
    let s1 := ((s.setFld Reg.PWR_SLEEP_STATE 3).setFld Reg.PWR_SLEEP_WAKE_SRC n).wakeRails
    { s1 with clk := { s1.clk with stopped := !s.clk.refclk } }
  else s

/-- Comparator `n` fires if armed: FIRED, and the actions its bits enable (R374). -/
def State.cmpFire (s : State) (n : Nat) : State :=
  if s.flag (Reg.AON_CMP_EN n) then
    let s1 := s.setFlag (Reg.AON_CMP_FIRED n) true
    let s2 := if s.flag (Reg.AON_CMP_WAKE n) then s1.wakeBy n else s1
    if s.flag (Reg.AON_CMP_ALERT n) then s2.alert (0xFF00 + n) else s2
  else s

/-- Whether comparator `n`'s condition holds, by what its sensor reads (R374). Before VDD_AON has been read, comparator 1's does not (log entry
13). -/
def State.cmpHolds (s : State) (n : Nat) : Bool :=
  let v := s.rd64 (Reg.AON_CMP_VAL n)
  if n = 0 then sext (v % 2 ^ 8) 8 ≤ sext (s.fld Reg.TEMP_TJ_MAX) 8
  else if n = 1 then s.pwr.vddAon.any fun x => decide (x < v % 2 ^ 10)
  else if n = 2 then v ≤ s.rd64 Reg.TIME_NOW
  else false

/-- What comparator `n` compares has changed (R374): COND shows whether its condition holds, and at its onset the comparator fires. -/
def State.cmpSee (s : State) (n : Nat) : State :=
  if s.cmpHolds n = s.flag (Reg.AON_CMP_COND n) then s
  else if s.cmpHolds n then (s.setFlag (Reg.AON_CMP_COND n) true).cmpFire n
  else s.setFlag (Reg.AON_CMP_COND n) false

/-- Write `TIME_NOW`, which comparator 2 compares. -/
def State.setTime (s : State) (v : Nat) : State := (s.wr64 Reg.TIME_NOW v).cmpSee 2

/-- The temperature sensors' reading (R374, R454): TEMP, which comparator 0 compares. -/
def State.setTemp (s : State) (temp region : Nat) : State :=
  ((s.setFld Reg.TEMP_TJ_MAX temp).setFld Reg.TEMP_REGION region).cmpSee 0

/-- COMPARATOR_FIRE (R374): the sensor of comparator 0 or 1 reads a value, or the time has come for comparator 2. Comparator 3 fires with the
frames of R414. -/
def execComparatorFire (n : Fin 4) (reading : BitVec 10) (s : State) : Host.Outcome State Fault Refusal :=
  .next (if s.ts = tsOff then s
    else if n = 0 then s.setTemp reading.toNat (s.fld Reg.TEMP_REGION)
    else if n = 1 then ({ s with pwr := { s.pwr with vddAon := some reading.toNat } } : State).cmpSee 1
    else s.cmpSee n)

/-- The ACLK cycles of a tick of 10 ns, and how many of them the droop logic suppresses: every second one (R367). -/
def State.tickCycles (s : State) : Nat × Nat :=
  let c := (s.clk.aclkRem + s.aclkMhz) / 100
  if s.pwr.droop && s.flag Reg.DROOP_CFG_EN then (c, (c + s.clk.odd.toNat) / 2) else (c, 0)

/-- Whether no marks fire, so that 2^K ACLK cycles count as one mark (R226, R363). -/
def State.noMarks (s : State) : Bool :=
  s.ts == tsFwReady || s.ts == tsJobLoaded || s.ts == tsFailed || s.beat.lost

/-- One cycle of REFCLK, or of AONCLK where REFCLK has stopped (R373). -/
def State.tick (s : State) : State :=
  if s.ts = tsOff then s
  else if s.clk.refclk then
    let p := s.tickCycles
    let s1 := (s.count64 Reg.TIME_NOW 10).cmpSee 2
    if !s.awake then s1
    else
      let s2 := if p.2 = 0 then s1 else s1.count64 Reg.DROOP_SKIP p.2
      let idle := if s.noMarks then s.clk.idle + p.1 else 0
      let beat := 2 ^ s.fld Reg.BEAT_CFG_K
      { s2 with
        clk := { s2.clk with
          aclkRem := (s.clk.aclkRem + s.aclkMhz) % 100
          odd := s.pwr.droop && s.flag Reg.DROOP_CFG_EN && (p.1 + s.clk.odd.toNat) % 2 == 1
          aclk := if s.beat.started then s.clk.aclk + p.1 else 0
          idle := idle % beat }
        pwr := { s2.pwr with dwell := s2.pwr.dwell + idle / beat } }
  else
    let f := s.clk.aonFrac + 37
    let s1 := (s.count64 Reg.TIME_NOW (30517 + f / 64)).cmpSee 2
    { s1 with clk := { s1.clk with aonFrac := f % 64 } }

/-! ## Limiter, throttle, energy (R362 to R366, R370) -/

/-- Rails of R357. -/
def railCodes : List Nat := [0, 1, 2, 3, 4, 5]

/-- Telemetry of a rail. -/
def State.rail (s : State) (r : Nat) : Rail := Store.get {} s.pwr.rails r

/-- Power in units of 0.5 mW: the sum of voltage × current over the six rails (R362). -/
def State.power (s : State) : Nat := (railCodes.map fun r => (s.rail r).mv * (s.rail r).current).foldl (· + ·) 0

/-- Sum and number of the latest `n` samples. -/
def latest (l : List Nat) (n : Nat) : Nat × Nat := ((l.take n).foldl (· + ·) 0, (l.take n).length)

/-- Whether a mean of samples is above a number of watts. -/
def above (p : Nat × Nat) (w : Nat) : Bool := w * 2000 * p.2 < p.1

/-- Whether a mean of samples is below a number of watts (as a signed number). -/
def below (p : Nat × Nat) (w : Int) : Bool := ((p.1 : Nat) : Int) < w * 2000 * p.2

/-- A mean of samples in whole watts. -/
def watts (p : Nat × Nat) : Nat := if p.2 = 0 then 0 else p.1 / (2000 * p.2)

/-- The children of this die on the mark tree that have sent a stretch request: edges of `LINK_BEAT.DOWN` (R364, R395). -/
def State.children (s : State) : Store (List (Nat × Nat × Nat)) := s.pwr.child.filter fun p => (s.fld Reg.LINK_BEAT_DOWN).testBit p.1

/-- The largest stretch request of this die and its children (R364). -/
def State.stretchMax (s : State) : Nat :=
  (s.children.map fun p => (p.2.map fun q => q.2.2).headD 0).foldl max (s.fld Reg.PWR_LIM_S_REQ)

/-- A request came at least 256 ACLK cycles ago (R364): before the latest mark, or by the count of cycles. -/
def State.longAgo (s : State) (q : Nat × Nat × Nat) : Bool := q.1 != s.beatLow || decide (q.2.1 + 256 ≤ s.clk.aclk)

/-- The request of the next mark: the largest, of each child the latest that came early enough (R364). -/
def State.markStretch (s : State) : Nat :=
  (s.children.map fun p => ((p.2.find? s.longAgo).map fun q => q.2.2).getD 0).foldl max (s.fld Reg.PWR_LIM_S_REQ)

/-- A child's request: those before it stay as far as a mark may still need them. -/
def State.childAsks (s : State) (e n : Nat) : State :=
  let old := Store.get [] s.pwr.child e
  let keep := old.takeWhile (fun q => !s.longAgo q) ++ (old.find? s.longAgo).toList
  { s with pwr := { s.pwr with child := Store.put s.pwr.child e ((s.beatLow, s.clk.aclk, n) :: keep) } }

/-- Forward the largest request up the mark tree when it changed (R364, R383 KIND 2). -/
def State.forwardStretch (s : State) (always : Bool) : State :=
  let m := s.stretchMax
  let up := s.fld Reg.LINK_BEAT_UP
  if m = s.pwr.forwarded && !always then s
  else
    let s1 := { s with pwr := { s.pwr with forwarded := m } }
    if up < 4 then s1.modEdge up fun x => { x with lsym := x.lsym ++ [BitVec.ofNat 32 (2 + m * 4)] } else s1

/-- Whether the next change of S_REQ is due, and what it is (R363). -/
def State.limiterNext (s : State) (fast slow : Nat × Nat) (lost : Bool) : Option Nat :=
  let cap := s.fld Reg.PWR_CAP_CAP
  let hyst : Int := (cap : Int) - (s.fld Reg.PWR_LIM_HYST : Nat)
  let req := s.fld Reg.PWR_LIM_S_REQ
  let hot := s.cmpHolds 0
  let tooHigh := (above slow cap && above fast cap) || hot || lost
  let tooLow := below slow hyst && below fast hyst && !hot && !lost
  if above fast 1800 then some 15
  else if s.fld Reg.PWR_LIM_DWELL ≤ s.pwr.dwell then
    if tooHigh && req < 15 then some (req + 1)
    else if tooLow && 0 < req then some (req - 1)
    else none
  else none

/-- Energy of a sample (R370): p × 10 µs, in whole µJ, to the counter of the job. -/
def State.addEnergy (s : State) (p : Nat) : State :=
  let e := s.pwr.energyRem + p * 5
  let i := s.fld Reg.TILE_CTL_JOB_ID % 16
  let s1 := s.count64 (Reg.ENERGY_JOB i) (e / 1000)
  { s1 with pwr := { s1.pwr with energyRem := e % 1000 } }

/-- Telemetry at a sample (R366): a rail without a fresh frame counts one more missing sample. -/
def Rail.sample (r : Rail) : Rail := { r with fresh := false, missing := if r.fresh then 0 else r.missing + 1 }

/-- Hard throttle (R365). -/
def State.throttle (s : State) (fast : Nat × Nat) : State :=
  let hot := above fast 1800 && s.fld Reg.BEAT_CFG_STRETCH == 15
  let s1 := { s with pwr := { s.pwr with fastHot := hot } }
  if s.flag Reg.PWR_LIM_HARD then
    if below fast (s.fld Reg.PWR_CAP_CAP : Nat) then s1.setFlag Reg.PWR_LIM_HARD false else s1
  else if hot && s.pwr.fastHot then
    (((s1.setFlag Reg.PWR_LIM_HARD true).setFlag Reg.PWR_STATUS_THROTTLED true).setFld
      Reg.PWR_STATUS_REASON 0x0503).alert 0x0503
  else s1

/-- A sample (R362, R366, R370), in every state with rails; from FW_READY on the limiter and the throttle act on it (R363, R365). -/
def State.sample (s : State) : State :=
  let missing := railCodes.any fun r => !(s.rail r).fresh
  let rails := railCodes.map fun r => (r, (s.rail r).sample)
  let lost := (s.flag Reg.PWR_STATUS_TELEM_LOST && missing) || rails.any fun r => decide (3 ≤ r.2.missing)
  let p := s.power
  let samples := if missing then s.pwr.samples else (p :: s.pwr.samples).take 100
  let fast := latest samples 5
  let slow := latest samples 100
  let s1 := { s with pwr := { s.pwr with rails := rails, samples := samples } }
  let s2 := (s1.setFld Reg.PWR_NOW_SLOW (watts slow)).setFld Reg.PWR_NOW_FAST (watts fast)
  let s3 := s2.setFlag Reg.PWR_STATUS_TELEM_LOST lost
  let s4 := if lost && !s.flag Reg.PWR_STATUS_TELEM_LOST then s3.setFld Reg.PWR_STATUS_REASON 0x0505 else s3
  let s5 := s4.addEnergy p
  if !s5.fw then s5
  else
    let s6 := match s5.limiterNext fast slow lost with
      | some n => { s5.setFld Reg.PWR_LIM_S_REQ n with pwr := { s5.pwr with dwell := 0 } }
      | none => s5
    (s6.throttle fast).forwardStretch false

/-- LIMITER_SAMPLE: the sensors read in every state with power (R454), and a tile that runs takes the rails' sample. -/
def execLimiterSample (temp : Byte) (r : Region) (s : State) : Host.Outcome State Fault Refusal :=
  .next (if s.ts = tsOff then s
    else
      let s1 := s.setTemp temp.toNat r
      if s1.awake then s1.sample else s1)

/-- STRETCH_REQUEST (R364). -/
def execStretchRequest (e : Edge) (n : Fin 16) (s : State) : Host.Outcome State Fault Refusal :=
  .next (if s.awake && (s.fld Reg.LINK_BEAT_DOWN).testBit e then
      ((s.takeSym e fun v => v.toNat == 2 + n.val * 4).childAsks e n).forwardStretch false
    else s)

/-- TELEM (R360, R362). -/
def execTelem (head : Byte) (payload : BitVec 24) (crc : Byte) (s : State) : Host.Outcome State Fault Refusal :=
  let f := crc ++ (payload ++ head)
  let rail := regRail f
  let r : Rail := { mv := bits (regPay f) 0 12, current := bits (regPay f) 12 12, fresh := true, missing := (s.rail rail).missing }
  .next (if s.alive && regTakes f 3 && decide (rail < 6) then
      { s with pwr := { s.pwr with rails := Store.put s.pwr.rails rail r } }
    else s)

/-! ## Droop (R367) -/

/-- A rail is below its requested voltage less the margin. -/
def State.droops (s : State) (r mv : Nat) : Bool :=
  decide (mv + s.fld Reg.DROOP_CFG_MARGIN < Store.get (s.vfRail (s.fld Reg.PWR_OP_CUR) r) s.pwr.volts r)

/-- DROOP_TRIP: the detector of a region reads its rails; with EN = 0 a trip suppresses nothing. -/
def execDroopTrip (d : DroopRead) (s : State) : Host.Outcome State Fault Refusal :=
  .next (if s.awake && (s.droops 0 d.arr.toNat || s.droops 1 d.log.toNat) then
      let s1 := s.setBits Reg.DROOP_TRIP (2 ^ d.region.val)
      { s1 with pwr := { s1.pwr with droop := true } }
    else s)

def execDroopRecover (s : State) : Host.Outcome State Fault Refusal :=
  .next (if s.awake then { s with pwr := { s.pwr with droop := false } } else s)

/-! ## Trips (R375) -/

/-- A thermal trip: rails removed, TILE reset, THERM_TRIP with its reason, an alert; TEMP still reads. The tile waits for RESET_RELEASE: it
does not release itself any more. -/
def State.thermTrip (s : State) (temp : Nat) : State :=
  let s1 := s.tileReset.dropMesh
  let s2 := ({ s1 with sb := { s1.sb with released := true } } : State).setTemp temp (s.fld Reg.TEMP_REGION)
  ((s2.setFlag Reg.PWR_STATUS_THERM_TRIP true).setFld Reg.PWR_STATUS_REASON 0x0506).alert 0x0506

def execThermalTrip (r : Region) (temp : Byte) (s : State) : Host.Outcome State Fault Refusal :=
  .next (if s.ts = tsOff ∨ temp.toInt < 115 then s
    else (s.setFld Reg.TEMP_REGION r).thermTrip temp.toNat)

/-- TRIP (R360, R375). -/
def execTrip (w : Word) (crc : Byte) (s : State) : Host.Outcome State Fault Refusal :=
  .next (if s.ts = tsOff ∨ regTakes (crc ++ w) 5 = false then s else s.thermTrip (s.fld Reg.TEMP_TJ_MAX))

/-! ## Regions and sleep (R371, R372) -/

/-- The cluster-block offsets of a region. -/
def inRegion (r o : Nat) : Bool := 0x100000 + 0x80000 * r ≤ o && o < 0x100000 + 0x80000 * (r + 1)

/-- A region loses power (R371): its units and slices with it. -/
def State.regionOff (s : State) (r : Nat) : State :=
  let s1 := s.setFld Reg.PWR_REGION_DOWN (s.fld Reg.PWR_REGION_DOWN ||| 2 ^ r)
  { s1 with clusters := s1.clusters.filter fun p => p.1 / 8 != r, pwr := { s1.pwr with regionsUp := s1.pwr.regionsUp.filter (· != r) } }

/-- A region has powered up (R371): its registers at their TILE reset values, its banks woken and zero. -/
def State.regionOn (s : State) (r : Nat) : State :=
  let s1 := s.resetWhere fun o => inRegion r o && (hasScope .tile o || hasScope .job o)
  let s2 := { s1 with clusters := s1.clusters.filter fun p => p.1 / 8 != r, pwr := { s1.pwr with regionsUp := s1.pwr.regionsUp.filter (· != r) } }
  (s2.setFld Reg.PWR_REGION_DOWN (s.fld Reg.PWR_REGION_DOWN &&& (255 ^^^ 2 ^ r))).showRetired

/-- The accepted write of `PWR_REGION.OFF`: regions with a 1 go down, regions with a 0 begin to power up. -/
def State.regionWrite (s : State) (v : Nat) : State :=
  let s1 := s.setFld Reg.PWR_REGION_OFF v
  (List.range 8).foldl (fun s r =>
    if v.testBit r then
      (if s.regionDown r then { s with pwr := { s.pwr with regionsUp := s.pwr.regionsUp.filter (· != r) } } else s.regionOff r)
    else if s.regionDown r then { s with pwr := { s.pwr with regionsUp := s.pwr.regionsUp.filter (· != r) ++ [r] } }
    else s) s1

def execRegionPowerUpDone (r : Region) (s : State) : Host.Outcome State Fault Refusal :=
  .next (if s.alive && s.pwr.regionsUp.contains r.val then s.regionOn r else s)

/-- The words that hold a TILE-scope RW field of an active cluster block (R372, R349). -/
def State.tileRw (s : State) (o : Nat) : Bool :=
  0x100000 ≤ o && o < 0x500000 && hasScope .tile o && s.active ((o - 0x100000) / 0x10000)
    && (match regInfo o with | some i => i.acc.rw != 0 | none => false)

/-- Put the RW fields of a saved word back. -/
def State.restoreRw (s : State) (o : Nat) (v : Word) : State :=
  match regInfo o with
  | some i =>
    let m := BitVec.ofNat 32 i.acc.rw
    s.wr o ((s.rd o &&& ~~~m) ||| (v &&& m))
  | none => s

/-- SLEEP_ENTRY_DONE (R372): commands drained; the fields saved, the links and ports out of service, the mesh dark. -/
def State.fallAsleep (s : State) : State :=
  let saved := (s.regs.filter fun e => s.tileRw e.1)
  let progs := s.clusters.filterMap fun p => if s.active p.1 then some (p.1, p.2.pstore) else none
  let links := (List.range 4).filterMap fun e =>
    if s.edgeUp e then some (Reg.LINK_STATUS_STATE e).off else none
  let ports := (List.range 8).filterMap fun p =>
    if s.fld (Reg.VPORT_STATUS_STATE p) = 1 then some (Reg.VPORT_STATUS_STATE p).off else none
  let kept := (links ++ ports).map fun o => (o, s.rd o)
  let s0 := ((links ++ ports).foldl (fun s o => s.wr o (s.rd o &&& ~~~7#32)) s).showRemap
  let s1 := (List.range 64).foldl (fun s k => s.setFld (Reg.LINK_VCQ_USED (k / 16) (k % 16)) 0) s0
  let s2 := { s1.dropMesh with
    edges := s1.edges.map fun (p : Nat × EdgeSt) => (p.1, ({ peer := p.2.peer } : EdgeSt)), pwr := { s1.pwr with saved := saved ++ kept, savedProg := progs } }
  s2.setFld Reg.PWR_SLEEP_STATE 2

/-- The wake, once the rails are back (R372): registers that nothing retains at reset values, cluster blocks at TILE reset values, saved fields
and stores written back, ports in service again. -/
def State.wakeFields (s : State) : State :=
  let s1 := s.resetWhere fun o => hasScope .job o || (0x100000 ≤ o && o < 0x500000 && hasScope .tile o)
  let edge (o : Nat) : Bool := (List.range 4).any fun e => (Reg.LINK_STATUS_STATE e).off == o
  let s2 := (s1.pwr.saved.filter fun p => !edge p.1).foldl (fun s e => if e.1 < 0x500000 then s.restoreRw e.1 e.2 else s.wr e.1 e.2) s1
  let s3 := s2.pwr.savedProg.foldl (fun s e => s.modCl e.1 fun c => { c with pstore := e.2 }) s2
  ({ s3 with pwr := { s3.pwr with saved := [], savedProg := [], restored := true } } : State).showRetired.showRemap

/-- The edges that were in service when the tile fell asleep. -/
def State.sleptEdges (s : State) : List Nat := (List.range 4).filter fun e => s.pwr.saved.any fun p => p.1 == (Reg.LINK_STATUS_STATE e).off

/-- Every edge that trains again has come to an end: the tile is awake. -/
def State.wakeEnd (s : State) : State :=
  ({ s with pwr := { s.pwr with restored := false } }.setFld Reg.PWR_SLEEP_STATE 0).setFld Reg.PWR_SLEEP_LAST 1

/-- The first comparator with WAKE = 1 that has FIRED, if any. -/
def State.wakePending (s : State) : Option Nat :=
  (List.range 4).find? fun n => s.flag (Reg.AON_CMP_WAKE n) && s.flag (Reg.AON_CMP_FIRED n)

def execSleepEntryDone (s : State) : Host.Outcome State Fault Refusal :=
  .next (if s.alive && s.sleep == 1 && s.flights.isEmpty then
      match s.wakePending with
      | some n => s.wakeBy n
      | none => s.fallAsleep
    else s)

/-! ## Supplies and clocks (R13, R310, R373, R452, R453) -/

/-- VDD_AON_RISE: POR. -/
def execVddAonRise (st : Straps) (s : State) : Host.Outcome State Fault Refusal :=
  .next (s.por st)

/-- VDD_AON_FALL: OFF from any state. -/
def execVddAonFall (s : State) : Host.Outcome State Fault Refusal := .next s.off

/-- REFCLK_LOSS (R452): outside AON and sleep, a wake in progress being no sleep, the PLLs stop, and the tile resumes only through TILE
reset. -/
def execRefclkLoss (s : State) : Host.Outcome State Fault Refusal :=
  .next { s with clk := { s.clk with
    refclk := false
    stopped := s.clk.stopped || decide (tsBootRom ≤ s.ts ∧ s.sleep ≠ 2) } }

/-- REFCLK_RETURN (R373): `TIME_NOW` changes over at a tick boundary and loses no count. -/
def execRefclkReturn (s : State) : Host.Outcome State Fault Refusal :=
  .next { s with clk := { s.clk with refclk := true } }

end Sys2Proof.Machine
end

