-- ==== Sys2Proof/Machine/Checks.lean ====
section
/-! DEFINITION. The consistency checks of the enable bits (R304, R305): queue, job, link and reduction. -/

namespace Sys2Proof.Machine

/-- Sites that carry a cluster with power. -/
def State.liveSites (s : State) : List Nat := allSites.filter s.live

/-! ## Items -/

/-- Whether a queue is not DISABLED, from the words listed. -/
def State.liveQueues (s : State) : List Nat :=
  s.regs.filterMap fun e =>
    if 0x40000 ≤ e.1 && e.1 < 0x80000 && e.1 % 32 == 4 && s.fld (Reg.QUEUE_STATE_STATE ((e.1 - 0x40000) / 32)) != 0 then
      some ((e.1 - 0x40000) / 32)
    else none

/-- The two rings of a queue: base and bytes (R285). -/
def State.rings (s : State) (q : Nat) : List (Nat × Nat) :=
  [(s.sqBase q, 64 * s.sqEntries q), (s.cqBase q, 32 * s.cqEntries q)]

/-- Whether two ranges overlap. -/
def overlap (a b : Nat × Nat) : Bool := a.1 < b.1 + b.2 && b.1 < a.1 + a.2

/-- `QUEUE_CTL.EN` (R305): 0 on a pass. -/
def State.queueCheck (s : State) (q : Nat) : Nat :=
  let limit := s.fld (Reg.QUEUE_CTL_LIMIT q)
  let sq := s.fld (Reg.QUEUE_CTL_LOG2_SQ q)
  let cq := s.fld (Reg.QUEUE_CTL_LOG2_CQ q)
  let mine := s.rings q
  let others := (s.liveQueues.filter (· != q)).flatMap s.rings
  if s.ts < tsFwReady then 0x010A
  else if limit < 1 ∨ 64 < limit then 0x010B
  else if sq < 6 ∨ 16 < sq ∨ cq < 6 ∨ 16 < cq then 0x010C
  else if mine.any fun r => decide (s.memSize < r.1 + r.2) then 0x010D
  else if overlap (mine.getD 0 (0, 0)) (mine.getD 1 (0, 0)) || mine.any fun r => others.any (overlap r) then 0x0104
  else 0

/-- A cluster whose enabled slots' block tables, or link schedule, run beyond its slice (R305). -/
def State.tableBad (s : State) (site : Nat) : Bool :=
  let on := (List.range 4).filter fun n => s.flag (Reg.SLOT_CFG_EN site n)
  on.any (fun n => decide (sliceSize site <
      s.fld (Reg.SLOT_TAB_BASE site n) * 16 + 16 * s.fld (Reg.SLOT_CFG_ENTRIES site n)))
    || (!on.isEmpty && decide (sliceSize site < s.fld (Reg.LINK_SCHED_BASE site) * 4096 + 4096))

/-- Bytes of a landing slot (R218). -/
def State.landBytes (s : State) (site : Nat) : Nat := (s.fld (Reg.LAND_CFG_SLOT_UNITS site) + 1) * 128

/-- First byte of landing slot `n` (R186). -/
def State.landAddr (s : State) (site n : Nat) : Nat := s.fld (Reg.LAND_CFG_BASE site) * 128 + n * s.landBytes site

/-- A landing region that runs beyond its slice (R186). -/
def State.landBad (s : State) (site : Nat) : Bool :=
  sliceSize site < s.landAddr site (s.fld (Reg.LAND_NSLOT_NSLOT site))

/-- The task slots that take part in a barrier in a cluster (R230, R240). -/
def State.barMask (s : State) (site b : Nat) : Nat :=
  bits (s.rd (Reg.BAR_PART site (b / 8))).toNat (4 * (b % 8)) 4

/-- Whether a control-barrier root address names agent 0x001 with SCOPE 1 (R229, R457). -/
def rootOk (a : Nat) : Bool := bits a 25 1 == 1 && bits a 0 10 == 1

/-- Whether an enabled barrier's configuration is refused (R229). -/
def State.barBad (s : State) (b : Nat) : Bool :=
  let kind := s.fld (Reg.BAR_CFG_KIND b)
  let span := s.fld (Reg.BAR_CFG_SPAN b)
  let expect := s.fld (Reg.BAR_EXPECT_EXPECT b)
  s.flag (Reg.BAR_CFG_EN b) &&
    (!((kind == 0 && (span == 0 || span == 1)) || (kind == 1 && (span == 1 || span == 2)))
      || (kind == 0 && span == 1 && !(s.fld (Reg.BAR_EXPECT_TILES b)).testBit (s.fld (Reg.BAR_CFG_ROOT b)))
      || (span == 2 && (expect == 0 || decide (32768 < expect)))
      || (kind == 1 && s.fld (Reg.BAR_CFG_LAG b) == 0)
      || (kind == 1 && span == 1 && !rootOk (s.rd Reg.BAR_ROOT).toNat)
      || (kind == 1 && span == 2 && !rootOk (s.rd (Reg.BAR_ROOT + 4)).toNat))

/-- Whether some BAR_PART mask of a cluster names a slot that is not enabled (R229). -/
def State.partBad (s : State) (site : Nat) : Bool :=
  (List.range 64).any fun b => (List.range 4).any fun n =>
    (s.barMask site b).testBit n && !s.flag (Reg.SLOT_CFG_EN site n)

/-- `TILE_CTL.JOB_EN` (R305), with the beat master's values (R42). -/
def State.jobCheck (s : State) (k : Nat) (mode : Bool) (delay : Nat) : Nat :=
  let sites := s.liveSites
  let bar := s.fld Reg.ERR_CFG_STEP_BAR
  if s.ts ≠ tsJobLoaded then 0x0202
  else if !s.flag Reg.BEAT_CFG_MASTER && (s.fld Reg.BEAT_CFG_K != k || s.flag Reg.BEAT_CFG_MODE != mode
      || s.fld Reg.BEAT_ALIGN_DELAY != delay) then 0x0201
  else if sites.any s.tableBad then 0x0203
  else if sites.any s.landBad then 0x0601
  else if s.fld Reg.MEM_SPLIT_GRANTS = 0 then 0x0609
  else if (List.range 64).any s.barBad || sites.any s.partBad
      || (s.flag Reg.ERR_CFG_STEP_EN && !(s.flag (Reg.BAR_CFG_EN bar) && s.flag (Reg.BAR_CFG_KIND bar))) then 0x0809
  else 0

/-- An enabled reduction group that the check refuses (R269). -/
def State.groupBad (s : State) (g : Nat) : Bool :=
  let out := s.fld (Reg.REDUCE_GRP0_OUT g)
  let root := s.flag (Reg.REDUCE_GRP0_ROOT g)
  let mask := s.fld (Reg.REDUCE_GRP0_IN_MASK g)
  let loc := mask.testBit 5
  s.flag (Reg.REDUCE_GRP0_EN g) &&
    (decide (6 ≤ out) || (root && out != 5) || (!root && out == 5) || (root && !loc) || (decide (out < 5) && mask.testBit out)
      || s.fld (Reg.REDUCE_GRP1_PARTICIPANTS g) == 0 || s.fld (Reg.REDUCE_GRP1_DEADLINE g) == 0
      || (loc && (s.fld (Reg.REDUCE_GRP2_NBUCKET g) == 0 || s.rd64 (Reg.REDUCE_GRP45 g) % 64 != 0))
      || (List.range 4).any fun e => (mask.testBit e || out == e) && !(s.fld Reg.TILE_CAPS_EDGE_MASK).testBit e)

/-- `REDUCE_CTL.EN` (R269). -/
def State.reduceCheck (s : State) : Nat :=
  if (List.range 12).any fun i => s.groupBad (i + 1) then 0x0401 else 0

/-- The items of the link check that precede training (R402). -/
def State.linkPre (s : State) (e : Nat) : Nat :=
  if !(s.fld Reg.TILE_CAPS_EDGE_MASK).testBit e then 0x0301
  else if 16384 < ((List.range 16).map fun v => s.fld (Reg.LINK_VCQ_CREDITS e v)).foldl (· + ·) 0
      ∨ s.fld (Reg.LINK_VCQ_CREDITS e 0) < 272 then 0x0306
  else 0

/-! ## Start and end -/

/-- Show CHECKING, or its end. -/
def State.showChecking (s : State) (w : Enable) (on : Bool) : State :=
  match w with
  | .queue q => if on then s.setFld (Reg.QUEUE_STATE_STATE q) 1 else s
  | .job => s.setFlag Reg.TILE_STATE_JOB_CHECKING on
  | .link e => s.setFlag (Reg.LINK_CTL_CHECKING e) on
  | .reduce => s.setFlag Reg.REDUCE_CTL_CHECKING on

/-- Train an edge again after a self-test (R401): its queue, and its flits and credits (log entry 110), are kept. -/
def State.trainAgain (s : State) (e : Nat) : State :=
  (s.setFld (Reg.LINK_STATUS_STATE e) 1).modEdge e fun x => { x with
    test := 0, peer := false, plans := [], credit := [], train := { step := 1, bad := x.train.bad, saved := some x.credit } }

/-- Start the training of an edge (R391). -/
def State.trainStart (s : State) (e : Nat) : State :=
  (s.setFld (Reg.LINK_STATUS_STATE e) 1).modEdge e fun x => { ingress := x.ingress, train := { step := 1 } }

/-- The head check begins: a link check whose first items pass trains the edge (R402). -/
def State.checkBegin (s : State) : State :=
  match s.checks with
  | { what := .link e, .. } :: _ => if s.linkPre e = 0 then s.trainStart e else s
  | _ => s

/-- A write of 1 to an enable bit: the check joins the tile's checks (R304). -/
def State.checkStart (s : State) (w : Enable) (starter : Option (Nat × Nat)) : State :=
  let was := match w with
    | .link e => s.fld (Reg.LINK_STATUS_STATE e)
    | _ => 0
  let s1 := { s.showChecking w true with checks := s.checks ++ [{ what := w, was := was, starter := starter }] }
  if s.checks.isEmpty then s1.checkBegin else s1

/-- `CHK_REASON` (R307): wholly 0 after a pass. -/
def State.setChkReason (s : State) (reason source index : Nat) : State :=
  s.wr Reg.CHK_REASON (if reason = 0 then 0 else BitVec.ofNat 32 (reason + source * 2 ^ 16 + index * 2 ^ 19))

/-- SOURCE and INDEX of a check (R307). -/
def Enable.code : Enable → Nat × Nat
  | .queue q => (1, q)
  | .job => (2, 0)
  | .link e => (3, e)
  | .reduce => (4, 0)

/-- The outcome of a check that has run, none while a link still trains (R305, R402). -/
def State.checkResult (s : State) (w : Enable) (k : Nat) (mode : Bool) (delay : Nat) : Option Nat :=
  match w with
  | .queue q => some (s.queueCheck q)
  | .job => some (s.jobCheck k mode delay)
  | .reduce => some s.reduceCheck
  | .link e =>
    if s.linkPre e ≠ 0 then some (s.linkPre e)
    else if (s.edge e).train.step ≠ 0 then none
    else some (s.edge e).train.reason

/-- Pass: the bit reads 1 and the unit takes up its function (R301, R304). -/
def State.checkPass (s : State) (w : Enable) : State :=
  match w with
  | .queue q =>
    let s1 := ((s.setFld (Reg.QUEUE_STATE_STATE q) 2).wr (Reg.SQ_PTR q) 0).wr (Reg.CQ_PTR q) 0
    let s2 := s1.setFld (Reg.QUEUE_SEQ_NEXT q) (s1.fld (Reg.QUEUE_SEQ_SEQ0 q))
    { s2.setFlag (Reg.QUEUE_CTL_EN q) true with queues := Store.put s2.queues q {} }
  | .job => s.setFlag Reg.TILE_CTL_JOB_EN true
  | .link e => s.setFlag (Reg.LINK_CTL_EN e) true
  | .reduce => s.setFlag Reg.REDUCE_CTL_EN true

/-- Refusal: the bit stays clear and the unit returns to its state before the write (R304). -/
def State.checkRefuse (s : State) (c : Check) (reason : Nat) : State :=
  match c.what with
  | .queue q => (s.setFld (Reg.QUEUE_STATE_STATE q) 0).setFld (Reg.QUEUE_STATE_REASON q) reason
  | .job => s
  | .link e => s.setFld (Reg.LINK_STATUS_STATE e) c.was
  | .reduce => s

/-- The head check ends; the next one begins (R304). -/
def State.checkEnd (s : State) (k : Nat) (mode : Bool) (delay : Nat) : State :=
  match s.checks with
  | [] => s
  | c :: t =>
    match s.checkResult c.what k mode delay with
    | none => s
    | some r =>
      let s1 := { s.showChecking c.what false with checks := t }
      let s2 := if r = 0 then s1.checkPass c.what else s1.checkRefuse c r
      let s3 := s2.setChkReason r c.what.code.1 c.what.code.2
      (s3.checkEnded c.starter (s3.rd Reg.CHK_REASON).toNat).checkBegin

/-- A write of 1 to `QUEUE_CTL.EN` (R301). -/
def State.queueEnable (s : State) (q : Nat) (starter : Option (Nat × Nat)) : State :=
  if s.fld (Reg.QUEUE_STATE_STATE q) = 0 then s.checkStart (.queue q) starter else s

/-- A write of 0 to `QUEUE_CTL.EN` (R301). -/
def State.queueDisable (s : State) (q : Nat) : State :=
  let st := s.fld (Reg.QUEUE_STATE_STATE q)
  if st = 1 then
    let mine := s.checks.filter fun c => decide (c.what = Enable.queue q)
    let head := (s.checks.head?.map fun c => decide (c.what = Enable.queue q)).getD false
    let s1 := { s with checks := s.checks.filter fun c => !decide (c.what = Enable.queue q) }
    let s2 := (s1.setFld (Reg.QUEUE_STATE_STATE q) 0).setFld (Reg.QUEUE_STATE_REASON q) 0x0102
    let s3 := s2.setChkReason 0x0102 1 q
    let s4 := mine.foldl (fun s c => s.checkEnded c.starter (s3.rd Reg.CHK_REASON).toNat) s3
    if head then s4.checkBegin else s4
  else if st = 2 ∨ st = 4 then
    ((s.setFlag (Reg.QUEUE_CTL_EN q) false).setFld (Reg.QUEUE_STATE_STATE q) 3).drainEnd q
  else s

end Sys2Proof.Machine
end

