-- ==== Sys2Proof/Machine/Numbers.lean ====
section
/-! DEFINITION. Number formats and conversion (R77 to R113): exact numbers, decoding, rounding, MX blocks, FX64, pairs, hints, and the
arithmetic of the vector engines and arrays. -/

namespace Sys2Proof.Machine

/-! ## Exact numbers -/

/-- ⌊log2(m × 2^e)⌋ for m ≠ 0. -/
def ilog (m : Nat) (e : Int) : Int := (Nat.log2 m : Int) + e

/-- The integer k for which k × 2^q is m × 2^e rounded to nearest, ties to even (R90). -/
def rneAt (m : Nat) (e q : Int) : Nat :=
  if q ≤ e then m * 2 ^ (e - q).toNat
  else
    let s := (q - e).toNat
    let d := m / 2 ^ s
    let r := m % 2 ^ s
    if 2 ^ s < 2 * r ∨ (2 * r = 2 ^ s ∧ d % 2 = 1) then d + 1 else d

/-- An integer as a number; 0 is +0. -/
def Num.ofInt (i : Int) (e : Int := 0) : Num := .fin (decide (i < 0)) i.natAbs e

def Num.zero : Num := .fin false 0 0

def Num.isNan : Num → Bool
  | .nan _ => true
  | _ => false

def Num.isSig : Num → Bool
  | .nan s => s
  | _ => false

def Num.isInf : Num → Bool
  | .inf _ => true
  | _ => false

/-- Whether a number is ±0. -/
def Num.isZero : Num → Bool
  | .fin _ m _ => m == 0
  | _ => false

def Num.sign : Num → Bool
  | .nan _ => false
  | .inf n => n
  | .fin n _ _ => n

def Num.neg : Num → Num
  | .nan s => .nan s
  | .inf n => .inf !n
  | .fin n m e => .fin (!n) m e

def Num.abs : Num → Num
  | .nan s => .nan s
  | .inf _ => .inf false
  | .fin _ m e => .fin false m e

/-- The significand with its sign. -/
def signed (n : Bool) (m : Nat) : Int := if n then -(m : Int) else m

/-- Exact sum; ∞ − ∞ is NaN. A zero sum is −0 only where both terms are negative. -/
def Num.add : Num → Num → Num
  | .nan _, _ => .nan false
  | _, .nan _ => .nan false
  | .inf a, .inf b => if a = b then .inf a else .nan false
  | .inf a, _ => .inf a
  | _, .inf b => .inf b
  | .fin a m e, .fin b k f =>
    let g := min e f
    let t := signed a (m * 2 ^ (e - g).toNat) + signed b (k * 2 ^ (f - g).toNat)
    if t = 0 then .fin (a && b) 0 g else .fin (decide (t < 0)) t.natAbs g

/-- Exact product; 0 × ∞ is NaN. -/
def Num.mul : Num → Num → Num
  | .nan _, _ => .nan false
  | _, .nan _ => .nan false
  | .inf a, .inf b => .inf (a != b)
  | .inf a, .fin b m _ => if m = 0 then .nan false else .inf (a != b)
  | .fin a m _, .inf b => if m = 0 then .nan false else .inf (a != b)
  | .fin a m e, .fin b k f => .fin (a != b) (m * k) (e + f)

/-- Times 2^i. -/
def Num.shift : Num → Int → Num
  | .fin n m e, i => .fin n m (e + i)
  | x, _ => x

/-- a < b; false with a NaN operand (R93). -/
def Num.lt : Num → Num → Bool
  | .nan _, _ => false
  | _, .nan _ => false
  | .inf a, .inf b => a && !b
  | .inf a, _ => a
  | _, .inf b => !b
  | .fin a m e, .fin b k f =>
    let g := min e f
    decide (signed a (m * 2 ^ (e - g).toNat) < signed b (k * 2 ^ (f - g).toNat))

/-- a = b; −0 equals +0, NaN equals nothing. -/
def Num.eq (a b : Num) : Bool := !a.isNan && !b.isNan && !a.lt b && !b.lt a

/-! ## Floating-point formats (R78) -/

/-- Exponent and mantissa widths. -/
structure FpFmt where
  eb : Nat
  mb : Nat
deriving DecidableEq, Repr

def fp32 : FpFmt := ⟨8, 23⟩
def fp16 : FpFmt := ⟨5, 10⟩
def bf16 : FpFmt := ⟨8, 7⟩

def FpFmt.bias (f : FpFmt) : Int := 2 ^ (f.eb - 1) - 1
/-- Exponent of the smallest normal value. -/
def FpFmt.emin (f : FpFmt) : Int := 1 - f.bias
/-- The largest finite magnitude. -/
def FpFmt.maxval (f : FpFmt) (n : Bool) : Num := .fin n (2 ^ (f.mb + 1) - 1) (f.bias - f.mb)

/-- The value of a code with implicit leading bit and no special codes. -/
def decodeGrid (eb mb : Nat) (bias : Int) (c : Nat) : Num :=
  let s := bits c (eb + mb) 1 == 1
  let e := bits c mb eb
  let m := bits c 0 mb
  if e = 0 then .fin s m (1 - bias - mb) else .fin s (2 ^ mb + m) (e - bias - mb)

/-- Decode an IEEE-like code (R78, R106). -/
def FpFmt.decode (f : FpFmt) (c : Nat) : Num :=
  let m := bits c 0 f.mb
  if bits c f.mb f.eb = 2 ^ f.eb - 1 then
    (if m = 0 then .inf (bits c (f.eb + f.mb) 1 == 1) else .nan (bits c (f.mb - 1) 1 == 0))
  else decodeGrid f.eb f.mb f.bias c

/-- The code of a value on a grid with an implicit leading bit. -/
def encodeGrid (eb mb : Nat) (bias : Int) (n : Bool) (m : Nat) (e : Int) : Nat :=
  let s := n.toNat * 2 ^ (eb + mb)
  if m = 0 then s
  else
    let x := ilog m e
    if x < 1 - bias then s + rneAt m e (1 - bias - mb)
    else s + (x + bias).toNat * 2 ^ mb + (rneAt m e (x - mb) - 2 ^ mb)

/-- Encode a value of the format; NaN is canonical (R77). -/
def FpFmt.encode (f : FpFmt) : Num → Nat
  | .nan _ => (2 ^ f.eb - 1) * 2 ^ f.mb + 2 ^ (f.mb - 1)
  | .inf n => n.toNat * 2 ^ (f.eb + f.mb) + (2 ^ f.eb - 1) * 2 ^ f.mb
  | .fin n m e => encodeGrid f.eb f.mb f.bias n m e

/-- Whether a magnitude is non-zero and below 2^x. -/
def tiny (v : Num) (x : Int) : Bool :=
  match v with
  | .fin _ m e => m != 0 && decide (ilog m e < x)
  | _ => false

/-- Count saturations and flushes of a record, saturating (R111). -/
def Rec.addSat (r : Rec) (n : Nat) : Rec := { r with sat := min (2 ^ 32 - 1) (r.sat + n) }
def Rec.addFlush (r : Rec) (n : Nat) : Rec := { r with flush := min (2 ^ 32 - 1) (r.flush + n) }

/-- Round a number into a floating-point format (R101). `conv` tells a conversion, which flags an infinity it reads. -/
def roundFp (f : FpFmt) (strict conv : Bool) (v : Num) (r : Rec) : Num × Rec :=
  match v with
  | .nan _ => (.nan false, { r with nan := true })
  | .inf n => (.inf n, if conv then { r with infIn := true } else r)
  | .fin n m e =>
    if m = 0 then (v, r)
    else
      let q := max (ilog m e) f.emin - f.mb
      let k := rneAt m e q
      let x : Num := .fin n k q
      if (f.maxval false).lt x.abs then
        (if strict then (.inf n, { r with ovf := true }) else (f.maxval n, r.addSat 1))
      else if k = 0 ∨ ilog k q < f.emin then
        (if strict then (x, if x.eq v then r else { r with underflow := true }) else (.fin n 0 0, r.addFlush 1))
      else (x, r)

/-- Flush a subnormal operand of a format in fast mode (R91). -/
def flushAt (x : Int) (strict : Bool) (v : Num) (r : Rec) : Num × Rec :=
  if !strict && tiny v x then (.fin v.sign 0 0, r.addFlush 1) else (v, r)

/-! ## Element formats (R77 to R84) -/

/-- Element bits of a format code. -/
def fmtBits (c : Nat) : Nat :=
  match c with
  | 0x00 => 32 | 0x01 => 16 | 0x02 => 16 | 0x03 => 8 | 0x04 => 8 | 0x05 => 6 | 0x06 => 6 | 0x07 => 4 | 0x08 => 8
  | 0x09 => 8 | 0x0A => 4 | 0x0B => 2 | 0x0C => 1 | 0x0D => 64 | 0x0E => 64 | 0x0F => 16 | 0x10 => 32
  | _ => 0

/-- MX formats. -/
def isMx (c : Nat) : Bool := 0x03 ≤ c && c ≤ 0x08
/-- Integer formats. -/
def isInt (c : Nat) : Bool := (0x09 ≤ c && c ≤ 0x0C) || c == 0x0F || c == 0x10
/-- FP32, FP16 and BF16. -/
def isFp (c : Nat) : Bool := c ≤ 0x02

/-- The floating-point format of a code. -/
def fpOf (c : Nat) : FpFmt := if c = 1 then fp16 else if c = 2 then bf16 else fp32

/-- Decode an element: format, code, and the block scale of an MX format (R78 to R86). PAIR is decoded as H + L. `fx` is the
FX64 exponent. -/
def decodeElem (fmt c scale : Nat) (fx : Int) : Num :=
  match fmt with
  | 0x00 => fp32.decode c
  | 0x01 => fp16.decode c
  | 0x02 => bf16.decode c
  | 0x03 => if scale = 255 ∨ c % 128 = 127 then .nan false else (decodeGrid 4 3 7 c).shift (scale - 127)
  | 0x04 =>
    if scale = 255 then .nan false
    else if c / 4 % 32 = 31 then (if c % 4 = 0 then .inf (c / 128 % 2 == 1) else .nan false)
    else (decodeGrid 5 2 15 c).shift (scale - 127)
  | 0x05 => if scale = 255 then .nan false else (decodeGrid 3 2 3 c).shift (scale - 127)
  | 0x06 => if scale = 255 then .nan false else (decodeGrid 2 3 1 c).shift (scale - 127)
  | 0x07 => if scale = 255 then .nan false else (decodeGrid 2 1 1 c).shift (scale - 127)
  | 0x08 => if scale = 255 then .nan false else Num.ofInt (sext c 8) (scale - 127 - 6)
  | 0x0C => .fin (c % 2 == 1) 1 0
  | 0x0D => if c % 2 ^ 64 = 2 ^ 63 then .nan false else Num.ofInt (sext c 64) fx
  | 0x0E => let h := fp32.decode (c % 2 ^ 32); if h.isNan || h.isInf then h else h.add (fp32.decode (c / 2 ^ 32 % 2 ^ 32))
  | f => Num.ofInt (sext c (fmtBits f))

/-- A decoded MX value above the largest FP32 magnitude saturates and is counted, in either mode (R96). -/
def mxSat (v : Num) (r : Rec) : Num × Rec :=
  match v with
  | .fin n _ _ => if (fp32.maxval false).lt v.abs then (fp32.maxval n, r.addSat 1) else (v, r)
  | _ => (v, r)

/-- The value of an element as a numeric operand (R91, R96): subnormals of FP32, FP16 and BF16 and decoded MX values below
2^−126 are flushed in fast mode; the words of a PAIR are not (log entry 67); what is read is flagged (R111), a signalling NaN in strict mode too (R106). -/
def readElem (strict : Bool) (fmt c scale : Nat) (fx : Int) (r : Rec) : Num × Rec :=
  let v := decodeElem fmt c scale fx
  let r1 := { r with nan := r.nan || v.isNan, infIn := r.infIn || v.isInf, invalid := r.invalid || (strict && v.isSig) }
  if isFp fmt then flushAt (fpOf fmt).emin strict v r1
  else if isMx fmt then let p := flushAt (-126) strict v r1; mxSat p.1 p.2
  else (v, r1)

/-! ## Conversion (R96 to R101) -/

/-- HEXP of a value (R109). -/
def hexpOf (v : Num) : Nat :=
  match v with
  | .fin _ m e => if m = 0 then 0 else (max 1 (min 255 (ilog m e + 127))).toNat
  | _ => 0

/-- Fold a source value into the hint of a record (R110). -/
def Rec.see (r : Rec) (v : Num) : Rec :=
  { r with hexp := max r.hexp (hexpOf v), hnan := r.hnan || v.isNan, hinf := r.hinf || v.isInf }

/-- The 16 bits of a hint (R109). -/
def Rec.hint (r : Rec) : Nat := r.hexp + r.hnan.toNat * 2 ^ 8 + r.hinf.toNat * 2 ^ 9

/-- The 16 B status record (R111). -/
def Rec.pack (r : Rec) : Nat :=
  r.sat + r.flush * 2 ^ 32 + r.hint * 2 ^ 64 + r.nan.toNat * 2 ^ 80 + r.infIn.toNat * 2 ^ 81 + r.ovf.toNat * 2 ^ 82
    + r.invalid.toNat * 2 ^ 83 + r.underflow.toNat * 2 ^ 84 + r.divzero.toNat * 2 ^ 85 + r.empty.toNat * 2 ^ 86

/-- Fold the hint of one record into another's (R110). -/
def foldHint (old : Nat) (r : Rec) : Nat :=
  max (old % 256) r.hexp + ((bits old 8 1 == 1) || r.hnan).toNat * 2 ^ 8 + ((bits old 9 1 == 1) || r.hinf).toNat * 2 ^ 9

/-- Convert into a two's-complement integer of `w` bits (R98, R99). -/
def toInt (w : Nat) (v : Num) (r : Rec) : Int × Rec :=
  let hi : Int := 2 ^ (w - 1) - 1
  let lo : Int := -2 ^ (w - 1)
  match v with
  | .nan _ => (0, ({ r with nan := true }).addSat 1)
  | .inf n => (if n then lo else hi, ({ r with infIn := true }).addSat 1)
  | .fin n m e =>
    let k := signed n (rneAt m e 0)
    if hi < k then (hi, r.addSat 1)
    else if k < lo then (lo, r.addSat 1)
    else (k, if k = 0 ∧ m ≠ 0 then r.addFlush 1 else r)

/-- Convert into INT1 (R99): the bit. -/
def toInt1 (v : Num) (r : Rec) : Nat × Rec :=
  match v with
  | .nan _ => (0, ({ r with nan := true }).addSat 1)
  | .inf n => (n.toNat, ({ r with infIn := true }).addSat 1)
  | .fin n m e =>
    let k := rneAt m e 0
    (n.toNat, if 1 < k then r.addSat 1 else if k = 0 ∧ m ≠ 0 then r.addFlush 1 else r)

/-- Convert into FX64 with exponent `fx` (R86, R98, R99): the 64-bit code. -/
def toFx64 (fx : Int) (v : Num) (r : Rec) : Nat × Rec :=
  match v with
  | .nan _ => (2 ^ 63, { r with nan := true })
  | .inf n => (if n then 2 ^ 63 + 1 else 2 ^ 63 - 1, ({ r with infIn := true }).addSat 1)
  | .fin n m e =>
    let k := rneAt m e fx
    let p : Nat × Rec := if 2 ^ 63 - 1 < k then (2 ^ 63 - 1, r.addSat 1) else (k, if k = 0 ∧ m ≠ 0 then r.addFlush 1 else r)
    (if n ∧ p.1 ≠ 0 then 2 ^ 64 - p.1 else p.1, p.2)

/-- Rounding a value to FP32 saturates it, or gives no finite non-zero value: the low word of its pair is +0 (R87). -/
def loneHigh (strict : Bool) (v : Num) : Bool :=
  let h := roundFp fp32 strict true v {}
  h.1.isNan || h.1.isInf || h.1.isZero || h.2.sat != 0

/-- A normalised pair of an exact value (R87): the 64-bit code, H low. The remainder's own rounding can complete a tie of H, so the sum of
the two words is rounded once more. -/
def toPair (strict : Bool) (v : Num) (r : Rec) : Nat × Rec :=
  let h := roundFp fp32 strict true v r
  if loneHigh strict v then (fp32.encode h.1, h.2)
  else
    let d := v.add h.1.neg
    let l := roundFp fp32 strict false d h.2
    if l.1.isZero then (fp32.encode h.1 + fp32.encode (if d.isZero then Num.zero else l.1) * 2 ^ 32, l.2)
    else
      let x := h.1.add l.1
      let g := roundFp fp32 strict false x l.2
      if loneHigh strict x then (fp32.encode g.1, g.2) else (fp32.encode g.1 + fp32.encode (x.add g.1.neg) * 2 ^ 32, g.2)

/-- Convert a value into one element of a format that is not MX: its code (R96 to R101). -/
def toElem (fmt : Nat) (strict : Bool) (fx : Int) (v : Num) (r : Rec) : Nat × Rec :=
  if isFp fmt then
    let p := roundFp (fpOf fmt) strict true v r
    ((fpOf fmt).encode p.1, p.2)
  else if fmt = 0x0C then toInt1 v r
  else if fmt = 0x0D then toFx64 fx v r
  else if fmt = 0x0E then toPair strict v r
  else
    let p := toInt (fmtBits fmt) v r
    ((p.1 % 2 ^ fmtBits fmt).toNat, p.2)

/-- emax, emin, mantissa bits, exponent bits and bias of an MX element (R80, R100). -/
def mxShape (fmt : Nat) : Int × Int × Nat × Nat × Int :=
  match fmt with
  | 0x03 => (8, -6, 3, 4, 7)
  | 0x04 => (15, -14, 2, 5, 15)
  | 0x05 => (4, -2, 2, 3, 3)
  | 0x06 => (2, 0, 3, 2, 1)
  | 0x07 => (2, 0, 1, 2, 1)
  | _ => (0, 0, 6, 0, 0)

/-- The largest element magnitude written (R77). -/
def mxMax (fmt : Nat) : Num :=
  match fmt with
  | 0x03 => .fin false 448 0
  | 0x04 => .fin false 57344 0
  | 0x05 => .fin false 28 0
  | 0x06 => .fin false 15 (-1)
  | 0x07 => .fin false 6 0
  | _ => .fin false 127 (-6)

/-- Round a magnitude to the element grid, with no upper clamp (R100). -/
def gridRound (fmt : Nat) (m : Nat) (e : Int) : Nat × Int :=
  let (_, emin, mb, _, _) := mxShape fmt
  if fmt = 0x08 then (rneAt m e (-6), -6)
  else if m = 0 then (0, 0)
  else
    let q := max (ilog m e) emin - mb
    (rneAt m e q, q)

/-- The code of an element on the grid (R80, R81). -/
def mxCode (fmt : Nat) (n : Bool) (m : Nat) (e : Int) : Nat :=
  if fmt = 0x08 then
    let k := rneAt m e (-6)
    if n && k != 0 then 256 - k else k
  else
    let (_, _, mb, eb, bias) := mxShape fmt
    encodeGrid eb mb bias n m e

/-- Convert a block into an MX format (R100): the scale code and the element codes; a masked position is none (R156). -/
def mxBlock (fmt : Nat) (vs : List (Option Num)) (r : Rec) : Nat × List Nat × Rec :=
  let there := vs.filterMap id
  let noNan := fmt ≥ 0x05
  if noNan && there.any Num.isNan then (255, vs.map fun _ => 0, { r with nan := true })
  else
    let amax := there.foldl (fun a v =>
      match v with
      | .fin _ m e => if a.lt (.fin false m e) then Num.fin false m e else a
      | _ => a) Num.zero
    let (emax, _, _, _, _) := mxShape fmt
    let x : Int :=
      match amax with
      | .fin _ m e =>
        if m = 0 then -127
        else
          let x0 := ilog m e - emax
          let g := gridRound fmt m (e - x0)
          let x1 := if (mxMax fmt).lt (.fin false g.1 g.2) then x0 + 1 else x0
          min (max x1 (-127)) 127
      | _ => -127
    let out := vs.foldl (fun (p : List Nat × Rec) v =>
      match v with
      | none => (p.1 ++ [0], p.2)
      | some (.nan _) => (p.1 ++ [0x7F], { p.2 with nan := true })
      | some (.inf n) =>
        match mxMax fmt with
        | .fin _ m e => (p.1 ++ [mxCode fmt n m e], ({ p.2 with infIn := true }).addSat 1)
        | _ => p
      | some (.fin n m e) =>
        let g := gridRound fmt m (e - x)
        let big := (mxMax fmt).lt (.fin false g.1 g.2)
        match (if big then mxMax fmt else Num.fin false g.1 g.2) with
        | .fin _ gm ge =>
          let r1 := if big then p.2.addSat 1 else p.2
          (p.1 ++ [mxCode fmt n gm ge], if gm = 0 ∧ m ≠ 0 then r1.addFlush 1 else r1)
        | _ => p) ([], r)
    ((x + 127).toNat, out.1, out.2)

/-! ## Arithmetic (R90 to R95, R106) -/

/-- Flags of an FP32 operation's operands and exact result (R106). DESIGN CHOICE (log entry 97): 0 × ∞ with a quiet NaN addend, where IEEE
754-2019 leaves INVALID to the implementation, sets none. -/
def flagArith (strict : Bool) (ops : List Num) (v : Num) (r : Rec) : Rec :=
  if strict && (ops.any Num.isSig || (v.isNan && !ops.any Num.isNan)) then { r with invalid := true } else r

/-- Flush the subnormal FP32 operands of a fast operation (R91). -/
def flushOps (strict : Bool) : List Num → Rec → List Num × Rec
  | [], r => ([], r)
  | v :: t, r =>
    let p := flushAt (-126) strict v r
    let q := flushOps strict t p.2
    (p.1 :: q.1, q.2)

/-- An FP32 result from its exact value. -/
def fpResult (strict : Bool) (ops : List Num) (v : Num) (r : Rec) : Num × Rec :=
  roundFp fp32 strict false v (flagArith strict ops v r)

/-- FP32 sum of two values already flushed. -/
def fpAdd (strict : Bool) (a b : Num) (r : Rec) : Num × Rec := fpResult strict [a, b] (a.add b) r

/-- FP32 product of two values already flushed. -/
def fpMul (strict : Bool) (a b : Num) (r : Rec) : Num × Rec := fpResult strict [a, b] (a.mul b) r

/-- Maximum or minimum (R93, R94). -/
def numMax (isMin : Bool) (a b : Num) : Num :=
  if a.isNan then (if b.isNan then .nan false else b)
  else if b.isNan then a
  else if a.eq b then (if a.sign == isMin then a else b)
  else if a.lt b then (if isMin then a else b)
  else if isMin then b else a

/-- Pairwise tree over positions, an absent term passing the other through (R117, R168, R173). -/
def treeLevel (f : Num → Num → Rec → Num × Rec) : List (Option Num) → Rec → List (Option Num) × Rec
  | a :: b :: t, r =>
    let p : Option Num × Rec :=
      match a, b with
      | some x, some y => let q := f x y r; (some q.1, q.2)
      | some x, none => (some x, r)
      | none, y => (y, r)
    let q := treeLevel f t p.2
    (p.1 :: q.1, q.2)
  | l, r => (l, r)

/-- The whole tree, `n` levels. -/
def tree (f : Num → Num → Rec → Num × Rec) : Nat → List (Option Num) → Rec → Option Num × Rec
  | 0, l, r => (l.headD none, r)
  | n + 1, l, r => let p := treeLevel f l r; tree f n p.1 p.2

/-- Levels of a tree over `n` positions. -/
def levels (n : Nat) : Nat := if n ≤ 1 then 0 else Nat.log2 (n - 1) + 1

/-! ## Function operations (R171) -/

/-- 2^(2^−i) with 96 fraction bits, by repeated square roots. -/
def rootChain : Nat → Nat → List Nat
  | 0, _ => []
  | n + 1, v => let w := Nat.sqrt (v * 2 ^ 96); w :: rootChain n w

/-- 2^f for f = k / 2^64 with 96 fraction bits. -/
def exp2Frac (k : Nat) : Nat :=
  ((rootChain 64 (2 ^ 97)).zipIdx).foldl (fun a p => if k.testBit (63 - p.2) then a * p.1 / 2 ^ 96 else a) (2 ^ 96)

/-- 2^a for a finite a, closely. -/
def exp2Near (n : Bool) (m : Nat) (e : Int) : Num :=
  let fix : Int := signed n (if 0 ≤ e + 64 then m * 2 ^ (e + 64).toNat else m / 2 ^ (-(e + 64)).toNat)
  let i := fix / 2 ^ 64
  let k := (fix % 2 ^ 64).toNat
  .fin false (exp2Frac k) (i - 96)

/-- Bits of log2 of y / 2^96 in [1, 2). -/
def log2Bits : Nat → Nat → Nat → Nat
  | 0, _, acc => acc
  | n + 1, y, acc =>
    let z := y * y / 2 ^ 96
    if 2 ^ 97 ≤ z then log2Bits n (z / 2) (2 * acc + 1) else log2Bits n z (2 * acc)

/-- log2 of a positive finite number, closely. -/
def log2Near (m : Nat) (e : Int) : Num :=
  let x := ilog m e
  let y := if Nat.log2 m ≤ 96 then m * 2 ^ (96 - Nat.log2 m) else m / 2 ^ (Nat.log2 m - 96)
  Num.ofInt (x * 2 ^ 80 + (log2Bits 80 y 0 : Nat)) (-80)

/-- 1 / a, closely. -/
def rcpNear (n : Bool) (m : Nat) (e : Int) : Num := .fin n (2 ^ 200 / m) (-e - 200)

/-- 1 / √a, closely. -/
def rsqNear (m : Nat) (e : Int) : Num :=
  let m' := if e % 2 = 0 then m else 2 * m
  let e' := if e % 2 = 0 then e else e - 1
  .fin false (Nat.sqrt (2 ^ 400 / m')) (-(e' / 2) - 200)

/-- Whether a candidate lies within the error bound of R171: `b` ulp of the correctly rounded result, or, for LOG2 of a value in
[0.5, 2], 2^−22. -/
def within (near c : Num) (b : Nat) (loose : Bool) : Bool :=
  match near, c with
  | .fin _ m e, .fin _ _ _ =>
    let u := if m = 0 then -149 else max (ilog m e) (-126) - 23
    let d := (c.add near.neg).abs
    !((Num.fin false b u).lt d) || (loose && !((Num.fin false 1 (-22)).lt d))
  | _, _ => false

/-- The result of a function operation: the value that `Config.approx` gives (log entry 7) where it keeps the bound, else the
rounded one. In fast mode a value that rounds to no subnormal is not flushed, and in strict mode a tiny result is inexact where it is not
the value itself. -/
def approxResult (op code b : Nat) (loose strict : Bool) (near : Num) (r : Rec) : Num × Rec :=
  let c := fp32.decode (Config.approx op code strict.toNat % 2 ^ 32)
  let small := tiny (roundFp fp32 true false near {}).1 (-126)
  let v := if within near c b loose && (strict || small || !tiny c (-126)) then c else near
  let p := roundFp fp32 strict false v r
  (p.1, if strict && (tiny p.1 (-126) || p.1.isZero) && !p.1.eq near then { p.2 with underflow := true } else p.2)

/-- EXP2, LOG2, RCP, RSQ, numbered 0..3, of an FP32 value (R171). -/
def funcOp (op : Nat) (strict : Bool) (a : Num) (r : Rec) : Num × Rec :=
  let code := fp32.encode a
  let inval : Rec := if strict then { r with invalid := true, nan := true } else { r with nan := true }
  match a with
  | .nan _ => (.nan false, flagArith strict [a] a { r with nan := true })
  | .inf n =>
    match op with
    | 0 => (if n then Num.zero else .inf false, r)
    | 1 => if n then (.nan false, inval) else (.inf false, r)
    | 2 => (.fin n 0 0, r)
    | _ => if n then (.nan false, inval) else (Num.zero, r)
  | .fin n m e =>
    match op with
    | 0 =>
      if !n && m != 0 && decide (7 ≤ ilog m e) then
        (if strict then (.inf false, { r with ovf := true }) else (fp32.maxval false, r.addSat 1))
      else if n && decide (20 ≤ ilog m e) then
        (Num.zero, if strict then { r with underflow := true } else r.addFlush 1)
      else if !strict && (Num.fin n m e).lt (Num.ofInt (-126)) then (Num.zero, r.addFlush 1)
      else approxResult 0 code 2 false strict (exp2Near n m e) r
    | 1 =>
      if m = 0 then (if strict then (.inf true, r) else (fp32.maxval true, r.addSat 1))
      else if n then (.nan false, inval)
      else
        let mid := !((Num.fin false m e).lt (.fin false 1 (-1))) && !((Num.fin false 1 1).lt (.fin false m e))
        approxResult 1 code 2 mid strict (log2Near m e) r
    | 2 =>
      if m = 0 then (if strict then (.inf n, { r with divzero := true }) else (fp32.maxval n, r.addSat 1))
      else approxResult 2 code 1 false strict (rcpNear n m e) r
    | _ =>
      if m = 0 then (if strict then (.inf n, { r with divzero := true }) else (fp32.maxval n, r.addSat 1))
      else if n then (.nan false, inval)
      else approxResult 3 code 2 false strict (rsqNear m e) r

end Sys2Proof.Machine
end

