-- ==== Sys2Proof/Machine/Units.lean ====
section
/-! DEFINITION. The clusters' units by number, sync objects and signals (R219 to R228), errors and the discard of a block
(R333 to R340). -/

namespace Sys2Proof.Machine

/-! ## Parts of a cluster -/

def State.slot (s : State) (site n : Nat) : SlotSt := Store.get {} (s.cl site).slots n
def State.modSlot (s : State) (site n : Nat) (f : SlotSt → SlotSt) : State :=
  s.modCl site fun c => { c with slots := Store.upd {} c.slots n f }
def State.modBlk (s : State) (site n : Nat) (f : Blk → Blk) : State :=
  s.modSlot site n fun x => { x with blk := f x.blk }
def State.arr (s : State) (site a : Nat) : Arr := Store.get {} (s.cl site).arrs a
def State.modArr (s : State) (site a : Nat) (f : Arr → Arr) : State :=
  s.modCl site fun c => { c with arrs := Store.upd {} c.arrs a f }
def State.eng (s : State) (site e : Nat) : Eng := Store.get {} (s.cl site).engs e
def State.modEng (s : State) (site e : Nat) (f : Eng → Eng) : State :=
  s.modCl site fun c => { c with engs := Store.upd {} c.engs e f }
def State.ctx (s : State) (site d : Nat) : Ctx := Store.get {} (s.cl site).ctxs d
def State.modCtx (s : State) (site d : Nat) (f : Ctx → Ctx) : State :=
  s.modCl site fun c => { c with ctxs := Store.upd {} c.ctxs d f }

/-- Slot states (R55). -/
abbrev slIdle : Nat := 0
abbrev slWait : Nat := 1
abbrev slRun : Nat := 2
abbrev slStall : Nat := 3
abbrev slCommit : Nat := 4
abbrev slLate : Nat := 5
abbrev slHalt : Nat := 6
abbrev slFault : Nat := 7

def State.slotState (s : State) (site n : Nat) : Nat := s.fld (Reg.SLOT_STATUS_STATE site n)
def State.setSlotState (s : State) (site n v : Nat) : State := s.setFld (Reg.SLOT_STATUS_STATE site n) v

/-- Show a slot RUNNING, STALLED or COMMITTING; a LATE slot shows LATE instead (R57). -/
def State.showSlot (s : State) (site n v : Nat) : State := s.setSlotState site n (if (s.slot site n).late then slLate else v)

/-- The slot's block has ended and has not committed (R46). -/
def State.committing (s : State) (site n : Nat) : Bool :=
  s.slotState site n == slCommit || (s.slotState site n == slLate && (s.slot site n).ended)

/-- The control core that runs a slot (R16). -/
def coreUnit (site n : Nat) : Nat := if isVector site && 2 ≤ n then 11 else 0

/-- Landing states (R187). -/
abbrev ldEmpty : Nat := 0
abbrev ldFilling : Nat := 1
abbrev ldFull : Nat := 2
abbrev ldDraining : Nat := 3

def State.land (s : State) (site n : Nat) : Nat := s.fld (Reg.LAND_STATE_STATE site n)
def State.setLand (s : State) (site n v : Nat) : State := s.setFld (Reg.LAND_STATE_STATE site n) v
/-- A writer may bind the slot (R188). -/
def State.landFree (s : State) (site n : Nat) : Bool := s.land site n == ldEmpty && !s.flag (Reg.LAND_STATE_HOLD site n)
/-- A writer binds the slot. -/
def State.landBind (s : State) (site n unit : Nat) : State :=
  (s.setLand site n ldFilling).setFld (Reg.LAND_STATE_WRITER site n) unit
/-- The slot's fill completes (R189). -/
def State.landFill (s : State) (site n : Nat) : State :=
  (s.setLand site n ldFull).setFld (Reg.LAND_STATE_FILLS site n) (s.fld (Reg.LAND_STATE_FILLS site n) + 1)

/-- Logical column of the cluster at a site (R18). -/
def State.lcol (s : State) (site : Nat) : Nat :=
  if isVector site then site % 8
  else
    let j := s.fld (Reg.CL_INFO_LOGICAL site) - 5 * (site / 8)
    if j < 3 then j else j + 2

/-- The site of a logical place, if a cluster stands there. -/
def State.siteAt (s : State) (row col : Nat) : Option Nat :=
  if row < 8 ∧ col < 7 then
    ((List.range 8).map (8 * row + ·)).find? fun t => s.active t && s.lcol t == col
  else none

/-- The logical neighbour in direction 0 N, 1 E, 2 S, 3 W (R18). -/
def State.neighbour (s : State) (site d : Nat) : Option Nat :=
  let r := site / 8
  let c := s.lcol site
  match d with
  | 0 => if r = 0 then none else s.siteAt (r - 1) c
  | 1 => s.siteAt r (c + 1)
  | 2 => s.siteAt (r + 1) c
  | _ => if c = 0 then none else s.siteAt r (c - 1)

/-! ## The mesh (R60, R63) -/

/-- The direction of the first hop from a site toward another (R63): along the row to its logical column, then along that. -/
def State.hopDir (s : State) (site t : Nat) : Nat :=
  if s.lcol site < s.lcol t then 1 else if s.lcol t < s.lcol site then 3 else if site / 8 < t / 8 then 2 else 0

/-- The site that a Gulto address names. -/
def msgSite (m : GMsg) : Nat := bits m.dst.toNat 4 6

/-- A message joins those that wait at a site to cross its link `d` on their channel. -/
def State.netPush (s : State) (site d : Nat) (m : NMsg) : State :=
  { s with tile := { s.tile with net := Store.upd [] s.tile.net ((site * 4 + d) * 16 + m.msg.vch.val) (· ++ [m]) } }

/-- A message has reached a cluster of this tile. -/
def State.netLand (s : State) (path : Nat) (m : NMsg) : State :=
  { s with tile := { s.tile with arrived := s.tile.arrived ++ [{ m with path := path }] } }

/-- The site under a vertical port (R444, log entry 96). -/
def portSite (p : Nat) : Nat := 16 * (p / 2) + 3 + p % 2

/-- The site from which messages routed to the vertical port leave the mesh: that of the port which carries port 0's granules (log entry
96). -/
def State.downSite (s : State) : Nat := portSite (s.fld (Reg.VPORT_STATUS_REMAP 0))

/-- A message on its way to the vertical port waits at a site, or has reached the port's and leaves (R60, R63). -/
def State.netDown (s : State) (site : Nat) (g : NMsg) : State :=
  if s.downSite = site ∨ s.active s.downSite = false ∨ s.active site = false then s.send g.msg
  else s.netPush site (s.hopDir site s.downSite) g

/-- A message that a cluster's unit sends (R63, R199): to its own cluster at once; to another over the mesh; to another tile over the
mesh toward the edge or vertical port that R390 names. One to an agent of this tile that belongs to no transfer goes there directly. DESIGN
CHOICE (log entry 96): toward an edge it goes straight in that edge's direction. -/
def State.netSend (s : State) (site : Nat) (m : NMsg) : State :=
  let g := { m with msg := plainMsg m.msg }
  match s.route m.msg.dst.toNat with
  | .self =>
    if s.nobody g.msg ∨ (bits m.msg.dst.toNat 25 1 = 1 ∧ m.xfer.isNone) then s.deliverHere g.msg
    else if m.goal = site ∨ s.active m.goal = false ∨ s.active site = false then s.netLand (8 + site) g
    else s.netPush site (s.hopDir site m.goal) g
  | .edge e => s.netPush site e g
  | .vport => s.netDown site g
  | .none => s.send m.msg

/-- A message crosses link `d` of a site in a slot. DESIGN CHOICE (log entry 96): one toward an edge keeps its direction until no cluster lies
ahead. -/
def State.netHop (s : State) (site d : Nat) (hop : Nat × Nat) (m : NMsg) : State :=
  let g := { m with hop := hop }
  match s.route m.msg.dst.toNat, s.neighbour site d with
  | .self, some t => if t = m.goal then s.netLand (512 + 4 * site + d) g else s.netPush t (s.hopDir t m.goal) g
  | .self, none => s.netLand (512 + 4 * site + d) g
  | .edge _, some t => s.netPush t d g
  | .edge _, none => s.edgeSendOf d m
  | .vport, some t => s.netDown t g
  | _, _ => s.send m.msg

/-- Whether an operation is one of a block. -/
def Op.of (o : Op) (n blk : Nat) : Bool := o.slot == n && o.blk == blk

/-- Operations of a block in progress in some unit; a fill or a copy runs whole in the command that completes it. -/
def Cluster.running (c : Cluster) (n blk : Nat) : Bool :=
  c.arrs.any (fun p => (p.2.cur.toList ++ p.2.past ++ p.2.inits).any fun r => r.op.of n blk)
    || c.engs.any (fun p => (p.2.cur.map fun r => r.op.of n blk).getD false)

/-- Operations of a block not yet completed. -/
def Cluster.opsLeft (c : Cluster) (n blk : Nat) : Bool :=
  c.running n blk || c.arrs.any (fun p => p.2.queue.any fun o => o.of n blk) || c.engs.any (fun p => p.2.queue.any fun o => o.of n blk)
    || c.fills.any (fun o => o.of n blk) || c.xcopies.any fun o => o.of n blk

/-- Show the queue lengths of an array and of an engine (R151, R181), and of the transposer (R218). -/
def State.showQueues (s : State) (site : Nat) : State :=
  let s1 := (List.range 4).foldl (fun s a => s.setFld (Reg.ARR_STATUS_QUEUED site a) (s.arr site a).queue.length) s
  let s2 := (List.range 2).foldl (fun s e => s.setFld (Reg.VE_STATUS_QUEUED site e) (s.eng site e).queue.length) s1
  s2.setFld (Reg.FE_STATUS_XC_QUEUED site) (min 16 ((s2.cl site).xline.length - 1))

/-! ## Issue queues and the batcher (R51, R68 to R70) -/

/-- A queue accepts one more operation of a slot: at most 16 wait, at most 8 of one slot (R51). -/
def roomIn (q : List Op) (n : Nat) : Bool := q.length < 16 && (q.filter fun o => o.slot == n).length < 8

/-- The arrays of a mask. -/
def maskOf (m : Nat) : List Nat := (List.range 4).filter m.testBit

/-- The operation's serial number is used. -/
def State.bump (s : State) (site : Nat) : State := s.modCl site fun c => { c with nextOp := c.nextOp + 1 }

/-- The array on which operations named for array `a` run (`CL_REDIRECT.MAP`, R343). -/
def State.onArray (s : State) (site a : Nat) : Nat := bits (s.fld (Reg.CL_REDIRECT_MAP site)) (2 * a) 2

/-- Queue an operation in every array of its mask; none where one of them has no room. -/
def State.queueArr (s : State) (site : Nat) (o : Op) : Option State :=
  let as := maskOf o.f7
  if as.all fun a => roomIn (s.arr site a).queue o.slot then
    let s1 := as.foldl (fun s a => s.modArr site a fun x => { x with queue := x.queue ++ [o] }) (s.bump site)
    some (s1.showQueues site)
  else none

/-- Release a queue as a stream charged to `BATCH_CFG.SLOT`; none where the array's issue queue has no room. -/
def State.batchRelease (s : State) (site a : Nat) : Option State :=
  let rows := (s.arr site a).batch
  if rows.isEmpty then some s
  else
    let n := s.fld (Reg.BATCH_CFG_SLOT site)
    let o : Op := { id := (s.cl site).nextOp, kind := .astream, slot := n, blk := (s.slot site n).blk.id, f7 := 2 ^ a
                    desc := s.fld (Reg.BATCH_DESC_ADDR site a), arg := rows.length, batch := some rows }
    (s.queueArr site o).map fun s1 =>
      let s2 := s1.modArr site a fun x => { x with batch := [] }
      ((s2.setFld (Reg.BATCH_STATUS_ROWS site a) 0).setFld (Reg.BATCH_STATUS_WAITED site a) 0).count (Reg.BATCH_STATUS_RELEASED site a) 1

/-- An issue queue has shrunk: a full batch that found no room is released (R69). -/
def State.shrunk (s : State) (site : Nat) : State :=
  (List.range 4).foldl (fun s a => if 128 ≤ (s.arr site a).batch.length then (s.batchRelease site a).getD s else s) (s.showQueues site)

/-- Drop the unstarted operations of a block from every queue (R337). -/
def State.dropOps (s : State) (site n blk : Nat) : State :=
  let keep (l : List Op) : List Op := l.filter fun o => !o.of n blk
  let s1 := s.modCl site fun c => { c with
    arrs := c.arrs.map fun (p : Nat × Arr) => (p.1, { p.2 with queue := keep p.2.queue })
    engs := c.engs.map fun (p : Nat × Eng) => (p.1, { p.2 with queue := keep p.2.queue })
    fills := keep c.fills
    xcopies := keep c.xcopies
    xline := c.xline.filter fun p => p.1 != 64 || (keep c.xcopies).any fun o => o.id == p.2 }
  s1.shrunk site

/-! ## Landing slots and banks that several ask for (R183, R188) -/

/-- Chunks of a vector operation (R155). -/
def Op.chunks (o : Op) : Nat := (o.vl + 1023) / 1024

/-- The vector operation's next act is to write: chunk c + 1 is read before chunk c is written (R176). -/
def VRun.writing (r : VRun) : Bool := 2 ≤ r.pends.length || (!r.pends.isEmpty && r.op.chunks ≤ r.next)

/-- A vector engine with a unit number below `u` waits on the slot, to write it or to read it. -/
def State.engineFirst (s : State) (site l u : Nat) (write : Bool) : Bool :=
  (List.range 2).any fun e =>
    decide (5 + e < u) && ((s.eng site e).stall.map fun p => p.1 == l).getD false
      && (((s.eng site e).cur.map VRun.writing).getD false == write)

/-- A unit with a number below `u` waits to read the slot, and binds it first (R188). -/
def State.readerFirst (s : State) (site l u : Nat) : Bool :=
  (List.range 4).any (fun a => decide (1 + a < u) && ((s.arr site a).stall.map fun p => p.1 == l).getD false)
    || s.engineFirst site l u false

/-- A unit binds a FULL slot as its reader, or finds that it has bound it; none where it stalls. -/
def State.readBind (s : State) (site l u : Nat) (mine : Bool) : Option State :=
  if mine then some s
  else if s.land site l = ldFull ∧ s.readerFirst site l u = false then some (s.setLand site l ldDraining) else none

/-- Requests for lines of the slice in one FCLK cycle: each bank serves one a cycle, and the losers' cycles count (R182, R183, log entry
68). -/
def State.bankClash (s : State) (site : Nat) (ls : List Nat) : State :=
  (List.range (bankCount site)).foldl (fun s b =>
    let k := (ls.filter fun l => l % bankCount site == b).length
    if k < 2 then s else s.count (Reg.BANK_CONF_COUNT site b) (k * (k - 1) / 2)) s

/-! ## Objects (R219 to R228) -/

/-- The result of a change, clamped (R222). -/
def clampObj (v : Int) : Nat := if v < 0 then 0 else min 0xFFFFFF v.toNat

/-- Add to a saturating 32-bit tally. -/
def tally (a n : Nat) : Nat := min 0xFFFFFFFF (a + n)

/-- Record a change of an object (R238). -/
def ObjRec.change (r : ObjRec) (inc : Int) (src beat : Nat) : ObjRec :=
  { src := src, beat := beat
    produced := if 0 < inc then tally r.produced inc.toNat else r.produced
    consumed := if inc < 0 then tally r.consumed inc.natAbs else r.consumed }

/-- Record the changes of one cycle, in order. -/
def ObjRec.changes (r : ObjRec) (incs : List Int) (src beat : Nat) : ObjRec := incs.foldl (fun r i => r.change i src beat) r

/-- Changes of a cluster object's committed value in one cycle: summed exactly, then clamped (R222, R238). -/
def State.objSum (s : State) (site o : Nat) (incs : List Int) (src beat : Nat) : State :=
  let v : Int := incs.foldl (· + ·) (s.fld (Reg.SYNC_VAL_VALUE site o) : Int)
  let s1 := s.setFld (Reg.SYNC_VAL_VALUE site o) (clampObj v)
  let s2 := s1.modCl site fun c => { c with recs := Store.upd {} c.recs o fun r => r.changes incs src beat }
  let log (s : State) (reason : Nat) : State := s.logEvent 0x23 reason (s.unitAddr site 9) (o + src * 2 ^ 32)
  if 0xFFFFFF < v then log (s2.setFld64 (Reg.SYNC_OVF site) o 1 1) 0x0802
  else if v < 0 then log (s2.setFld64 (Reg.SYNC_UDF site) o 1 1) 0x0803
  else s2

/-- One change of a cluster object. -/
def State.objAdd (s : State) (site o : Nat) (inc : Int) (src beat : Nat) : State := s.objSum site o [inc] src beat

/-- Changes of a tile object in one cycle. -/
def State.tobjSum (s : State) (o : Nat) (incs : List Int) (src beat : Nat) : State :=
  let v : Int := incs.foldl (· + ·) (s.fld (Reg.TOBJ_VAL_VALUE o) : Int)
  let s1 := s.setFld (Reg.TOBJ_VAL_VALUE o) (clampObj v)
  let s2 := { s1 with tile := { s1.tile with recs := Store.upd {} s1.tile.recs o fun r => r.changes incs src beat } }
  let log (s : State) (reason : Nat) : State := s.logEvent 0x23 reason (s.agentAddr 1) (o + 2 ^ 14 + src * 2 ^ 32)
  if 0xFFFFFF < v then log (s2.setBits (Reg.TOBJ_FLAG (o / 16)) (2 ^ (o % 16))) 0x0802
  else if v < 0 then log (s2.setBits (Reg.TOBJ_FLAG (o / 16)) (2 ^ (o % 16 + 16))) 0x0803
  else s2

/-- One change of a tile object. -/
def State.tobjAdd (s : State) (o : Nat) (inc : Int) (src beat : Nat) : State := s.tobjSum o [inc] src beat

/-- An increment is no 24-bit two's-complement number (R222 allows ±(2^24 − 1)). -/
def wideInc (inc : Int) : Bool := decide (inc < -2 ^ 23) || decide (2 ^ 23 ≤ inc)

/-- A SIGNAL message (R386): reference, increment, the sender's beat; its source in the first data unit, and whether the increment's sign is
the other one than bit 23 of its low 24 bits says (log entry 21). -/
def State.sigMsg (s : State) (dst ref : Nat) (inc : Int) (src vch : Nat) : GMsg :=
  { vch := Fin.ofNat 16 vch, ty := 6, dst := BitVec.ofNat 32 dst
    aux := BitVec.ofNat 64 (ref + (inc % 2 ^ 24).toNat * 2 ^ 16 + s.beatLow % 2 ^ 24 * 2 ^ 40)
    data := leBytes 16 (src % 2 ^ 32 + (wideInc inc).toNat * 2 ^ 32) }

/-- The increment that a SIGNAL message carries (R222, log entry 21). -/
def sigInc (m : GMsg) : Int :=
  let v := sext (bits m.aux.toNat 16 24) 24
  if bits (leNat (m.data.take 5)) 32 1 = 0 then v else if v < 0 then v + 2 ^ 24 else v - 2 ^ 24

/-- Release a signal to its object (R220, R221, R228): one that announces no data leaves the cluster on VCH0. -/
def State.deliver (s : State) (site : Nat) (g : Sig) : State :=
  let o := g.ref % 64
  match bits g.ref 14 2 with
  | 0 => s.objAdd site o g.inc g.src s.beatLow
  | 1 =>
    if bits g.ref 11 1 = 0 then s.tobjAdd (g.ref % 256) g.inc g.src s.beatLow
    else
      let dst := 1 + bits g.ref 8 3 * 2 ^ 10 + s.fld Reg.PKG_ID_PKG * 2 ^ 13 + 2 ^ 25
      s.netSend site { msg := s.sigMsg dst (g.ref % 256 + 2 ^ 14) g.inc g.src 0 }
  | 3 => s.netSend site { msg := s.sigMsg g.dst o g.inc g.src 0, goal := bits g.dst 4 6 }
  | _ => s

/-- A block is in progress, uncommitted. -/
def State.open_ (s : State) (site n blk : Nat) : Bool := blk != 0 && (s.slot site n).blk.id == blk

/-- A completion signal of an operation (R223): to the pending delta, held, or sent. -/
def State.opSignal (s : State) (site n blk : Nat) (ref inc unit : Nat) : State :=
  let g : Sig := { ref := ref, inc := inc, src := s.unitAddr site unit }
  if s.open_ site n blk then
    if bits ref 14 2 = 0 then
      s.modBlk site n fun b => { b with deltas := Store.upd 0 b.deltas (ref % 64) (· + (inc : Int)) }
    else s.modBlk site n fun b => { b with held := b.held ++ [g] }
  else s.deliver site g

/-- The committed value of an object by its reference (SCOPE 0, or 1 of the own tile). -/
def State.refValue (s : State) (site ref : Nat) : Nat :=
  if bits ref 14 2 = 0 then s.fld (Reg.SYNC_VAL_VALUE site (ref % 64)) else s.fld (Reg.TOBJ_VAL_VALUE (ref % 256))

/-- The value that a task slot sees (R224). -/
def State.seen (s : State) (site n ref : Nat) : Int :=
  if bits ref 14 2 = 0 then (s.refValue site ref : Int) + Store.get 0 (s.slot site n).blk.deltas (ref % 64)
  else s.refValue site ref

/-- A reference to an object of the own cluster or tile by its object alone: TILE does not count where TSEL is 0 (R220). -/
def sameObj (ref : Nat) : Nat := if bits ref 14 2 = 1 then ref % 256 + 2 ^ 14 else ref

/-- The bits of a reference that must be zero, and the object range (R220). -/
def refOk (ref : Nat) : Bool :=
  match bits ref 14 2 with
  | 0 => bits ref 6 8 == 0 && ref % 64 < 48
  | 1 => bits ref 12 2 == 0
  | 2 => bits ref 6 8 == 0
  | _ => bits ref 6 8 == 0 && ref % 64 < 48

/-- A SYNC reference of an array, vector, fill or copy descriptor, and of a LOAD or STORE arm (R221). -/
def syncOk (ref : Nat) : Bool := refOk ref && bits ref 14 2 < 2
/-- A SYNC reference of a REMOTE arm; a reference of BZ.WAIT or BZ.DEP. -/
def ownOk (ref : Nat) : Bool := syncOk ref && (bits ref 14 2 == 0 || bits ref 11 1 == 0)

/-! ## Errors (R333 to R338) -/

/-- First action of a class as a level (R333, R344); 0 where none. -/
def classLevel (c : Nat) : Nat :=
  if c = 0x01 ∨ c = 0x05 ∨ c = 0x06 ∨ c = 0x0C then 1 else if c = 0x02 then 0 else if c = 0x0E then 4 else 2

/-- An error now, charged to no block. -/
def State.perr (s : State) (cls : Nat) (site : Option Nat) (unit : TestUnit) (source : Nat) : PErr :=
  { cls := cls, site := site, unit := unit, source := source, beat := s.beatLow, step := (s.rd Reg.TILE_STEP).toNat
    attempt := s.fld Reg.ERR_STEP_ATTEMPT, level := classLevel cls, ready := true }

/-- An error of a unit of a cluster. -/
def State.clErr (s : State) (cls site unit : Nat) : PErr :=
  s.perr cls (some site) (.unit (Fin.ofNat 64 site) (Fin.ofNat 16 unit)) (s.unitAddr site unit)

/-- Charge an error to the block in progress of a slot, if there is one with this number (R337). -/
def State.charge (s : State) (e : PErr) (site n blk : Nat) : PErr :=
  if s.open_ site n blk then { e with slot := n, blk := blk, blockId := (s.slot site n).blk.blockId, ready := false } else { e with slot := n }

/-- A swap can still be made in a cluster's region (R344). -/
def State.canSwap (s : State) (site : Nat) : Bool := !isVector site && !s.flag (Reg.REGION_MAP_NO_SPARE (site / 8))

/-- The lanes of an edge in service go under test (R401), once a change of lanes that it announced is made: far-end where the partner supports
it, else near-end. What waits for the edge stays in its queue. -/
def State.edgeTest (s : State) (e : Nat) : State :=
  if s.edgeUp e && !(s.edge e).plans.any (fun p => p.own) then
    (s.setFld (Reg.LINK_STATUS_STATE e) 5).modEdge e fun x => { x with test := if s.peerBit e 51 then 2 else 1 }
  else s

/-- A vertical port that is UP goes under test (R401): what it carries waits, and no other port takes its granules. -/
def State.portTest (s : State) (p : Nat) : State :=
  if s.fld (Reg.VPORT_STATUS_STATE p) = 1 then
    { s.setFld (Reg.VPORT_STATUS_STATE p) 2 with tile := { s.tile with portTest := s.tile.portTest ||| (1#8 <<< p) } }
  else s

/-- Show FAULT in a unit's status, or take an edge or a port under test (R337, R401). -/
def State.showFault (s : State) (u : TestUnit) : State :=
  match u with
  | .unit c n =>
    if 1 ≤ n.val ∧ n.val ≤ 4 then s.setFld (Reg.ARR_STATUS_STATE c (n.val - 1)) 6
    else if n.val = 5 ∨ n.val = 6 then s.setFld (Reg.VE_STATUS_STATE c (n.val - 5)) 6
    else s
  | .bank _ _ => s
  | .edge e => s.edgeTest e
  | .vport p => s.portTest p
  | .adder => s

/-- An error that stands already: the same finding of the same unit, for the same block, before its action (log entry 22). -/
def PErr.same (e f : PErr) : Bool :=
  e.cls == f.cls && e.site == f.site && e.unit == f.unit && e.source == f.source && e.slot == f.slot && e.blk == f.blk && e.reason == f.reason
    && e.detail == f.detail && e.context == f.context && e.landing == f.landing

/-- An error is detected (R337, R338, R344, R350): its window opens or rises a level, its block does not commit. -/
def State.raise (s : State) (e : PErr) : State :=
  match e.site with
  | none => ({ s with tile := { s.tile with errs := s.tile.errs ++ [e] } }).showFault e.unit
  | some c =>
    if e.blk ≠ 0 ∧ s.tile.errs.any e.same then s
    else
      let faults := min 7 (s.fld (Reg.CL_ERR_STATUS_FAULTS_STEP c) + 1)
      let was := if s.fld (Reg.CL_ERR_STATUS_WINDOW c) = 0 then 0 else s.fld (Reg.CL_ERR_STATUS_LEVEL c) + 1
      let quar := decide (3 ≤ faults) && decide (tsRunning ≤ s.ts)
      let l0 := max e.level (max was (if quar then 3 else 0))
      let lvl := if 3 ≤ l0 ∧ !s.canSwap c then 4 else min 4 l0
      let s1 := ((s.setFld (Reg.CL_ERR_STATUS_FAULTS_STEP c) faults).setFld (Reg.CL_ERR_STATUS_LEVEL c) lvl)
      let s2 := if s.fld (Reg.CL_ERR_STATUS_WINDOW c) = 0 then s1.setFld (Reg.CL_ERR_STATUS_WINDOW c) 1 else s1
      let s3 := if quar then s2.setFlag (Reg.CL_RETIRED_QUARANTINED c) true else s2
      let s4 := if e.blk ≠ 0 then s3.modBlk c e.slot fun b => { b with failed := true } else s3
      ({ s4 with tile := { s4.tile with errs := s4.tile.errs ++ [{ e with level := lvl }] } }).showFault e.unit

/-- Class 0x04 with reason 0x0309: an access through a port at or beyond M (R398). -/
def State.memRangeAt (s : State) (p a n : Nat) : State :=
  if s.memSize < a + n then
    s.raise { s.perr 0x04 none (.vport (Fin.ofNat 8 p)) (s.agentAddr (0x18 + p)) with reason := 0x0309, detail := a % 2 ^ 48 }
  else s

/-- An access of the tile itself at or beyond M. -/
def State.memRange (s : State) (a n : Nat) : State := s.memRangeAt (s.portOf a) a n

/-- A cluster error with a reason and DETAIL, charged to a block (R333 class 0x08 and others). -/
def State.raiseAt (s : State) (cls site unit n blk reason detail : Nat) : State :=
  s.raise { s.charge (s.clErr cls site unit) site n blk with reason := reason, detail := detail }

/-- An error of a unit waits for its self-test: the unit takes no new operation (R337). -/
def State.testing (s : State) (site u : Nat) : Bool :=
  s.tile.errs.any fun e => e.site == some site && e.unit == .unit (Fin.ofNat 64 site) (Fin.ofNat 16 u)

/-- A bank is under test: it serves no access. Until its block is discarded, it serves the operations that are to end first (log entry 22). -/
def State.bankTests (s : State) (site b : Nat) : Bool :=
  s.tile.errs.any fun e => e.unit == .bank (Fin.ofNat 64 site) (Fin.ofNat 32 b) && e.ready

/-- The port that serves an address waits for its self-test: it takes no new transfer (R337). -/
def State.portTests (s : State) (a : Nat) : Bool := s.tile.portTest.getLsbD (s.portOf a) || s.tile.errs.any fun e => e.unit == .vport (Fin.ofNat 8 (s.portOf a))

/-! ## Parity (R333 class 0x05, R335) -/

/-- The words of a section: offset and source address. -/
def Section.words (c : Section) : List (Nat × Nat) :=
  (List.range (c.bytes / 4)).map fun j => (if c.fixed then c.dest else c.dest + 4 * j, c.src + 4 * j)

/-- One word of the job image on its way to an engine's element-program store: `VE_PSTORE_ADDR` as it stands, and the store's words. -/
def State.mendWord (s : State) (site e : Nat) (p : Nat × Store Word) (w : Nat × Nat) : Nat × Store Word :=
  let v := leNat (s.pkgRead w.2 4)
  if w.1 = Reg.VE_PSTORE_ADDR site then (v % 2 ^ 12, p.2)
  else if w.1 = Reg.VE_PSTORE_ADDR site + 4 then
    (p.1 / 2048 * 2048 + (p.1 + 1) % 2048, if p.1 / 2048 = e then Store.putD 0 p.2 p.1 (BitVec.ofNat 32 v) else p.2)
  else p

/-- Firmware rewrites an engine's element-program store from the sections of the loaded job image that name it. -/
def State.mendStore (s : State) (site e : Nat) : State :=
  s.modCl site fun c => { c with pstore := ((s.job.image.flatMap Section.words).foldl (s.mendWord site e) (0, c.pstore)).2 }

/-- The first bad word of a unit that a test names. -/
def State.badParity (s : State) (site unit : Nat) (p : BadWord → Bool) : Option BadWord :=
  (s.cl site).parity.find? fun w => w.unit == unit && p w

/-- An operation meets a bad word: class 0x05, charged to its block; a program store is repaired first, and an error in a committed bank or
a sync counter takes step repeat (R335). -/
def State.parityMet (s : State) (site n blk : Nat) (w : BadWord) : State :=
  let s1 := s.modCl site fun c => { c with parity := c.parity.erase w }
  let s2 := if w.kind = 6 then s1.mendStore site (w.unit - 5) else s1
  let e := s2.charge (s2.clErr 0x05 site w.unit) site n blk
  s2.raise { e with detail := w.kind + w.idx % 2 ^ 24 * 2 ^ 8, level := if w.kind = 7 ∨ w.kind = 8 then 2 else e.level }

/-- A unit that takes an operation of a block, or of none, meets a bad word. -/
def State.parityAt (s : State) (site unit n blk : Nat) : Option State :=
  (s.badParity site unit fun _ => true).map fun w => s.parityMet site n blk w

/-- The sync counters are read at every mark, by no block. -/
def State.syncParity (s : State) (site : Nat) : State := (s.parityAt site 9 0 0).getD s

/-! ## Cancelling a context (R206) -/

/-- Fields of an arm record (R197). -/
def armKind (r : Nat) : Nat := bits r 0 2
def armLand (r : Nat) : Bool := bits r 2 1 == 1
def armBytes (r : Nat) : Nat := bits r 16 17
/-- The landing slot of transfer `i` of an arm with LKIND 1 (R198). -/
def armSlot (r i : Nat) : Nat := bits r 208 10 + i % max 1 (bits r 232 16)

/-- Show a context's registers (R218). -/
def State.showCtx (s : State) (site d : Nat) : State :=
  let c := s.ctx site d
  let st := if c.act.isNone then 0 else if c.shd.isNone then 1 else 2
  let live := c.xfers.filter fun x => !x.dead
  let s1 := (s.setFld (Reg.STR_STATE_STATE site d) st).setFld (Reg.STR_STATE_OUTST site d) live.length
  match c.act with
  | none => (s1.setFld (Reg.STR_STATE_MARKERS site d) 0).setFlag (Reg.STR_STATE_WAITING site d) false
  | some a =>
    let s2 := (s1.setFld (Reg.STR_STATE_MARKERS site d) a.marks.length).setFlag (Reg.STR_STATE_WAITING site d) (!a.marks.isEmpty)
    (s2.setFld (Reg.STR_NEXT_NEXT site d) a.next).setFld (Reg.STR_LIMIT_LIMIT site d) a.limit

/-- The signals that the transfers of a context have queued on an edge go (R206). -/
def EdgeSt.silence (x : EdgeSt) (site d : Nat) : EdgeSt :=
  let gone := x.routed.filter fun r => r.1.ty == 6 && r.2.1 == site && r.2.2.1 == d
  { x with out := gone.foldl (fun l r => l.erase r.1) x.out, routed := x.routed.filter fun r => !gone.contains r }

/-- Cancel a context (R206): the epoch advances; slots that outstanding LOADs had bound become EMPTY; transfers that never complete are
gone, and those on their way signal nothing; the context is IDLE. -/
def State.cancelCtx (s : State) (site d : Nat) : State :=
  let c := s.ctx site d
  let bound := (c.xfers.filter fun x => !x.dead && armKind x.desc == 0 && armLand x.desc).map fun x => armSlot x.desc x.idx
  let loads := (c.xfers.filter fun x => armKind x.desc == 0).map fun x => x.id
  let quiet (l : List NMsg) : List NMsg := l.filter fun m => m.msg.ty != 6 || !((m.xfer.map fun x => x.1 == site && x.2.1 == d).getD false)
  let s1 := bound.foldl (fun s n => s.setLand site n ldEmpty) s
  let s2 := s1.modCtx site d fun c => { xfers := (c.xfers.filter fun x => !x.bad).map fun (x : Xfer) => { x with dead := true } }
  let s3 := s2.modCl site fun c => { c with xline := c.xline.filter fun p => p.1 != d || !loads.contains p.2 }
  let s4 := { s3 with
    tile := { s3.tile with
      net := s3.tile.net.map fun (p : Nat × List NMsg) => (p.1, quiet p.2)
      arrived := quiet s3.tile.arrived }
    edges := s3.edges.map fun (p : Nat × EdgeSt) => (p.1, p.2.silence site d) }
  (s4.setFld (Reg.STR_STATE_EPOCH site d) (s.fld (Reg.STR_STATE_EPOCH site d) + 1)).showCtx site d

/-- The objects of other clusters of this tile, and of the tile, that a block has signalled and not released. -/
def State.aims (s : State) (b : Blk) : List (Nat × Nat) :=
  (b.held ++ b.sigs).filterMap fun g =>
    if bits g.ref 14 2 = 1 ∧ bits g.ref 11 1 = 0 then some (64, g.ref % 256)
    else if bits g.ref 14 2 = 3 ∧ bits g.dst 10 3 = s.fld Reg.TILE_ID_TILE_NUM ∧ bits g.dst 13 12 = s.fld Reg.PKG_ID_PKG then
      some (bits g.dst 4 6, g.ref % 64)
    else none

/-- Undo an arm of a block that does not commit (R202). -/
def State.undoArm (s : State) (site d : Nat) (home : Word) (n blk : Nat) : State :=
  let c := s.ctx site d
  let mine (a : Option Arm) : Bool := (a.map fun a => a.slot == n && a.blk == blk).getD false
  let s1 :=
    if mine c.act then s.cancelCtx site d
    else if mine c.shd then (s.modCtx site d fun c => { c with shd := none }).showCtx site d
    else s
  s1.wr (Reg.STR_HOME site d) home

/-! ## Discarding a block (R48, R190, R202, R223, R282, R340) -/

/-- Bytes that a block's own operations wrote, and that nothing has written since, hold again what they held before it (R282, log entry 85). -/
def takeBack (m : List Host.Cell) (l : List (Nat × Byte × Byte)) : List Host.Cell :=
  l.foldl (fun m u => if memGet m u.1 = u.2.2 then memPut m u.1 u.2.1 else m) m

/-- What a LOAD stream of the block has written stands (R202). -/
def State.keepLoads (s s0 : State) (site n : Nat) : State := s.modBlk site n fun b => { b with undo := (s0.slot site n).blk.undo }

/-- Give back what the block in progress took and did, the bytes it wrote among it, restore the slot from its shadow, and leave it in FAULT. -/
def State.discard (s : State) (site n : Nat) (st : Nat) : State :=
  let b := (s.slot site n).blk
  let src := s.unitAddr site (coreUnit site n)
  let s1 := b.taken.foldl (fun s p => s.objAdd site p.1 (p.2 : Int) src s.beatLow) s
  let s2 := b.drains.foldl (fun s l => (s.setLand site l ldFull).setFlag (Reg.LAND_STATE_HOLD site l) false) s1
  let s3 := b.fills.foldl (fun s l => s.setLand site l ldEmpty) s2
  let s4 := b.arms.reverse.foldl (fun s a => s.undoArm site a.1 a.2.2 n b.id) s3
  let s5 := (s4.dropOps site n b.id).modCl site fun c => { c with slice := takeBack c.slice b.undo }
  let sl := s5.slot site n
  let s6 := s5.modSlot site n fun x => { x with
    x := x.shX, y := x.shY, wait := none, stallOn := none, ended := false, resv := none, blk := {}, late := false, lateBar := none
    owes := if b.failed then x.owes ++ s.aims b else [] }
  let s7 := (s6.setFld (Reg.SLOT_VL_VL site n 0) sl.shVl.1).setFld (Reg.SLOT_VL_VL site n 1) sl.shVl.2
  let s8 := (s7.setFld (Reg.SLOT_STATUS_ENTRY site n) sl.shEntry).setSlotState site n st
  let s9 := if b.failed then s8.setFlag (Reg.CL_ERR_STATUS_NONREPLAY site) b.nonReplay else s8
  { s9 with tile := { s9.tile with errs := s9.tile.errs.map fun e =>
      if e.site == (some site) && e.blk == b.id && b.id != 0 then
        { e with ready := true, level := if b.nonReplay then max 2 e.level else e.level }
      else e } }

/-- A block that has failed and ended is discarded once no operation of it is in progress (R190, R340). -/
def State.settle (s : State) (site n : Nat) : State :=
  let b := (s.slot site n).blk
  if b.id ≠ 0 ∧ b.failed ∧ (s.committing site n ∨ s.slotState site n = slFault) then
    let s1 := s.dropOps site n b.id
    if (s1.cl site).running n b.id then s1 else s1.discard site n slFault
  else s

/-- Settle every slot of a cluster. -/
def State.settleAll (s : State) (site : Nat) : State := (List.range 4).foldl (fun s n => s.settle site n) s

/-- A trap (R54): the slot halts with the cause, and the cluster takes class TRAP. -/
def State.trap (s : State) (site n cause : Nat) : State :=
  let sl := s.slot site n
  let s1 := (s.setFld (Reg.SLOT_STATUS_TRAP site n) cause).setSlotState site n slFault
  let s2 := s1.modSlot site n fun x => { x with wait := none, stallOn := none }
  (s2.raiseAt 0x06 site (coreUnit site n) n sl.blk.id 0 (cause + sl.pc * 2 ^ 32)).settle site n

/-- The issuing slot of an operation traps for its descriptor (R54, R150). -/
def State.opTrap (s : State) (site : Nat) (o : Op) : State :=
  if s.open_ site o.slot o.blk then s.trap site o.slot 2
  else s.raiseAt 0x06 site (coreUnit site o.slot) o.slot o.blk 0 2

/-! ## A unit-level timeout (R227) -/

/-- Record a timeout: `SYNC_TMO_LAST`, and class WAIT_TMO charged to the block concerned. -/
def State.waitTmo (s : State) (site unit n blk ref seen thr ctx : Nat) (landing : Bool) : State :=
  let v := ref % 2 ^ 16 + landing.toNat * 2 ^ 16 + unit % 16 * 2 ^ 17 + n % 4 * 2 ^ 21 + ctx % 64 * 2 ^ 23 + 2 ^ 29
    + s.beatLow * 2 ^ 32
  let s1 := s.wr64 (Reg.SYNC_TMO_LAST site) v
  s1.raise { s1.charge (s1.clErr 0x07 site unit) site n blk with
    reason := 0x0801, detail := ref % 2 ^ 16 + seen % 2 ^ 24 * 2 ^ 16 + thr % 2 ^ 24 * 2 ^ 40
    context := ctx, landing := landing }

/-! ## The slice as units read and write it (R182 to R184, R216, R333, R339) -/

/-- The bank of a slice offset (R182). -/
def bankOf (site a : Nat) : Nat := a / 128 % bankCount site

/-- The 128 B lines of a range. -/
def lines128 (a n : Nat) : List Nat :=
  if n = 0 then [] else (List.range ((a + n - 1) / 128 + 1 - a / 128)).map (· + a / 128)

/-- Some bank of a range is WAKING (R216), or under test (R337): the access stalls. -/
def State.waking (s : State) (site a n : Nat) : Bool :=
  (lines128 a n).any fun l =>
    let b := bankOf site (128 * l)
    s.fld (Reg.BANK_STATE_POWER site b) == 3 || s.bankTests site b

/-- Some bank of a range is OFF. -/
def State.bankOff (s : State) (site a n : Nat) : Bool :=
  (lines128 a n).any fun l => s.fld (Reg.BANK_STATE_POWER site (bankOf site (128 * l))) == 2

/-- Bytes read: zero from a bank that is OFF. -/
def State.sliceGet (s : State) (site a n : Nat) : List Byte :=
  (s.sliceBytes site a n).zipIdx.map fun p =>
    if s.fld (Reg.BANK_STATE_POWER site (bankOf site (a + p.2))) = 2 then 0 else p.1

/-- Who accesses the slice: the unit, and the slot and block charged (block 0: none). -/
structure Who where
  unit : Nat
  slot : Nat := 0
  blk  : Nat := 0
deriving DecidableEq, Repr

/-- The 64-bit words of a range that hold an error. -/
def Cluster.errWords (c : Cluster) (a n : Nat) : List (Nat × Nat) :=
  c.ecc.filter fun p => n != 0 && a / 8 ≤ p.1 && p.1 ≤ (a + n - 1) / 8

/-- A corrected error (R333 class 0x02): counted, corrected in place; the CE_LIMIT-th of a bank in a step is an error. -/
def State.corrected (s : State) (site w : Nat) : State :=
  let b := bankOf site (8 * w)
  let k := Store.get 0 (s.cl site).ces b + 1
  let s1 := s.modCl site fun c => { c with ecc := Store.drop c.ecc w, ces := Store.put c.ces b k }
  let s2 := s1.count (Reg.CL_SRAM_CE site) 1
  if k = s.fld Reg.ERR_CFG_CE_LIMIT then
    s2.raise { s2.perr 0x02 (some site) (.bank (Fin.ofNat 64 site) (Fin.ofNat 32 b)) (s2.unitAddr site 10) with
      detail := b + 8 * w % 2 ^ 24 * 2 ^ 8 }
  else s2

/-- An uncorrectable or poisoned word is met (R333 classes 0x03, 0x04). -/
def State.badWord (s : State) (site w code : Nat) (who : Who) : State :=
  if code = 2 then
    let b := bankOf site (8 * w)
    let s1 := s.count (Reg.CL_SRAM_UE site) 1
    s1.raise { s1.charge (s1.perr 0x03 (some site) (.bank (Fin.ofNat 64 site) (Fin.ofNat 32 b)) (s1.unitAddr site who.unit))
      site who.slot who.blk with detail := 8 * w % 2 ^ 23 }
  else
    let s1 := s.perr 0x04 (some site) (.vport (Fin.ofNat 8 (s.portOf (code - 3)))) (s.unitAddr site who.unit)
    s.raise { s.charge s1 site who.slot who.blk with detail := code - 3 }

/-- The words that a write covers whole, by the places it writes, are made good (R184). -/
def State.makeGood (s : State) (site : Nat) (ps : List Nat) : State :=
  s.modCl site fun c => { c with ecc := c.ecc.filter fun p => !(List.range 8).all fun k => ps.contains (8 * p.1 + k) }

/-- Meet the errors of the words of a range; whether every word could be read. -/
def State.meet (s : State) (site a n : Nat) (who : Who) : State × Bool :=
  ((s.cl site).errWords a n).foldl (fun p w =>
    if w.2 = 1 then (p.1.corrected site w.1, p.2) else (p.1.badWord site w.1 w.2 who, false)) (s, true)

/-- An access to a bank that is OFF is an error (R216); class 0x08 tests the landing controller (R333). -/
def State.offError (s : State) (site a n : Nat) (who : Who) : State :=
  if s.bankOff site a n then
    s.raise { s.charge { s.clErr 0x08 site 10 with source := s.unitAddr site who.unit } site who.slot who.blk with
      reason := 0x0608, detail := 0x0608 + a / 128 % 2 ^ 16 * 2 ^ 16 }
  else s

/-- A unit reads ranges of a landing slot: errors and banks that are OFF; they do not take part in the read map (R339). -/
def State.meetLand (s : State) (site : Nat) (rs : List (Nat × Nat)) (who : Who) : State :=
  let s1 := match rs.find? fun q => s.bankOff site q.1 q.2 with
    | some q => s.offError site q.1 q.2 who
    | none => s
  rs.foldl (fun s q => (s.meet site q.1 q.2 who).1) s1

/-- A unit reads a range: the read map, where the block has not written the line before (R339), errors, banks that are OFF. -/
def State.touchRead (s : State) (site a n : Nat) (who : Who) : State × Bool :=
  let s1 :=
    if s.open_ site who.slot who.blk then
      s.modBlk site who.slot fun b => { b with
        reads := b.reads ++ (lines128 a n).filter fun l => !b.reads.contains l && !b.writes.contains l }
    else s
  (s1.offError site a n who).meet site a n who

/-- A guard trip (R339): the first one of a block entry in a step is logged as an event. -/
def State.guardTrip (s : State) (site n line kind : Nat) : State :=
  let b := (s.slot site n).blk
  let entry := s.fld (Reg.SLOT_STATUS_ENTRY site n)
  let v := line % 2 ^ 16 + kind * 2 ^ 16 + 2 ^ 17 + b.blockId % 2 ^ 32 * 2 ^ 32
  let s1 := s.wr64 (Reg.CL_GUARD site) v
  let s2 := if kind = 0 then s1.count (Reg.CL_GUARD_TRIPS_COUNT site) 1 else s1
  let s3 := if (s.slot site n).trips.contains entry then s2
    else (s2.modSlot site n fun x => { x with trips := x.trips ++ [entry] }).log
      { cls := 0x27, slot := n, source := s2.unitAddr site (coreUnit site n), block := b.blockId, detail := v }
  s3.modBlk site n fun b => { b with nonReplay := true }

/-- Write bytes into a slice. A narrow write meets the word it merges into; a whole word is made good; a bank that is OFF discards;
a line that the block has read is a guard trip; reservations of other slots on the bytes are lost. -/
def State.sliceWrite (s : State) (site a : Nat) (bs : List Byte) (who : Who) : State :=
  let n := bs.length
  if n = 0 then s
  else
    let lo := a / 8 * 8
    let hi := (a + n - 1) / 8 * 8
    let part := (if lo < a ∨ a + n < lo + 8 then [lo] else []) ++ (if a + n < hi + 8 ∧ hi ≠ lo then [hi] else [])
    let s1 := part.foldl (fun s w => (s.meet site w 8 who).1) s
    let stuck := (s1.cl site).ecc.filter fun p => part.contains (8 * p.1)
    let s2 := s1.offError site a n who
    let cells := bs.zipIdx.map fun p => (a + p.2, p.1)
    let ok (p : Nat × Byte) : Bool :=
      !(stuck.any fun w => w.1 == p.1 / 8) && s2.fld (Reg.BANK_STATE_POWER site (bankOf site p.1)) != 2
    let s3 := s2.modCl site fun c => { c with
      slice := cells.foldl (fun m p => if ok p then memPut m p.1 p.2 else m) c.slice
      ecc := c.ecc.filter fun p => !(decide (a ≤ 8 * p.1) && decide (8 * p.1 + 8 ≤ a + n))
      slots := c.slots.map fun (p : Nat × SlotSt) =>
        (p.1, if (p.2.resv.map fun r => decide (r.1 < a + n ∧ a < r.1 + r.2)).getD false
                && !(p.1 == who.slot && (who.unit == 0 || who.unit == 11))
              then { p.2 with resv := none } else p.2) }
    if s3.open_ site who.slot who.blk then
      ((lines128 a n).filter fun l => (s3.slot site who.slot).blk.reads.contains l).foldl
        (fun s l => s.guardTrip site who.slot l 0)
        (s3.modBlk site who.slot fun b => { b with
          writes := b.writes ++ (lines128 a n).filter fun l => !b.writes.contains l
          undo := ((cells.filter ok).map fun p => (p.1, memGet (s2.cl site).slice p.1, p.2)).reverse ++ b.undo })
    else s3

/-! ## Status records (R111, R112) -/

/-- Write the record at a slice offset. -/
def State.writeRec (s : State) (site off : Nat) (r : Nat) (who : Who) : State := s.sliceWrite site off (leBytes 16 r) who

/-- Add a record's counts to a unit's counters, and its flags to `NUM_FLAGS`. -/
def State.countRec (s : State) (site unit : Nat) (r : Rec) : State :=
  let s1 := (s.count (Reg.NUM_SAT_COUNT site unit) r.sat).count (Reg.NUM_FLUSH_COUNT site unit) r.flush
  s1.setBits (Reg.NUM_FLAGS site) (r.nan.toNat + 2 * r.infIn.toNat + 4 * r.ovf.toNat + 8 * r.invalid.toNat + 16 * r.underflow.toNat
    + 32 * r.divzero.toNat + 64 * (r.sat != 0).toNat + 128 * (r.flush != 0).toNat)

/-- Merge the records of several units into one (R111); it shows EMPTY where one of them does (log entry 80). -/
def Rec.merge (a b : Rec) : Rec :=
  { sat := min (2 ^ 32 - 1) (a.sat + b.sat), flush := min (2 ^ 32 - 1) (a.flush + b.flush), hexp := max a.hexp b.hexp
    hnan := a.hnan || b.hnan, hinf := a.hinf || b.hinf, nan := a.nan || b.nan, infIn := a.infIn || b.infIn
    ovf := a.ovf || b.ovf, invalid := a.invalid || b.invalid, underflow := a.underflow || b.underflow
    divzero := a.divzero || b.divzero, empty := a.empty || b.empty }

/-- Fold a hint into the arm record at a context's home (R205). -/
def State.foldCtxHint (s : State) (site d : Nat) (r : Rec) (who : Who) : State :=
  if s.flag (Reg.STR_HOME_VALID site d) then
    let a := s.fld (Reg.STR_HOME_HOME site d) + 48
    s.sliceWrite site a (leBytes 2 (foldHint (leNat (s.sliceGet site a 2)) r)) { who with slot := 0, blk := 0 }
  else s.setFlag (Reg.FE_STATUS_HINT_LOST site) true

end Sys2Proof.Machine
end

