-- ==== Sys2Proof/Machine/Rv.lean ====
section
/-! DEFINITION. The control cores' standard instructions (R53): RV64IMAC over the block buffer and the slice, with the
tile's exceptions; compressed instructions are expanded into the words they stand for. -/

namespace Sys2Proof.Machine

/-! ## Registers of a slot (R45) -/

def SlotSt.getX (x : SlotSt) (r : Nat) : DWord := if r = 0 then 0 else Store.get 0 x.x r
def SlotSt.setX (x : SlotSt) (r : Nat) (v : DWord) : SlotSt := if r = 0 then x else { x with x := Store.putD 0 x.x r v }
def SlotSt.getY (x : SlotSt) (r : Nat) : Word := Store.get 0 x.y r
def SlotSt.setY (x : SlotSt) (r : Nat) (v : Word) : SlotSt := { x with y := Store.putD 0 x.y r v }

/-- What the stalled instruction of a slot needs is there: it can execute again. -/
def State.stallOver (s : State) (site n : Nat) : Bool :=
  match (s.slot site n).stallOn with
  | none => true
  | some (.arrays m) => (maskOf m).all fun a => roomIn (s.arr site a).queue n
  | some (.engine e) => roomIn (s.eng site e).queue n
  | some (.copies x) => roomIn ((if x then (s.cl site).xcopies else (s.cl site).fills).drop 1) n
  | some (.marker d) =>
    let c := s.ctx site d
    ((if c.shd.isSome then c.shd else c.act).map fun a => decide (a.marks.length < 8) || decide (bits a.desc 160 24 ≤ a.next)).getD true
  | some (.batch a) => decide ((s.arr site a).batch.length < 128)
  | some (.flush a) => (s.arr site a).batch.isEmpty || roomIn (s.arr site a).queue (s.fld (Reg.BATCH_CFG_SLOT site))
  | some (.bank a k) => !s.waking site a k

/-- The slot is ready: its block has not ended, no wait holds it, what a stalled instruction needs is there (R51), and no self-test of
its control core is pending (R337). -/
def State.readySlot (s : State) (site n : Nat) : Bool :=
  let st := s.slotState site n
  s.alive && s.live site && decide (tsRunning ≤ s.ts) && decide (s.ts ≤ tsRecovering) && (s.slot site n).wait.isNone && (s.slot site n).blk.id != 0
    && (st == slRun || st == slStall || (st == slLate && !(s.slot site n).ended)) && s.stallOver site n
    && !s.testing site (coreUnit site n)

/-- The slots that a slot's control core runs (R16). -/
def coreSlots (site n : Nat) : List Nat := if isVector site then (if n < 2 then [0, 1] else [2, 3]) else [0, 1, 2, 3]

/-- The slot from which the control core of slot `n` issues (R51, R57): the one it issued from last while it has not left that, else the next
ready one in order; a LATE slot only where no on-time slot is ready. -/
def State.issues (s : State) (site n : Nat) : Option Nat :=
  let c := Store.get 0 (s.cl site).issued (coreUnit site n)
  let ready := ((List.range 4).map fun k => (c + k) % 4).filter fun m => (coreSlots site n).contains m && s.readySlot site m
  match ready.find? fun m => !(s.slot site m).late with
  | some m => some m
  | none => ready.head?

/-- A word of the slot's control core that its next instruction reads, and whose parity is bad. -/
def State.coreBad (s : State) (site n : Nat) : Option BadWord :=
  s.badParity site (coreUnit site n) fun w => decide (2 ≤ w.kind) || w.idx == n

/-- The control core issues from the slot: it is ready, has its turn, and reads no bad word. -/
def State.runs (s : State) (site n : Nat) : Bool := s.readySlot site n && s.issues site n == some n && (s.coreBad site n).isNone

/-- The slot has its turn and its instruction meets a bad word, if any (R333 class 0x05): the slot goes to FAULT at the detection, as
the control core shows FAULT there (R337). -/
def State.coreParity (s : State) (site n : Nat) : State :=
  match s.coreBad site n with
  | some w =>
    if s.readySlot site n && s.issues site n == some n then
      let s1 := (s.setSlotState site n slFault).modSlot site n fun x => { x with wait := none, stallOn := none }
      (s1.parityMet site n (s.slot site n).blk.id w).settle site n
    else s
  | none => s

/-- The control core issues from the slot. -/
def State.issue (s : State) (site n : Nat) : State :=
  s.modCl site fun c => { c with issued := Store.putD 0 c.issued (coreUnit site n) n }

/-- The control core leaves a slot (R51): it looks next at the slot after it. -/
def State.leave (s : State) (site n : Nat) : State :=
  if Store.get 0 (s.cl site).issued (coreUnit site n) = n then
    s.modCl site fun c => { c with issued := Store.putD 0 c.issued (coreUnit site n) ((n + 1) % 4) }
  else s

/-- Retire the instruction: the pc moves on, `instret` counts, the slot shows that it runs. -/
def State.retire (s : State) (site n pc : Nat) : State :=
  (s.modSlot site n fun x => { x with pc := pc % 2 ^ 64, instret := x.instret + 1, stallOn := none }).showSlot site n slRun

/-- Retire to the next instruction with a result. -/
def State.retireX (s : State) (site n len rd : Nat) (v : DWord) : State :=
  (s.modSlot site n fun x => x.setX rd v).retire site n ((s.slot site n).pc + len)

/-- The slot cannot go on in this cycle (R51). -/
def State.stall (s : State) (site n : Nat) (w : Option StallOn) : State :=
  ((s.leave site n).modSlot site n fun x => { x with stallOn := w }).showSlot site n slStall

/-! ## Fetch (R45) -/

/-- The instruction at the pc: its word and length; none where the fetch lies at or beyond CODE_LEN. A 16-bit instruction is
the low half of the word. -/
def SlotSt.fetch (x : SlotSt) : Option (Nat × Nat) :=
  let h := leNat ((x.buf.drop x.pc).take 2)
  if x.buf.length < x.pc + 2 then none
  else if h % 4 ≠ 3 then some (h, 2)
  else if x.buf.length < x.pc + 4 then none
  else some (leNat ((x.buf.drop x.pc).take 4), 4)

/-! ## Words from fields -/

def encR (op rd f3 rs1 rs2 f7 : Nat) : Nat := op + rd * 2 ^ 7 + f3 * 2 ^ 12 + rs1 * 2 ^ 15 + rs2 * 2 ^ 20 + f7 * 2 ^ 25
def encI (op rd f3 rs1 : Nat) (imm : Int) : Nat := op + rd * 2 ^ 7 + f3 * 2 ^ 12 + rs1 * 2 ^ 15 + (imm % 2 ^ 12).toNat * 2 ^ 20
def encS (op f3 rs1 rs2 : Nat) (imm : Int) : Nat :=
  let i := (imm % 2 ^ 12).toNat
  op + i % 32 * 2 ^ 7 + f3 * 2 ^ 12 + rs1 * 2 ^ 15 + rs2 * 2 ^ 20 + i / 32 * 2 ^ 25
def encB (f3 rs1 rs2 : Nat) (imm : Int) : Nat :=
  let i := (imm % 2 ^ 13).toNat
  0x63 + bits i 11 1 * 2 ^ 7 + bits i 1 4 * 2 ^ 8 + f3 * 2 ^ 12 + rs1 * 2 ^ 15 + rs2 * 2 ^ 20 + bits i 5 6 * 2 ^ 25 + bits i 12 1 * 2 ^ 31
def encJ (rd : Nat) (imm : Int) : Nat :=
  let i := (imm % 2 ^ 21).toNat
  0x6F + rd * 2 ^ 7 + bits i 12 8 * 2 ^ 12 + bits i 11 1 * 2 ^ 20 + bits i 1 10 * 2 ^ 21 + bits i 20 1 * 2 ^ 31

/-- The standard word that a compressed instruction of RV64C stands for; none where it is reserved or needs F or D. -/
def expandC (c : Nat) : Option Nat :=
  let f3 := bits c 13 3
  let rd := bits c 7 5
  let rs2 := bits c 2 5
  let rdp := bits c 2 3 + 8
  let rs1p := bits c 7 3 + 8
  let imm6 := sext (bits c 2 5 + bits c 12 1 * 32) 6
  let sh := bits c 2 5 + bits c 12 1 * 32
  let uw := bits c 6 1 * 4 + bits c 10 3 * 8 + bits c 5 1 * 64
  let ud := bits c 10 3 * 8 + bits c 5 2 * 64
  match c % 4, f3 with
  | 0, 0 =>
    let u := bits c 6 1 * 4 + bits c 5 1 * 8 + bits c 11 2 * 16 + bits c 7 4 * 64
    if u = 0 then none else some (encI 0x13 rdp 0 2 u)
  | 0, 2 => some (encI 0x03 rdp 2 rs1p uw)
  | 0, 3 => some (encI 0x03 rdp 3 rs1p ud)
  | 0, 6 => some (encS 0x23 2 rs1p rdp uw)
  | 0, 7 => some (encS 0x23 3 rs1p rdp ud)
  | 1, 0 => some (encI 0x13 rd 0 rd imm6)
  | 1, 1 => if rd = 0 then none else some (encI 0x1B rd 0 rd imm6)
  | 1, 2 => some (encI 0x13 rd 0 0 imm6)
  | 1, 3 =>
    if rd = 2 then
      let i := sext (bits c 6 1 * 16 + bits c 2 1 * 32 + bits c 5 1 * 64 + bits c 3 2 * 128 + bits c 12 1 * 512) 10
      if i = 0 then none else some (encI 0x13 2 0 2 i)
    else if imm6 = 0 then none
    else some (0x37 + rd * 2 ^ 7 + (imm6 % 2 ^ 20).toNat * 2 ^ 12)
  | 1, 4 =>
    match bits c 10 2 with
    | 0 => some (encI 0x13 rs1p 5 rs1p sh)
    | 1 => some (encI 0x13 rs1p 5 rs1p (sh + 0x400 : Nat))
    | 2 => some (encI 0x13 rs1p 7 rs1p imm6)
    | _ =>
      match bits c 12 1, bits c 5 2 with
      | 0, 0 => some (encR 0x33 rs1p 0 rs1p rdp 0x20)
      | 0, 1 => some (encR 0x33 rs1p 4 rs1p rdp 0)
      | 0, 2 => some (encR 0x33 rs1p 6 rs1p rdp 0)
      | 0, _ => some (encR 0x33 rs1p 7 rs1p rdp 0)
      | _, 0 => some (encR 0x3B rs1p 0 rs1p rdp 0x20)
      | _, 1 => some (encR 0x3B rs1p 0 rs1p rdp 0)
      | _, _ => none
  | 1, 5 =>
    some (encJ 0 (sext (bits c 3 3 * 2 + bits c 11 1 * 16 + bits c 2 1 * 32 + bits c 7 1 * 64 + bits c 6 1 * 128
      + bits c 9 2 * 256 + bits c 8 1 * 1024 + bits c 12 1 * 2048) 12))
  | 1, 6 | 1, 7 =>
    some (encB (f3 - 6) rs1p 0 (sext (bits c 3 2 * 2 + bits c 10 2 * 8 + bits c 2 1 * 32 + bits c 5 2 * 64 + bits c 12 1 * 256) 9))
  | 2, 0 => some (encI 0x13 rd 1 rd sh)
  | 2, 2 => if rd = 0 then none else some (encI 0x03 rd 2 2 (bits c 4 3 * 4 + bits c 12 1 * 32 + bits c 2 2 * 64 : Nat))
  | 2, 3 => if rd = 0 then none else some (encI 0x03 rd 3 2 (bits c 5 2 * 8 + bits c 12 1 * 32 + bits c 2 3 * 64 : Nat))
  | 2, 4 =>
    if bits c 12 1 = 0 then
      (if rs2 = 0 then (if rd = 0 then none else some (encI 0x67 0 0 rd 0)) else some (encR 0x33 rd 0 0 rs2 0))
    else if rs2 = 0 then (if rd = 0 then some 0x00100073 else some (encI 0x67 1 0 rd 0))
    else some (encR 0x33 rd 0 rd rs2 0)
  | 2, 6 => some (encS 0x23 2 2 rs2 (bits c 9 4 * 4 + bits c 7 2 * 64 : Nat))
  | 2, 7 => some (encS 0x23 3 2 rs2 (bits c 10 3 * 8 + bits c 7 3 * 64 : Nat))
  | _, _ => none

/-! ## Arithmetic -/

/-- A 32-bit result, sign-extended. -/
def sx32 (v : BitVec 64) : BitVec 64 := (v.setWidth 32).signExtend 64

/-- Signed division and remainder of the M extension. -/
def rvDiv {w : Nat} (a b : BitVec w) : BitVec w := if b = 0 then BitVec.allOnes w else a.sdiv b
def rvRem {w : Nat} (a b : BitVec w) : BitVec w := if b = 0 then a else a.srem b
def rvDivu {w : Nat} (a b : BitVec w) : BitVec w := if b = 0 then BitVec.allOnes w else a.udiv b
def rvRemu {w : Nat} (a b : BitVec w) : BitVec w := if b = 0 then a else a.umod b

/-- Register-immediate and register-register operations on 64 bits: funct3, funct7, operands; none where reserved. -/
def alu64 (imm : Bool) (f3 f7 : Nat) (a b : DWord) : Option DWord :=
  if !imm && f7 == 1 then
    match f3 with
    | 0 => some (a * b)
    | 1 => some (BitVec.ofInt 64 (a.toInt * b.toInt / 2 ^ 64))
    | 2 => some (BitVec.ofInt 64 (a.toInt * (b.toNat : Int) / 2 ^ 64))
    | 3 => some (BitVec.ofNat 64 (a.toNat * b.toNat / 2 ^ 64))
    | 4 => some (rvDiv a b)
    | 5 => some (rvDivu a b)
    | 6 => some (rvRem a b)
    | _ => some (rvRemu a b)
  else
    match f3 with
    | 0 => if imm || f7 == 0 then some (a + b) else if f7 = 0x20 then some (a - b) else none
    | 1 => if f7 / (if imm then 2 else 1) = 0 then some (a <<< (b.toNat % 64)) else none
    | 2 => if imm || f7 == 0 then some (if a.slt b then 1 else 0) else none
    | 3 => if imm || f7 == 0 then some (if a.ult b then 1 else 0) else none
    | 4 => if imm || f7 == 0 then some (a ^^^ b) else none
    | 5 =>
      let k := if imm then f7 / 2 * 2 else f7
      if k = 0 then some (a >>> (b.toNat % 64)) else if k = 0x20 then some (a.sshiftRight (b.toNat % 64)) else none
    | 6 => if imm || f7 == 0 then some (a ||| b) else none
    | _ => if imm || f7 == 0 then some (a &&& b) else none

/-- The operations on 32 bits of RV64. -/
def alu32 (imm : Bool) (f3 f7 : Nat) (a b : DWord) : Option DWord :=
  let x : BitVec 32 := a.setWidth 32
  let y : BitVec 32 := b.setWidth 32
  if !imm && f7 == 1 then
    match f3 with
    | 0 => some (sx32 (a * b))
    | 4 => some ((rvDiv x y).signExtend 64)
    | 5 => some ((rvDivu x y).signExtend 64)
    | 6 => some ((rvRem x y).signExtend 64)
    | 7 => some ((rvRemu x y).signExtend 64)
    | _ => none
  else
    match f3 with
    | 0 => if imm || f7 == 0 then some (sx32 (a + b)) else if f7 = 0x20 then some (sx32 (a - b)) else none
    | 1 => if f7 = 0 then some ((x <<< (b.toNat % 32)).signExtend 64) else none
    | 5 =>
      if f7 = 0 then some ((x >>> (b.toNat % 32)).signExtend 64)
      else if f7 = 0x20 then some ((x.sshiftRight (b.toNat % 32)).signExtend 64) else none
    | _ => none

/-- Whether a branch is taken; none where funct3 is reserved. -/
def branch (f3 : Nat) (a b : DWord) : Option Bool :=
  match f3 with
  | 0 => some (a == b)
  | 1 => some (a != b)
  | 4 => some (a.slt b)
  | 5 => some (!a.slt b)
  | 6 => some (a.ult b)
  | 7 => some (!a.ult b)
  | _ => none

/-- The value that an AMO stores (funct5), on `w` bits; none where reserved. -/
def amo {w : Nat} (f5 : Nat) (a b : BitVec w) : Option (BitVec w) :=
  match f5 with
  | 0x01 => some b
  | 0x00 => some (a + b)
  | 0x04 => some (a ^^^ b)
  | 0x0C => some (a &&& b)
  | 0x08 => some (a ||| b)
  | 0x10 => some (if a.slt b then a else b)
  | 0x14 => some (if a.slt b then b else a)
  | 0x18 => some (if a.ult b then a else b)
  | 0x1C => some (if a.ult b then b else a)
  | _ => none

/-! ## Execution -/

/-- The trap cause of an access of `k` bytes at `a`, if any: misaligned, then outside the slice (R53). -/
def accessTrap (site a k misaligned fault : Nat) : Option Nat :=
  if a % k ≠ 0 then some misaligned else if sliceSize site < a + k then some fault else none

/-- The control core of a slot as it accesses the slice. -/
def State.coreWho (s : State) (site n : Nat) : Who := ⟨coreUnit site n, n, (s.slot site n).blk.id⟩

/-- A load: funct3 gives width and extension. -/
def State.rvLoad (s : State) (site n len rd f3 a : Nat) : State :=
  if f3 = 7 then s.trap site n 2
  else
    let k := 2 ^ (f3 % 4)
    match accessTrap site a k 4 5 with
    | some c => s.trap site n c
    | none =>
      if s.waking site a k then s.stall site n (some (.bank a k))
      else
        let v := leNat (s.sliceGet site a k)
        let x : DWord := if f3 < 4 then BitVec.ofInt 64 (sext v (8 * k)) else BitVec.ofNat 64 v
        ((s.touchRead site a k (s.coreWho site n)).1).retireX site n len rd x

/-- A store. -/
def State.rvStore (s : State) (site n len f3 a : Nat) (v : DWord) : State :=
  if 3 < f3 then s.trap site n 2
  else
    let k := 2 ^ f3
    match accessTrap site a k 6 7 with
    | some c => s.trap site n c
    | none =>
      if s.waking site a k then s.stall site n (some (.bank a k))
      else
        (s.sliceWrite site a (leBytes k v.toNat) (s.coreWho site n)).retire site n ((s.slot site n).pc + len)

/-- LR, SC and the AMOs. -/
def State.rvAtomic (s : State) (site n len rd f3 f5 rs2 a : Nat) (b : DWord) : State :=
  let k := if f3 = 2 then 4 else 8
  let lr := f5 == 2
  let ok := (f3 == 2 || f3 == 3) && ((lr && rs2 == 0) || f5 == 3 || (amo f5 (0 : BitVec 64) 0).isSome)
  if !ok then s.trap site n 2
  else
    match accessTrap site a k (if lr then 4 else 6) (if lr then 5 else 7) with
    | some c => s.trap site n c
    | none =>
      if s.waking site a k then s.stall site n (some (.bank a k))
      else
        let who := s.coreWho site n
        let v := leNat (s.sliceGet site a k)
        let x : DWord := BitVec.ofInt 64 (sext v (8 * k))
        if lr then
          (((s.touchRead site a k who).1).modSlot site n fun t => { t with resv := some (a, k) }).retireX site n len rd x
        else if f5 = 3 then
          let hit := (s.slot site n).resv == some (a, k)
          let s1 := s.modSlot site n fun t => { t with resv := none }
          if hit then (s1.sliceWrite site a (leBytes k b.toNat) who).retireX site n len rd 0
          else s1.retireX site n len rd 1
        else
          let r : Nat :=
            if k = 4 then ((amo f5 (BitVec.ofNat 32 v) (b.setWidth 32)).getD 0).toNat
            else ((amo f5 (BitVec.ofNat 64 v) b).getD 0).toNat
          let p := s.touchRead site a k who
          (p.1.sliceWrite site a (leBytes k r) who).retireX site n len rd x

/-- SYSTEM: ECALL, EBREAK and the reads of the three counters (R53, R54). -/
def State.rvSystem (s : State) (site n len w : Nat) : State :=
  let f3 := bits w 12 3
  let rd := bits w 7 5
  let csr := bits w 20 12
  let read := (f3 == 2 || f3 == 3 || f3 == 6 || f3 == 7) && bits w 15 5 == 0
  if w = 0x00000073 then s.trap site n 11
  else if w = 0x00100073 then
    (if s.flag Reg.DBG_STATE_UNLOCKED then
      (s.setFld (Reg.SLOT_STATUS_TRAP site n) 3).setSlotState site n slHalt
     else s.trap site n 3)
  else if read && csr == 0xC00 then s.retireX site n len rd (BitVec.ofNat 64 s.clk.aclk)
  else if read && csr == 0xC01 then s.retireX site n len rd (BitVec.ofNat 64 (s.rd64 Reg.TIME_NOW))
  else if read && csr == 0xC02 then s.retireX site n len rd (BitVec.ofNat 64 (s.slot site n).instret)
  else s.trap site n 2

/-- A standard instruction's word. -/
def State.rvExec (s : State) (site n w len : Nat) : State :=
  let sl := s.slot site n
  let rd := bits w 7 5
  let f3 := bits w 12 3
  let f7 := bits w 25 7
  let rs2 := bits w 20 5
  let a := sl.getX (bits w 15 5)
  let b := sl.getX rs2
  let immI : DWord := BitVec.ofInt 64 (sext (bits w 20 12) 12)
  let immS : DWord := BitVec.ofInt 64 (sext (bits w 7 5 + bits w 25 7 * 32) 12)
  let immB : Int := sext (bits w 8 4 * 2 + bits w 25 6 * 32 + bits w 7 1 * 2048 + bits w 31 1 * 4096) 13
  let immJ : Int := sext (bits w 21 10 * 2 + bits w 20 1 * 2048 + bits w 12 8 * 4096 + bits w 31 1 * 2 ^ 20) 21
  let immU : DWord := BitVec.ofInt 64 (sext (bits w 12 20 * 2 ^ 12) 32)
  let pc : DWord := BitVec.ofNat 64 sl.pc
  let result (v : Option DWord) : State :=
    match v with
    | some x => s.retireX site n len rd x
    | none => s.trap site n 2
  let jump (t : DWord) : State :=
    (s.modSlot site n fun x => x.setX rd (pc + BitVec.ofNat 64 len)).retire site n t.toNat
  match w % 128 with
  | 0x37 => result (some immU)
  | 0x17 => result (some (pc + immU))
  | 0x6F => jump (pc + BitVec.ofInt 64 immJ)
  | 0x67 => if f3 = 0 then jump ((a + immI) &&& ~~~1#64) else s.trap site n 2
  | 0x63 =>
    match branch f3 a b with
    | some t => s.retire site n (if t then (pc + BitVec.ofInt 64 immB).toNat else sl.pc + len)
    | none => s.trap site n 2
  | 0x03 => s.rvLoad site n len rd f3 (a + immI).toNat
  | 0x23 => s.rvStore site n len f3 (a + immS).toNat b
  | 0x13 => result (alu64 true f3 (if f3 = 1 ∨ f3 = 5 then f7 else 0) a (if f3 = 1 ∨ f3 = 5 then BitVec.ofNat 64 (bits w 20 6) else immI))
  | 0x33 => result (alu64 false f3 f7 a b)
  | 0x1B => result (alu32 true f3 (if f3 = 1 ∨ f3 = 5 then f7 else 0) a (if f3 = 1 ∨ f3 = 5 then BitVec.ofNat 64 rs2 else immI))
  | 0x3B => result (alu32 false f3 f7 a b)
  | 0x0F => if f3 = 0 then s.retire site n (sl.pc + len) else s.trap site n 2
  | 0x2F => s.rvAtomic site n len rd f3 (bits w 27 5) rs2 a.toNat b
  | 0x73 => s.rvSystem site n len w
  | _ => s.trap site n 2

/-- The Barza opcode of a word (R65): its number in the order of the table, none where the word is not of the four custom
opcodes or names no row. -/
def barza (w : Nat) : Option Nat :=
  let f3 := bits w 12 3
  match w % 128 with
  | 0x0B => if f3 < 5 then some f3 else none
  | 0x2B => if f3 < 7 then some (5 + f3) else none
  | 0x5B => if f3 < 6 then some (12 + f3) else none
  | 0x7B => if f3 < 7 then some (18 + f3) else none
  | _ => none

/-- RV64IMAC_INSTRUCTION: a slot that runs executes the standard instruction at its pc. A fetch at or beyond CODE_LEN traps with
cause 1, a word that is neither standard nor a Barza opcode with cause 2. -/
def execRv64imac (site : Site) (n : SlotId) (s : State) : Host.Outcome State Fault Refusal :=
  .next (if s.runs site n then
      let s1 := s.issue site n
      match (s.slot site n).fetch with
      | none => s1.trap site n 1
      | some (w, 2) =>
        match expandC w with
        | some v => s1.rvExec site n v 2
        | none => s1.trap site n 2
      | some (w, len) => if (barza w).isSome then s else s1.rvExec site n w len
    else s.coreParity site n)

end Sys2Proof.Machine
end

