-- ==== Sys2Proof/Machine/Barza.lean ====
section
/-! DEFINITION. The Barza opcodes as a control core executes them (R64 to R70): operand checks, issue to the units' queues, and
what a block records for its commit. -/

namespace Sys2Proof.Machine

/-! ## Block code (R44, R45) -/

/-- Copy the code of a block entry into the slot's buffer, or note the trap that the entry takes (R44); the copy waits for a bank that
wakes (R216). -/
def State.copyEntry (s : State) (site n entry : Nat) : State :=
  let a := s.fld (Reg.SLOT_TAB_BASE site n) * 16 + 16 * entry
  let e := leNat (s.sliceGet site a 16)
  let off := bits e 0 32
  let len := bits e 32 16
  let bad := bits e 49 15 != 0 || bits e 96 32 != 0 || decide (len < 2) || decide (16384 < len) || off % 4 != 0
  let trap := if bad then 2 else if sliceSize site < off + len then 1 else 0
  let who : Who := { unit := coreUnit site n }
  if s.waking site a 16 || (trap == 0 && s.waking site off len) then
    s.modSlot site n fun x => { x with next := entry, copied := false, toCopy := true }
  else
    let s1 := (s.touchRead site a 16 who).1
    let s2 := if trap = 0 then (s1.touchRead site off len who).1 else s1
    s2.modSlot site n fun x => { x with
      next := entry, copied := true, toCopy := false, entId := bits e 64 32, entLast := bits e 48 1 == 1, entTrap := trap
      buf := if trap = 0 then s1.sliceGet site off len else [] }

/-! ## Issue -/

/-- Execute a Barza opcode: a slot that runs and whose pc holds that opcode. -/
def State.barza (s : State) (site n k : Nat) (f : Nat → SlotSt → State) : State :=
  if s.runs site n then
    match (s.slot site n).fetch with
    | some (w, 4) => if Machine.barza w = some k then (f w (s.slot site n)).issue site n else s
    | _ => s
  else s.coreParity site n

def fRd (w : Nat) : Nat := bits w 7 5
def fRs1 (w : Nat) : Nat := bits w 15 5
def fRs2 (w : Nat) : Nat := bits w 20 5
def f7 (w : Nat) : Nat := bits w 25 7

/-- Retire an opcode without a result. -/
def State.done4 (s : State) (site n : Nat) : State := s.retire site n ((s.slot site n).pc + 4)

/-- A fresh operation of the block in progress. -/
def State.newOp (s : State) (site n : Nat) (k : OpKind) (w desc : Nat) : Op :=
  { id := (s.cl site).nextOp, kind := k, slot := n, blk := (s.slot site n).blk.id, f7 := f7 w, desc := desc }

/-- Issue an array operation, or stall. -/
def State.issueArr (s : State) (site n : Nat) (o : Op) : State :=
  match s.queueArr site o with
  | some s1 => s1.done4 site n
  | none => s.stall site n (some (.arrays o.f7))

/-- Read a descriptor of 64 B; none where it is misaligned or beyond the slice. -/
def State.descAt (s : State) (site a : Nat) : Option Nat :=
  if a % 32 ≠ 0 ∨ sliceSize site < a + 64 then none else some (leNat (s.sliceGet site a 64))

def execBzAload (site : Site) (n : SlotId) (s : State) : Host.Outcome State Fault Refusal :=
  .next (s.barza site n 0 fun w sl =>
    if isVector site || fRd w != 0 || fRs2 w != 0 || f7 w % 16 == 0 || f7 w / 32 == 3 then s.trap site n 2
    else s.issueArr site n (s.newOp site n .aload w (sl.getX (fRs1 w)).toNat))

/-- Activation and accumulator formats that some row of R115 pairs. -/
def streamFmts (a acc : Nat) : Bool :=
  if acc = 0 then [0x01, 0x02, 0x03, 0x04, 0x08].contains a
  else if acc = 0x0E then a == 0x01 || a == 0x02
  else acc == 0x0D && (a == 0x08 || a == 0x09)

/-- The landing slots that a stream names in an array exist (R127, R150). -/
def State.landSpan (s : State) (site d a rows : Nat) : Bool :=
  bits d 23 1 == 0 || decide (bits d 0 10 + bits d 224 23 * a + (rows - 1) / max 1 (bits d 24 8) < s.fld (Reg.LAND_NSLOT_NSLOT site))

/-- The regulators are told of the current that units leaving idle will draw (R369). -/
def State.stepFrame (s : State) (site rail amps : Nat) : State :=
  if amps = 0 then s else s.regSend 4 rail (site / 8 + amps * 8)

/-- Reserved bits and fields of an array stream descriptor, and its formats (R77, R150); of a batch template, DST_ENTRY is ignored (R132). -/
def streamDescOk (d : Nat) (batch : Bool := false) : Bool :=
  bits d 48 16 == 0 && bits d 87 9 == 0 && bits d 112 16 == 0 && bits d 141 3 == 0 && bits d 154 6 == 0 && bits d 169 23 == 0
    && bits d 216 8 == 0 && bits d 247 9 == 0 && bits d 279 9 == 0 && bits d 343 169 == 0 && bits d 256 4 == 0
    && bits d 139 2 != 3 && syncOk (bits d 288 16)
    && (bits d 23 1 == 0 || bits d 24 8 != 0)
    && streamFmts (bits d 128 5) (bits d 133 5)
    && (batch || bits d 133 5 == 0 || decide (bits d 144 10 < 512))

/-- BZ.ASTREAM: a count of 0 issues nothing, writes a status record of zeros and signals at once (R65, R148). -/
def execBzAstream (site : Site) (n : SlotId) (s : State) : Host.Outcome State Fault Refusal :=
  .next (s.barza site n 1 fun w sl =>
    let rows := (sl.getX (fRs2 w)).toNat
    let desc := (sl.getX (fRs1 w)).toNat
    if isVector site || fRd w != 0 || f7 w % 16 == 0 || f7 w / 16 != 0 || decide (2 ^ 24 ≤ rows) then s.trap site n 2
    else if rows = 0 then
      if s.waking site desc 64 then s.stall site n (some (.bank desc 64))
      else match s.descAt site desc with
      | none => s.trap site n 2
      | some d =>
        if s.waking site (bits d 256 23) 16 then s.stall site n (some (.bank (bits d 256 23) 16))
        else if streamDescOk d && decide (bits d 256 23 + 16 ≤ sliceSize site) && (maskOf (f7 w % 16)).all (fun a => s.landSpan site d a 0) then
          let s1 := s.writeRec site (bits d 256 23) 0 (s.coreWho site n)
          (s1.opSignal site n sl.blk.id (bits d 288 16) (bits d 304 16) 1).done4 site n
        else s.trap site n 2
    else s.issueArr site n { s.newOp site n .astream w desc with arg := rows })

def execBzAinit (site : Site) (n : SlotId) (s : State) : Host.Outcome State Fault Refusal :=
  .next (s.barza site n 2 fun w sl =>
    if isVector site || fRd w != 0 || fRs2 w != 0 || f7 w % 16 == 0 || f7 w / 32 != 0 then s.trap site n 2
    else s.issueArr site n (s.newOp site n .ainit w (sl.getX (fRs1 w)).toNat))

/-- BZ.ABANK: the swap is recorded; an array named several times swaps once (R135). -/
def execBzAbank (site : Site) (n : SlotId) (s : State) : Host.Outcome State Fault Refusal :=
  .next (s.barza site n 3 fun w _ =>
    if isVector site || fRd w != 0 || fRs1 w != 0 || fRs2 w != 0 || f7 w % 16 == 0 || f7 w / 16 != 0 then s.trap site n 2
    else (s.modBlk site n fun b => { b with swaps := b.swaps ||| f7 w % 16 }).done4 site n)

def execBzAstat (site : Site) (n : SlotId) (s : State) : Host.Outcome State Fault Refusal :=
  .next (s.barza site n 4 fun w _ =>
    if isVector site || fRs1 w != 0 || fRs2 w != 0 || f7 w / 4 != 0 then s.trap site n 2
    else s.retireX site n 4 (fRd w) ((s.rd (Reg.ARR_STATUS site (f7 w % 4))).setWidth 64))

/-! ## Vector opcodes -/

/-- The engine of a vector opcode; a matrix cluster has engine 0 only (R152). -/
def engOk (site w : Nat) : Bool := isVector site || f7 w / 64 == 0

def execBzVsetvl (site : Site) (n : SlotId) (s : State) : Host.Outcome State Fault Refusal :=
  .next (s.barza site n 5 fun w sl =>
    if !engOk site w || fRs2 w != 0 || f7 w % 64 != 0 then s.trap site n 2
    else
      let v := min (sl.getX (fRs1 w)).toNat 65536
      (s.setFld (Reg.SLOT_VL_VL site n (f7 w / 64)) v).retireX site n 4 (fRd w) (BitVec.ofNat 64 v))

/-- Issue a vector operation with the slot's VL and scalars (R154, R165), or stall. -/
def State.issueVec (s : State) (site n : Nat) (k : OpKind) (w : Nat) (sl : SlotSt) (s0 : Word) : State :=
  let e := f7 w / 64
  let o : Op := { s.newOp site n k w (sl.getX (fRs1 w)).toNat with
    vl := s.fld (Reg.SLOT_VL_VL site n e), scal := s0 :: (List.range 7).map fun i => sl.getY (i + 1) }
  if roomIn (s.eng site e).queue n then
    (((s.bump site).modEng site e fun x => { x with queue := x.queue ++ [o] }).showQueues site).done4 site n
  else s.stall site n (some (.engine e))

def execBzVrun (site : Site) (n : SlotId) (s : State) : Host.Outcome State Fault Refusal :=
  .next (s.barza site n 6 fun w sl =>
    if !engOk site w || fRd w != 0 then s.trap site n 2
    else s.issueVec site n .vrun w sl ((sl.getX (fRs2 w)).setWidth 32))

def execBzVred (site : Site) (n : SlotId) (s : State) : Host.Outcome State Fault Refusal :=
  .next (s.barza site n 7 fun w sl =>
    if !engOk site w || fRd w != 0 || fRs2 w != 0 || f7 w / 8 % 8 != 0 || 6 ≤ f7 w % 8 then s.trap site n 2
    else s.issueVec site n .vred w sl 0)

def execBzVperm (site : Site) (n : SlotId) (s : State) : Host.Outcome State Fault Refusal :=
  .next (s.barza site n 8 fun w sl =>
    if !engOk site w || fRd w != 0 || fRs2 w != 0 || f7 w % 64 != 0 then s.trap site n 2
    else s.issueVec site n .vperm w sl 0)

def execBzVcmpx (site : Site) (n : SlotId) (s : State) : Host.Outcome State Fault Refusal :=
  .next (s.barza site n 9 fun w sl =>
    if !engOk site w || fRd w != 0 || fRs2 w != 0 || f7 w / 2 % 32 != 0 then s.trap site n 2
    else s.issueVec site n .vcmpx w sl 0)

def execBzVstat (site : Site) (n : SlotId) (s : State) : Host.Outcome State Fault Refusal :=
  .next (s.barza site n 10 fun w _ =>
    if !engOk site w || fRs1 w != 0 || fRs2 w != 0 || f7 w % 64 != 0 then s.trap site n 2
    else s.retireX site n 4 (fRd w) ((s.rd (Reg.VE_STATUS site (f7 w / 64))).setWidth 64))

def execBzYmv (site : Site) (n : SlotId) (s : State) : Host.Outcome State Fault Refusal :=
  .next (s.barza site n 11 fun w sl =>
    if fRs2 w != 0 || f7 w / 2 != 0 then s.trap site n 2
    else if f7 w = 0 then
      (s.modSlot site n fun x => x.setY (fRd w) ((sl.getX (fRs1 w)).setWidth 32)).done4 site n
    else s.retireX site n 4 (fRd w) ((sl.getY (fRs1 w)).signExtend 64))

/-! ## Streams (R196 to R208) -/

/-- Element width in bytes of EW. -/
def ewBytes (e : Nat) : Nat := if e = 0 then 1 else if e = 1 then 2 else 4

/-- Place of byte `b` of the memory image in the local image (R198), for XPOSE, DEAL, width, rows, columns, strides. -/
def dealPlace (xpose deal : Bool) (w rows cols bytes ostride gstride b : Nat) : Nat :=
  let c0 := if xpose then cols else bytes / (rows * w)
  let r := b / w / max 1 c0
  let c := b / w % max 1 c0
  let k := b % w
  match xpose, deal with
  | false, false => b
  | true, false => c * ostride + r * w + k
  | false, true => r % 4 * gstride + r / 4 * ostride + c * w + k
  | true, true => c % 4 * gstride + c / 4 * ostride + r * w + k

def armXpose (r : Nat) : Bool := bits r 3 1 == 1
def armDeal (r : Nat) : Bool := bits r 4 1 == 1
def armCount (r : Nat) : Nat := bits r 160 24

/-- The place of byte `b` of a transfer, from its local start. -/
def armPlace (r b : Nat) : Nat :=
  dealPlace (armXpose r) (armDeal r) (ewBytes (bits r 6 2)) (bits r 33 8) (bits r 41 8) (armBytes r) (bits r 288 16) (bits r 320 23) b

/-- The bytes from its local start that a transfer reaches. -/
def armReach (r : Nat) : Nat :=
  if armXpose r || armDeal r then (List.range (armBytes r)).foldl (fun a b => max a (armPlace r b + 1)) 0 else armBytes r

/-- The local start of transfer `i` (R198). -/
def State.armStart (s : State) (site r i : Nat) : Nat :=
  if armLand r then s.landAddr site (armSlot r i)
  else
    let wrap := bits r 232 16
    bits r 208 23 + (if wrap = 0 then i else i % wrap) * bits r 256 23

/-- Whether an arm record is a legal encoding (R196, R197, R221). -/
def State.armOk (s : State) (site r : Nat) : Bool :=
  let kind := armKind r
  let deal := armXpose r || armDeal r
  let w := ewBytes (bits r 6 2)
  let rows := bits r 33 8
  let cols := bits r 41 8
  let wrap := bits r 232 16
  let dst := bits r 64 32
  let last := if wrap = 0 then armCount r - 1 else min (armCount r) wrap - 1
  kind != 3 && bits r 6 2 != 3 && decide (1 ≤ bits r 8 8) && decide (bits r 8 8 ≤ 32)
    && decide (1 ≤ armBytes r) && decide (armBytes r ≤ 65536) && armCount r != 0
    && bits r 49 15 == 0 && bits r 231 1 == 0 && bits r 248 8 == 0 && bits r 279 9 == 0 && bits r 304 16 == 0
    && bits r 343 9 == 0 && bits r 400 112 == 0
    && (!deal || (decide (1 ≤ rows) && decide (rows ≤ 128) && decide (1 ≤ cols) && decide (cols ≤ 128)))
    && (!armXpose r || armBytes r == rows * cols * w)
    && (!armDeal r || armBytes r % rows == 0)
    && (if kind = 2 then ownOk (bits r 352 16) else syncOk (bits r 352 16))
    && (kind != 2 || (bits dst 25 1 == 0 && bits dst 26 1 == 0 && bits dst 0 4 == 10 && bits dst 27 5 == 0 && bits r 110 2 == 0
        && decide (1 ≤ bits r 112 16) && decide (bits r 112 16 ≤ 1024) && decide (bits r 96 10 + bits r 112 16 - 1 ≤ 1023)))
    && (if armLand r then
          decide (1 ≤ wrap) && decide (wrap ≤ 1024) && decide (bits r 208 10 + wrap ≤ s.fld (Reg.LAND_NSLOT_NSLOT site))
            && decide (armBytes r ≤ s.landBytes site)
        else true)
    && decide (s.armStart site r last + armReach r ≤ sliceSize site)

/-- BZ.SARM (R196). -/
def State.sarm (s : State) (site n w a d : Nat) : State :=
  if s.waking site a 64 then s.stall site n (some (.bank a 64))
  else match s.descAt site a with
  | none => s.trap site n 2
  | some r =>
    if !s.armOk site r then s.trap site n 2
    else
      let c := s.ctx site d
      let b := (s.slot site n).blk
      let home := s.rd (Reg.STR_HOME site d)
      let who := s.coreWho site n
      let arm : Arm := { desc := r, home := a, slot := n, blk := b.id, limit := bits r 184 24 }
      let s0 := (s.touchRead site a 64 who).1
      let note (s : State) (shadow : Bool) : State := s.modBlk site n fun b => { b with arms := b.arms ++ [(d, shadow, home)] }
      if c.act.isNone then
        let s1 := (note s0 false).modCtx site d fun c => { c with act := some arm, stop := false, stall := none }
        ((s1.wr (Reg.STR_HOME site d) (BitVec.ofNat 32 (a % 2 ^ 23 + 2 ^ 23))).showCtx site d).retireX site n 4 (fRd w) 0
      else if c.shd.isNone then
        (((note s0 true).modCtx site d fun c => { c with shd := some arm }).showCtx site d).retireX site n 4 (fRd w) 1
      else (s0.count (Reg.FE_REFUSED_COUNT site) 1).retireX site n 4 (fRd w) 2

def execBzSarm (site : Site) (n : SlotId) (s : State) : Host.Outcome State Fault Refusal :=
  .next (s.barza site n 12 fun w sl =>
    if fRs2 w != 0 || 64 ≤ f7 w then s.trap site n 2 else s.sarm site n w (sl.getX (fRs1 w)).toNat (f7 w))

/-- BZ.DEP (R204): a marker for the newest arm. -/
def State.dep (s : State) (site n d ref v : Nat) : State :=
  let c := s.ctx site d
  let m : Marker := { ref := ref, thr := bits v 0 24, step := bits v 24 24 }
  let arm := if c.shd.isSome then c.shd else c.act
  match arm with
  | none => (s.count (Reg.FE_MK_DROP_COUNT site) 1).done4 site n
  | some a =>
    if armCount a.desc ≤ a.next then (s.count (Reg.FE_MK_DROP_COUNT site) 1).done4 site n
    else if 8 ≤ a.marks.length then s.stall site n (some (.marker d))
    else
      let a' := { a with marks := a.marks ++ [m], waited := if a.marks.isEmpty then 0 else a.waited }
      let s1 := s.modCtx site d fun c => if c.shd.isSome then { c with shd := some a' } else { c with act := some a' }
      (s1.showCtx site d).done4 site n

def execBzDep (site : Site) (n : SlotId) (s : State) : Host.Outcome State Fault Refusal :=
  .next (s.barza site n 13 fun w sl =>
    let ref := (sl.getX (fRs1 w)).toNat
    let v := (sl.getX (fRs2 w)).toNat
    if fRd w != 0 || 64 ≤ f7 w || 2 ^ 16 ≤ ref || !ownOk ref || 2 ^ 48 ≤ v || bits v 24 24 == 0 then s.trap site n 2
    else s.dep site n (f7 w) ref v)

/-- A LOAD issued under the epoch that a cancel would take is still in flight (R208). -/
def State.epochBusy (s : State) (site d : Nat) : Bool :=
  let e := (s.fld (Reg.STR_STATE_EPOCH site d) + 1) % 16
  (s.ctx site d).xfers.any fun x => armKind x.desc == 0 && x.epoch == e

def execBzScancel (site : Site) (n : SlotId) (s : State) : Host.Outcome State Fault Refusal :=
  .next (s.barza site n 14 fun w _ =>
    if fRs1 w != 0 || fRs2 w != 0 || 64 ≤ f7 w then s.trap site n 2
    else if s.epochBusy site (f7 w) then
      (s.modSlot site n fun x => { x with wait := some (.cancel (f7 w), 0) }).stall site n none
    else
      let s1 := s.cancelCtx site (f7 w)
      s1.retireX site n 4 (fRd w) (BitVec.ofNat 64 (s1.fld (Reg.STR_STATE_EPOCH site (f7 w)))))

/-! ## Sends, fills and copies -/

/-- Address of an entry of the link schedule, and the entry (R60). -/
def State.schedAddr (s : State) (site d j : Nat) : Nat := s.fld (Reg.LINK_SCHED_BASE site) * 4096 + 8 * (128 * d + j)
def State.schedEntry (s : State) (site d j : Nat) : Nat := leNat (s.sliceGet site (s.schedAddr site d j) 8)

/-- BZ.SEND (R61, R193). A BYTES of 0 or above 32,768 traps with cause 2, as a reserved encoding does (log entry 63). -/
def execBzSend (site : Site) (n : SlotId) (s : State) : Host.Outcome State Fault Refusal :=
  .next (s.barza site n 15 fun w sl =>
    let j := (sl.getX (fRs1 w)).toNat
    let r := (sl.getX (fRs2 w)).toNat
    let src := bits r 0 23
    let len := bits r 24 16
    let at_ := s.schedAddr site (f7 w % 4) (j % 128)
    let kind := s.schedEntry site (f7 w % 4) (j % 128) % 4
    if s.waking site at_ 8 then s.stall site n (some (.bank at_ 8))
    else if fRd w != 0 || f7 w / 4 != 0 || 2 ^ (s.fld Reg.BEAT_CFG_K - 9) ≤ j || kind == 0 || kind == 3 || bits r 23 1 != 0
        || 2 ^ 40 ≤ r || len == 0 || 32768 < len || src % 128 != 0 || sliceSize site < src + len then s.trap site n 2
    else
      let rec_ : SendRec := { dir := f7 w % 4, j := j, src := src, len := len, slot := n, blk := sl.blk.id, seq := (s.cl site).nextOp }
      ((s.bump site).modBlk site n fun b => { b with sends := b.sends ++ [rec_] }).done4 site n)

/-- The bytes that a block of a transposer copy reaches (R198, R212). -/
def copyReach (d : Nat) : Nat :=
  (List.range (bits d 64 23)).foldl (fun a b => max a (dealPlace true (bits d 194 1 == 1) (ewBytes (bits d 192 2)) (bits d 195 8)
    (bits d 203 8) (bits d 64 23) (bits d 224 16) (bits d 240 23) b + 1)) 0

/-- Whether a copy descriptor is legal for a fill, a plain copy or a transposer copy (R212). -/
def copyOk (k : OpKind) (d size : Nat) : Bool :=
  let bytes := bits d 64 23
  let n := bits d 96 16
  let src := bits d 0 23
  let dst := bits d 23 23
  let sstep := bits d 128 23
  let dstep := bits d 151 23
  let w := ewBytes (bits d 192 2)
  let rows := bits d 195 8
  let cols := bits d 203 8
  let shape := bits d 192 2 != 3 && decide (1 ≤ rows) && decide (rows ≤ 128) && decide (1 ≤ cols) && decide (cols ≤ 128)
    && bytes == rows * cols * w
  let reach := if k = .xcopy then copyReach d else bytes
  bits d 46 18 == 0 && bits d 87 9 == 0 && bits d 112 16 == 0 && bits d 174 18 == 0 && bits d 211 13 == 0 && bits d 263 25 == 0
    && bits d 320 192 == 0 && bytes != 0 && n != 0 && syncOk (bits d 288 16)
    && (k != .xcopy || shape)
    && decide (dst + (n - 1) * dstep + reach ≤ size)
    && (if k = .fill then dst % 8 == 0 && bytes % 8 == 0
        else decide (src + (n - 1) * sstep + bytes ≤ size)
          && (List.range n).all fun i =>
            decide (src + i * sstep + bytes ≤ dst + i * dstep) || decide (dst + i * dstep + reach ≤ src + i * sstep))

/-- Issue a fill or copy to the fetch engine or the transposer: its descriptor is read and checked, and it queues or stalls (R51,
R212, R213). -/
def State.issueCopy (s : State) (site n : Nat) (o : Op) : State :=
  let q := if o.kind = .xcopy then (s.cl site).xcopies else (s.cl site).fills
  if s.waking site o.desc 64 then s.stall site n (some (.bank o.desc 64))
  else match s.descAt site o.desc with
  | none => s.trap site n 2
  | some d =>
    if !copyOk o.kind d (sliceSize site) then s.trap site n 2
    else if roomIn (q.drop 1) n then
      let s0 := (s.touchRead site o.desc 64 (s.coreWho site n)).1
      let s1 := (s0.bump site).modCl site fun c =>
        if o.kind = .xcopy then { c with xcopies := c.xcopies ++ [{ o with desc := d }], xline := c.xline ++ [(64, o.id)] }
        else { c with fills := c.fills ++ [{ o with desc := d }] }
      (s1.showQueues site).done4 site n
    else s.stall site n (some (.copies (o.kind == .xcopy)))

def execBzFill (site : Site) (n : SlotId) (s : State) : Host.Outcome State Fault Refusal :=
  .next (s.barza site n 16 fun w sl =>
    if fRd w != 0 || f7 w != 0 then s.trap site n 2
    else s.issueCopy site n { s.newOp site n .fill w (sl.getX (fRs1 w)).toNat with arg := (sl.getX (fRs2 w)).toNat })

def execBzCopy (site : Site) (n : SlotId) (s : State) : Host.Outcome State Fault Refusal :=
  .next (s.barza site n 17 fun w sl =>
    if fRd w != 0 || fRs2 w != 0 || f7 w / 2 != 0 then s.trap site n 2
    else s.issueCopy site n (s.newOp site n (if f7 w = 1 then .xcopy else .copy) w (sl.getX (fRs1 w)).toNat))

/-! ## Sync and beat opcodes -/

/-- BZ.SIG (R221, R222). -/
def execBzSig (site : Site) (n : SlotId) (s : State) : Host.Outcome State Fault Refusal :=
  .next (s.barza site n 18 fun w sl =>
    let r := (sl.getX (fRs1 w)).toNat
    let ref := bits r 0 16
    let dst := bits r 16 32
    let inc := (sl.getX (fRs2 w)).toInt
    let scope := bits ref 14 2
    let refGood := refOk ref && scope != 2
      && (if scope = 3 then bits r 48 16 == 0 && bits dst 25 1 == 0 && bits dst 0 4 == 9 else bits r 16 48 == 0)
    if fRd w != 0 || f7 w != 0 || !refGood || decide (inc < -(2 ^ 24 - 1)) || decide (2 ^ 24 - 1 < inc) then s.trap site n 2
    else
      let g : Sig := { ref := ref, inc := inc, dst := dst, src := s.unitAddr site (coreUnit site n) }
      (s.modBlk site n fun b => { b with sigs := b.sigs ++ [g] }).done4 site n)

/-- Take a threshold on wake: from the pending delta first, then from the committed value (R225). -/
def State.takeThr (s : State) (site n ref thr : Nat) : State :=
  let o := ref % 64
  let d := Store.get 0 (s.slot site n).blk.deltas o
  let t1 := min (thr : Int) (max d 0)
  let rest := thr - t1.toNat
  let s1 := s.modBlk site n fun b => { b with deltas := Store.upd 0 b.deltas o (· - t1) }
  if rest = 0 then s1
  else
    let s2 := s1.objAdd site o (-(rest : Int)) (s.unitAddr site (coreUnit site n)) s.beatLow
    s2.modBlk site n fun b => { b with taken := Store.upd 0 b.taken o (· + rest) }

/-- BZ.WAIT (R225). -/
def execBzWait (site : Site) (n : SlotId) (s : State) : Host.Outcome State Fault Refusal :=
  .next (s.barza site n 19 fun w sl =>
    let ref := (sl.getX (fRs1 w)).toNat
    let thr := (sl.getX (fRs2 w)).toNat
    let sub := f7 w == 1
    if fRd w != 0 || 2 ≤ f7 w || 2 ^ 16 ≤ ref || !ownOk ref || (sub && bits ref 14 2 != 0) || 2 ^ 24 ≤ thr then s.trap site n 2
    else if (thr : Int) ≤ s.seen site n ref then
      (if sub then s.takeThr site n ref thr else s).done4 site n
    else (s.modSlot site n fun x => { x with wait := some (.object ref thr sub, 0) }).stall site n none)

/-- Whether a slot's wait is met. -/
def State.waitHolds (s : State) (site n : Nat) : Bool :=
  match (s.slot site n).wait with
  | some (.object ref thr _, _) => decide ((thr : Int) ≤ s.seen site n ref)
  | some (.cancel d, _) => !s.epochBusy site d
  | none => false

/-- A lower slot with a subtracting wait on the same object is met and is served first (R225). -/
def State.servedFirst (s : State) (site n : Nat) : Bool :=
  match (s.slot site n).wait with
  | some (.object ref _ true, _) =>
    (List.range n).any fun m =>
      match (s.slot site m).wait with
      | some (.object r _ true, _) => r == ref && s.waitHolds site m
      | _ => false
  | _ => false

/-- WAIT_MET: the wait ends, a subtracting one takes its threshold, and the BZ.WAIT retires; a cancel stall ends and the
BZ.SCANCEL executes again. -/
def execWaitMet (site : Site) (n : SlotId) (s : State) : Host.Outcome State Fault Refusal :=
  .next (if s.alive && !s.testing site 9 && s.waitHolds site n && !s.servedFirst site n then
      let clear (s : State) : State := s.modSlot site n fun x => { x with wait := none }
      match (s.slot site n).wait with
      | some (.object ref thr sub, _) => (clear (if sub then s.takeThr site n ref thr else s)).done4 site n
      | _ => clear s
    else s)

/-- The tile takes part in a barrier (R230): of tile span every tile does, of a wider span those in TILES. -/
def State.barTile (s : State) (b : Nat) : Bool :=
  s.fld (Reg.BAR_CFG_SPAN b) == 0 || (s.fld (Reg.BAR_EXPECT_TILES b)).testBit (s.fld Reg.TILE_ID_TILE_NUM)

/-- BZ.BAR (R231): the generation it counts toward, or 0xFFFF for an arrival that is discarded at the commit; a slot of a tile that TILES
leaves out is no participant (log entry 64). -/
def execBzBar (site : Site) (n : SlotId) (s : State) : Host.Outcome State Fault Refusal :=
  .next (s.barza site n 20 fun w sl =>
    let ref := (sl.getX (fRs1 w)).toNat
    let b := ref % 64
    if fRs2 w != 0 || 2 ≤ f7 w || 2 ^ 16 ≤ ref || bits ref 14 2 != 2 || !refOk ref then s.trap site n 2
    else if !s.flag (Reg.BAR_CFG_EN b) || !(s.barMask site b).testBit n || !s.barTile b then
      (s.modBlk site n fun k => { k with bars := k.bars ++ [(b, false, none)] }).retireX site n 4 (fRd w) 0xFFFF
    else
      let g := (Store.get 0 sl.arrived b + (sl.blk.bars.filter fun p => p.1 == b && p.2.2.isSome).length) % 2 ^ 16
      (s.modBlk site n fun k => { k with bars := k.bars ++ [(b, f7 w == 0, some g)] }).retireX site n 4 (fRd w) (BitVec.ofNat 64 g))

/-- BZ.ENDB (R46, R47): the block ends, its next entry's code is copied, a block that has failed is discarded. -/
def execBzEndb (site : Site) (n : SlotId) (s : State) : Host.Outcome State Fault Refusal :=
  .next (s.barza site n 21 fun w sl =>
    let entries := s.fld (Reg.SLOT_CFG_ENTRIES site n)
    let cur := s.fld (Reg.SLOT_STATUS_ENTRY site n)
    let idx := (sl.getX (fRs1 w)).toNat
    let named := f7 w == 1
    if fRd w != 0 || fRs2 w != 0 || 2 ≤ f7 w || (named && !sl.blk.last && decide (entries ≤ idx)) then s.trap site n 2
    else
      let nxt := if named then idx else if entries ≤ cur + 1 then 0 else cur + 1
      let s1 := ((s.done4 site n).modSlot site n fun x => { x with ended := true }).showSlot site n slCommit
      let s2 := if sl.blk.last || sl.blk.failed then s1.modSlot site n fun x => { x with copied := false, toCopy := false }
        else s1.copyEntry site n nxt
      s2.settle site n)

/-! ## The batcher (R68 to R70) -/

/-- BZ.BATCH: the row joins the queue; the 128th row releases it in that cycle, or once the array's issue queue has room. With `BATCH_CFG.EN` 0 nothing is appended and the
count is returned (log entry 25). -/
def execBzBatch (site : Site) (n : SlotId) (s : State) : Host.Outcome State Fault Refusal :=
  .next (s.barza site n 22 fun w sl =>
    let a := f7 w % 4
    let rows := (s.arr site a).batch
    if isVector site || fRs2 w != 0 || f7 w / 4 != 0 then s.trap site n 2
    else if !s.flag (Reg.BATCH_CFG_EN site) then s.retireX site n 4 (fRd w) (BitVec.ofNat 64 rows.length)
    else if 128 ≤ rows.length then s.stall site n (some (.batch a))
    else
      let s1 := (s.modArr site a fun x => { x with batch := rows ++ [(sl.getX (fRs1 w)).toNat] }).setFld
        (Reg.BATCH_STATUS_ROWS site a) (rows.length + 1)
      let s2 := if rows.length + 1 = 128 then (s1.batchRelease site a).getD s1 else s1
      s2.retireX site n 4 (fRd w) (BitVec.ofNat 64 (rows.length + 1)))

def execBzBflush (site : Site) (n : SlotId) (s : State) : Host.Outcome State Fault Refusal :=
  .next (s.barza site n 23 fun w _ =>
    if isVector site || fRd w != 0 || fRs1 w != 0 || fRs2 w != 0 || f7 w / 4 != 0 then s.trap site n 2
    else
      match s.batchRelease site (f7 w % 4) with
      | some s1 => s1.done4 site n
      | none => s.stall site n (some (.flush (f7 w % 4))))

/-- BATCH_LIMIT_RELEASE (R69): `WAITED` has reached a LIMIT_BEATS that is not 0, or 128 rows wait. -/
def execBatchLimitRelease (site : Site) (a : ArrId) (s : State) : Host.Outcome State Fault Refusal :=
  let limit := s.fld (Reg.BATCH_CFG_LIMIT_BEATS site)
  .next (if s.alive && s.live site && !isVector site
        && ((limit != 0 && decide (limit ≤ s.fld (Reg.BATCH_STATUS_WAITED site a))) || decide (128 ≤ (s.arr site a).batch.length)) then
      (s.batchRelease site a).getD s
    else s)

def execBzMark (site : Site) (n : SlotId) (s : State) : Host.Outcome State Fault Refusal :=
  .next (s.barza site n 24 fun w _ =>
    if fRs1 w != 0 || fRs2 w != 0 || f7 w != 0 then s.trap site n 2
    else s.retireX site n 4 (fRd w) (BitVec.ofNat 64 (s.rd64 Reg.BEAT_COUNT)))

end Sys2Proof.Machine
end

