-- ==== Sys2Proof/Machine/Arrays.lean ====
section
/-! DEFINITION. The matrix arrays (R114 to R151): loads, streams row by row, accumulators, readout, checks, dummy rows. -/

namespace Sys2Proof.Machine

/-! ## Operand pairs (R115, R116) -/

/-- Weight formats with two leaf positions per cell row. -/
def denseFmt (w : Nat) : Bool := w == 0x05 || w == 0x06 || w == 0x07 || w == 0x0A || w == 0x0B || w == 0x0C

/-- The path of a weight, activation and accumulator format: true for the integer path; none where they form no row of R115. -/
def pairPath (w a acc : Nat) : Option Bool :=
  let fp8 := a == 0x03 || a == 0x04
  let int8 := a == 0x08 || a == 0x09
  let lowInt := w == 0x0A || w == 0x0B || w == 0x0C
  if (w == 0x03 || w == 0x04 || w == 0x05 || w == 0x06 || w == 0x07) && (fp8 || a == 0x08) && acc == 0x00 then some false
  else if (w == 0x08 || lowInt) && fp8 && acc == 0x00 then some false
  else if (w == 0x08 || lowInt) && int8 && acc == 0x0D then some true
  else if (w == 0x02 && a == 0x02 || w == 0x01 && a == 0x01) && (acc == 0x00 || acc == 0x0E) then some false
  else none

/-- Weight formats that a load accepts. -/
def weightFmt (w : Nat) : Bool := denseFmt w || w == 0x01 || w == 0x02 || w == 0x03 || w == 0x04 || w == 0x08

/-- A NUMERIC field resolves to strict (R104). -/
def State.strictOf (s : State) (site v : Nat) : Bool := v == 1 || (v == 2 && s.flag (Reg.NUM_CTL_STRICT site))

/-- Bytes of `n` elements of a format. -/
def elemBytes (fmt n : Nat) : Nat := (n * fmtBits fmt + 7) / 8

/-- Code of element `i` of bytes given as a number (R82, R84). -/
def codeAt (fmt v i : Nat) : Nat := bits v (i * fmtBits fmt) (fmtBits fmt)

/-! ## Loads (R119 to R124) -/

/-- Problems of a packing field. -/
def probsOf (o : Op) : Nat := 2 ^ (o.f7 / 32 % 4)
/-- Arrays of an operation. -/
def Op.arrays (o : Op) : List Nat := maskOf (o.f7 % 16)
/-- One weight set goes to every array. -/
def Op.gang (o : Op) : Bool := bits o.f7 4 1 == 1

/-- Slice ranges that a load reads for array `a`: weights, a partly used block whole; scales; the table (R119, R123, R124, R150). A
diagonal load has one scale for each 32 consecutive values (log entry 73). -/
def loadRanges (o : Op) (d a : Nat) : List (Nat × Nat) :=
  let w := bits d 128 5
  let k := bits d 133 9
  let n := bits d 142 7
  let lofs := if o.gang then 0 else a * bits d 224 23
  let whole (m : Nat) : Nat := elemBytes w (if isMx w then 32 * ((m + 31) / 32) else m)
  let src := bits d 0 23 + lofs
  let diag := bits d 149 1 == 1
  let weights :=
    if k = 0 then []
    else if diag then [(src, whole n)]
    else (List.range (probsOf o)).flatMap fun j => (List.range n).map fun c => (src + j * bits d 80 23 + c * bits d 64 16, whole k)
  let scales :=
    if k = 0 ∨ isMx w = false then []
    else [(bits d 23 23 + lofs, if diag then (n + 31) / 32 else probsOf o * n * ((k + 31) / 32))]
  let table := if (List.range 4).any fun g => bits d (160 + 2 * g) 2 == 1 then [(bits d 192 23, 64)] else []
  weights ++ scales ++ table

/-- Ranges lie in the slice. -/
def inSite (site : Nat) (rs : List (Nat × Nat)) : Bool := rs.all fun r => decide (r.1 + r.2 ≤ sliceSize site)

/-- A bank of some range is WAKING: the access stalls (R216). -/
def State.wakesAny (s : State) (site : Nat) (rs : List (Nat × Nat)) : Bool := rs.any fun r => s.waking site r.1 r.2

/-- A unit reads ranges. -/
def State.touchAll (s : State) (site : Nat) (rs : List (Nat × Nat)) (who : Who) : State :=
  rs.foldl (fun s r => (s.touchRead site r.1 r.2 who).1) s

/-- Whether a weight-load descriptor is a legal encoding for an operation, and its ranges lie in the slice (R122 to R124, R150). DESIGN
CHOICE (log entry 99): TABLE is judged only where some column group uses it (EXPMODE 1). -/
def State.loadOk (s : State) (site : Nat) (o : Op) (d : Nat) : Bool :=
  let w := bits d 128 5
  let k := bits d 133 9
  let n := bits d 142 7
  let p := probsOf o
  let leaves := if denseFmt w then 256 else 128
  let modes := (List.range 4).map fun g => bits d (160 + 2 * g) 2
  weightFmt w && bits d 46 18 == 0 && bits d 103 25 == 0 && bits d 152 8 == 0 && bits d 184 8 == 0 && bits d 215 9 == 0
    && bits d 247 9 == 0 && bits d 279 9 == 0 && bits d 320 192 == 0 && bits d 256 4 == 0 && bits d 150 2 != 3
    && !s.strictOf site (bits d 150 2) && syncOk (bits d 288 16)
    && decide (1 ≤ n) && decide (n ≤ 64 / p) && decide (k ≤ leaves / p)
    && modes.all (fun m => m != 3 && (m == 0 || w == 0x0A || w == 0x0B))
    && (bits d 149 1 == 0 || (p == 1 && !denseFmt w && k == n))
    && (!modes.contains 1 || bits d 192 4 == 0)
    && o.arrays.all (fun a => inSite site (loadRanges o d a))
    && decide (bits d 256 23 + 16 ≤ sliceSize site)

/-- Value of a weight code in a column group (R85, R123). -/
def State.weightOf (s : State) (site d group code scale : Nat) : Num :=
  let w := bits d 128 5
  match bits d (160 + 2 * group) 2 with
  | 1 => Num.ofInt (sext (leNat (s.sliceGet site (bits d 192 23 + 16 * group + code) 1)) 8)
  | 2 => Num.ofInt ((code : Int) - bits d (168 + 4 * group) 4)
  | _ => decodeElem w code scale 0

/-- The expanded weights of one column of one problem: K values. -/
def State.weightColumn (s : State) (site d lofs j n group : Nat) : List Num :=
  let w := bits d 128 5
  let k := bits d 133 9
  let g := (k + 31) / 32
  let v := leNat (s.sliceGet site (bits d 0 23 + lofs + j * bits d 80 23 + n * bits d 64 16) (elemBytes w k))
  let scl := if isMx w then s.sliceGet site (bits d 23 23 + lofs + (j * bits d 142 7 + n) * g) g else []
  (List.range k).map fun i => s.weightOf site d group (codeAt w v i) ((scl.getD (i / 32) 127).toNat)

/-- The cells of a load: 64 columns by leaf position (R119, R122, R124). The MX scales of a diagonal load are one byte for 32 consecutive
values (log entry 73). -/
def State.loadCells (s : State) (site d lofs probs : Nat) : List (List (Option Num)) :=
  let w := bits d 128 5
  let k := bits d 133 9
  let n := bits d 142 7
  let leaves := if denseFmt w then 256 else 128
  if bits d 149 1 = 1 then
    let v := leNat (s.sliceGet site (bits d 0 23 + lofs) (elemBytes w n))
    let scl := if isMx w then s.sliceGet site (bits d 23 23 + lofs) ((n + 31) / 32) else []
    (List.range 64).map fun c => (List.range leaves).map fun p =>
      if c < n ∧ p = c then some (s.weightOf site d (c / 16) (codeAt w v c) ((scl.getD (c / 32) 127).toNat)) else none
  else
    let span := leaves / probs
    let width := 64 / probs
    (List.range 64).map fun c =>
      let j := c / width
      let i := c % width
      if i < n then
        let col := s.weightColumn site d lofs j i (c / 16)
        List.replicate (j * span) none ++ (col.map some) ++ List.replicate (leaves - j * span - k) none
      else List.replicate leaves none

/-! ## Streams (R125 to R128) -/

/-- Elements of a row of the current load. -/
def Arr.rowElems (x : Arr) : Nat := (x.probs - 1) * (x.leaves / x.probs) + x.k

/-- The operations of an array that have started and not completed, in order. -/
def Arr.runs (x : Arr) : List Run := x.past ++ x.cur.toList

/-- The array holds weights: a load has completed, or has loaded its last cell row (R120, R148, log entry 74). -/
def State.weighted (s : State) (site a : Nat) : Bool :=
  s.flag (Reg.ARR_STATUS_WVALID site a) || (s.arr site a).runs.any fun r => r.op.kind == .aload && r.done

/-- The bitmap of a stream's rows (R146). -/
def maskRange (d rows : Nat) : List (Nat × Nat) := if bits d 215 1 = 0 then [] else [(bits d 192 23, (rows + 7) / 8)]

/-- The rows of a stream from landing slots, and their scales, lie in the slice (R127, R150): in each slot its last row reaches furthest. -/
def State.slotRowsIn (s : State) (site a d rows rb g : Nat) : Bool :=
  let rps := max 1 (bits d 24 8)
  (List.range ((rows + rps - 1) / rps)).all fun q =>
    let m := min rps (rows - q * rps)
    let base := s.landAddr site (bits d 0 10 + bits d 224 23 * a + q)
    decide (base + (m - 1) * bits d 32 16 + rb ≤ sliceSize site)
      && (!isMx (bits d 128 5) || decide (base + rps * bits d 32 16 + g * m ≤ sliceSize site))

/-- Whether a stream descriptor is legal against the loads of its arrays, with its ranges in the slice (R116, R125 to R127, R150). -/
def State.streamOk (s : State) (site : Nat) (o : Op) (d : Nat) : Bool :=
  let afmt := bits d 128 5
  let rows := o.arg
  let stride := bits d 224 23
  streamDescOk d o.batch.isSome && !s.strictOf site (bits d 139 2)
    && decide (bits d 256 23 + 16 ≤ sliceSize site)
    && inSite site (maskRange d rows)
    && o.arrays.all fun a =>
      let x := s.arr site a
      let g := (x.rowElems + 31) / 32
      let rb := elemBytes afmt x.rowElems
      (o.batch.isSome || s.landSpan site d a rows)
      && (!s.weighted site a
        || ((pairPath (s.fld (Reg.ARR_STATUS_WFMT site a)) afmt (bits d 133 5)).isSome
          && (x.k == 0
            || (match o.batch with
                | some l => l.all fun r => decide (r + rb + (if isMx afmt then g else 0) ≤ sliceSize site)
                | none =>
                  if bits d 23 1 = 1 then s.slotRowsIn site a d rows rb g
                  else (decide (bits d 0 23 + stride * a + (rows - 1) * bits d 32 16 + rb ≤ sliceSize site)
                    && (!isMx afmt || decide (bits d 64 23 + stride * a + (rows - 1) * bits d 96 16 + g ≤ sliceSize site)))))))

/-- Row `i` is fed (R146). -/
def State.rowFed (s : State) (site d i : Nat) : Bool :=
  bits d 215 1 == 0 || bits (leNat (s.sliceGet site (bits d 192 23 + i / 8) 1)) (i % 8) 1 == 1

/-- The next fed row at or after `i`, if any. -/
def State.nextRow (s : State) (site d : Nat) : Nat → Nat → Option Nat
  | _, 0 => none
  | i, n + 1 => if s.rowFed site d i then some i else s.nextRow site d (i + 1) n

/-- Where a row is read: its elements, its scales, and its landing slot. -/
def State.rowAt (s : State) (site a : Nat) (o : Op) (d i rb g : Nat) : Nat × Nat × Option Nat :=
  let stride := bits d 224 23
  match o.batch with
  | some l => (l.getD i 0, l.getD i 0 + rb, none)
  | none =>
    if bits d 23 1 = 1 then
      let rps := max 1 (bits d 24 8)
      let slot := bits d 0 10 + stride * a + i / rps
      let base := s.landAddr site slot
      (base + i % rps * bits d 32 16, base + rps * bits d 32 16 + g * (i % rps), some slot)
    else (bits d 0 23 + stride * a + i * bits d 32 16, bits d 64 23 + stride * a + i * bits d 96 16, none)

/-- A leaf position that the load uses. -/
def Arr.used (x : Arr) (p : Nat) : Bool := p % (x.leaves / x.probs) < x.k && p / (x.leaves / x.probs) < x.probs

/-- The slice ranges that array `a` reads for a row, elements first, and the landing slot that they lie in. -/
def State.rowRanges (s : State) (site a : Nat) (o : Op) (d i : Nat) : List (Nat × Nat) × Option Nat :=
  let n := (s.arr site a).rowElems
  let g := (n + 31) / 32
  let rb := elemBytes (bits d 128 5) n
  let at_ := s.rowAt site a o d i rb g
  ((at_.1, rb) :: (if isMx (bits d 128 5) then [(at_.2.1, g)] else []), at_.2.2)

/-- FP32 sum of the fast mode. -/
def addFast (a b : Num) (r : Rec) : Num × Rec := fpAdd false a b r

/-- Round to a significand of 48 bits (R88); a magnitude above the largest finite FP32 one saturates and is counted (R95). -/
def round48 (v : Num) (r : Rec) : Num × Rec :=
  match v with
  | .fin n m e =>
    if m = 0 then (v, r)
    else
      let q := ilog m e - 47
      let x := Num.fin n (rneAt m e q) q
      if (fp32.maxval false).lt x.abs then (fp32.maxval n, r.addSat 1) else (x, r)
  | .nan _ => (.nan false, { r with nan := true })
  | x => (x, r)

/-- Sum with 48-bit significands. -/
def add48 (a b : Num) (r : Rec) : Num × Rec := round48 (a.add b) r

/-- A weight as the FP path uses it, with the counts of making it: subnormals and decoded MX values below 2^−126 are flushed (R91), decoded MX
values above the largest FP32 magnitude saturate (R96). -/
def weightRec (wfmt : Nat) (w : Num) (r : Rec) : Num × Rec :=
  let p := flushAt (if isFp wfmt then (fpOf wfmt).emin else -126) false w r
  if isMx wfmt then mxSat p.1 p.2 else p

/-- A weight as the FP path uses it. -/
def weightFp (wfmt : Nat) (w : Num) : Num := (weightRec wfmt w {}).1

/-- A weight format that only the FP path takes (R115): the load that expands the weights counts what becomes of them (log entry 26). -/
def fpWeights (w : Nat) : Bool := isFp w || (isMx w && w != 0x08)

/-- Products of a row with a column, then the adder tree (R117). -/
def columnFp (pair : Bool) (acts : List (Option Num)) (ws : List (Option Num)) (r : Rec) : Option Num × Rec :=
  let prods := (acts.zip ws).foldl (fun (p : List (Option Num) × Rec) x =>
    match x with
    | (some a, some w) => let q := fpMul false a w p.2; (p.1 ++ [some q.1], q.2)
    | _ => (p.1 ++ [none], p.2)) ([], r)
  tree (if pair then add48 else addFast) (levels acts.length) prods.1 prods.2

/-- Exact sum of a row with a column (R118). -/
def columnInt (acts : List (Option Num)) (ws : List (Option Num)) : Num :=
  (acts.zip ws).foldl (fun s x =>
    match x with
    | (some a, some w) => s.add (a.mul w)
    | _ => s) Num.zero

/-! ## Accumulators (R126, R133) -/

def accKey (bank c e : Nat) : Nat := bank * 65536 + c * 1024 + e

def Cluster.accGet (c : Cluster) (bank arr col e : Nat) : Word := Store.get 0 c.acc (accKey bank col e + arr * 131072)
def Cluster.accPut (c : Cluster) (bank arr col e : Nat) (v : Word) : Cluster :=
  { c with acc := Store.putD 0 c.acc (accKey bank col e + arr * 131072) v }

/-- A logical entry of 32 or 64 bits. -/
def Cluster.accRead (c : Cluster) (wide : Bool) (bank arr col j : Nat) : Nat :=
  if wide then (c.accGet bank arr col (2 * j)).toNat + (c.accGet bank arr col (2 * j + 1)).toNat * 2 ^ 32
  else (c.accGet bank arr col j).toNat
def Cluster.accWrite (c : Cluster) (wide : Bool) (bank arr col j v : Nat) : Cluster :=
  if wide then (c.accPut bank arr col (2 * j) (BitVec.ofNat 32 v)).accPut bank arr col (2 * j + 1) (BitVec.ofNat 32 (v / 2 ^ 32))
  else c.accPut bank arr col j (BitVec.ofNat 32 v)

/-- 64-bit accumulator formats. -/
def wideAcc (f : Nat) : Bool := f == 0x0D || f == 0x0E

/-- Saturate an FX64 sum (R118). -/
def fxSat (v : Int) (r : Rec) : Int × Rec :=
  if 2 ^ 63 - 1 < v then (2 ^ 63 - 1, r.addSat 1) else if v < -(2 ^ 63 - 1) then (-(2 ^ 63 - 1), r.addSat 1) else (v, r)

/-- The new code of an entry: the old code, the tree's result (FP) or exact value (integer), ACCUM (R117, R118, R88). -/
def accStep (fmt : Nat) (accum : Bool) (fx : Int) (old : Nat) (t : Num) (r : Rec) : Nat × Num × Rec :=
  if fmt = 0x0D then
    let o := decodeElem 0x0D old 0 0
    if t.isNan || (accum && o.isNan) then (2 ^ 63, .nan false, { r with nan := true })
    else
      match t with
      | .fin n m e =>
        let k := rneAt m e fx
        let lossy := !(Num.eq (.fin false k fx) (.fin false m e))
        let r1 := if lossy then r.addFlush 1 else r
        let base : Int := if accum then sext old 64 else 0
        let p := fxSat (base + signed n k) r1
        ((p.1 % 2 ^ 64).toNat, Num.ofInt p.1 fx, p.2)
      | _ => (old, t, r)
  else if fmt = 0x0E then
    let o := decodeElem 0x0E old 0 0
    let d := toPair false t { r with infIn := r.infIn || (accum && o.isInf) }
    let p := if accum then toPair false (o.add (decodeElem 0x0E d.1 0 0)) d.2 else d
    (p.1, decodeElem 0x0E p.1 0 0, p.2)
  else
    let o := flushAt (-126) false (fp32.decode old) { r with infIn := r.infIn || (accum && (fp32.decode old).isInf) }
    let p := if accum then fpAdd false o.1 t o.2 else (t, r)
    (fp32.encode p.1, p.1, p.2)

/-! ## Start (R120, R125, R129, R134) -/

/-- The working bank of an array (R133). -/
def State.workBank (s : State) (site a : Nat) : Nat := 1 - s.fld (Reg.ARR_STATUS_CBANK site a)

/-- STATE of an array that runs nothing. -/
def State.arrRest (s : State) (site a : Nat) : State :=
  if (s.fld (Reg.CL_RETIRED_UNITS site)).testBit (a + 1) then s.setFld (Reg.ARR_STATUS_STATE site a) 5
  else if s.fld (Reg.ARR_STATUS_STATE site a) = 6 then s
  else s.setFld (Reg.ARR_STATUS_STATE site a) (if (s.arr site a).active && s.flag (Reg.ARR_CTL_DUMMY_EN site a) then 3 else 0)

/-- Show STATE unless the array is in FAULT or RETIRED. -/
def State.showArr (s : State) (site a v : Nat) : State :=
  let st := s.fld (Reg.ARR_STATUS_STATE site a)
  if st = 5 ∨ st = 6 then s else s.setFld (Reg.ARR_STATUS_STATE site a) v

/-- An array takes the operation at the head of its queue. -/
def State.popArr (s : State) (site a : Nat) : State :=
  (s.modArr site a fun x => { x with queue := x.queue.drop 1 }).shrunk site

/-- An array's queue has this operation at its head, and no test runs of the array that carries it. -/
def State.heads (s : State) (site a id : Nat) : Bool :=
  ((s.arr site a).queue.head?.map fun o => o.id == id).getD false && s.fld (Reg.ARR_STATUS_STATE site a) != 6
    && s.fld (Reg.ARR_STATUS_STATE site (s.onArray site a)) != 6

/-- The live array that carries an operation for a retired one is free: its own operations of the same block come first (R343), and what shares
the cells with it is over. -/
def State.cellsFree (s : State) (site a : Nat) (o : Op) : Bool :=
  let b := s.onArray site a
  (List.range 4).all fun k =>
    k == a || s.onArray site k != b || ((s.arr site k).cur.all (fun r => r.done || r.op.id == o.id)
      && !(k == b && (s.arr site k).queue.any fun q => q.of o.slot o.blk && q.id != o.id))

/-- Drop an operation that trapped from every queue. -/
def State.dropId (s : State) (site id : Nat) : State :=
  (s.modCl site fun c => { c with
    arrs := c.arrs.map fun (p : Nat × Arr) => (p.1, { p.2 with queue := p.2.queue.filter fun o => o.id != id }) }).shrunk site

/-- The operation in progress has left the cells: it waits for its completion only. -/
def Arr.push (x : Arr) : Arr := { x with past := x.runs, cur := none }

/-- The array is idle: an operation that it accepts raises its current (R369). -/
def Arr.still (x : Arr) : Bool := !x.active && x.runs.isEmpty && x.inits.isEmpty

/-- The expected rise of the arrays that leave idle: 4 A each (R369). -/
def State.stepArrays (s : State) (site : Nat) (as : List Nat) : State :=
  s.stepFrame site 0 (4 * (as.filter fun a => (s.arr site a).still).length)

/-- Start a load in one array. -/
def State.loadIn (s : State) (site a : Nat) (o : Op) (d : Nat) : State :=
  let w := bits d 128 5
  let lofs := if o.gang then 0 else a * bits d 224 23
  let cells := s.loadCells site d lofs (probsOf o)
  let all := cells.flatten.filterMap id
  let st0 : Rec := { nan := all.any Num.isNan, infIn := all.any Num.isInf }
  let st := if fpWeights w then all.foldl (fun r v => (weightRec w v r).2) st0 else st0
  let s1 := (s.popArr site a).modArr site a fun x => { x.push with
    cells := cells, leaves := if denseFmt w then 256 else 128, k := bits d 133 9, n := bits d 142 7, probs := probsOf o
    owner := (o.slot, o.blk), cur := some { op := o, dv := d, stat := st, done := true }, idle := 0 }
  let s2 := (s1.setFlag (Reg.ARR_STATUS_GANG site a) o.gang).setFld (Reg.ARR_STATUS_PACK site a) (o.f7 / 32)
  let s3 := (s2.setFlag (Reg.ARR_STATUS_DENSE site a) (denseFmt w)).setFld (Reg.ARR_STATUS_DIAG site a) (bits d 149 1)
  (s3.setFld (Reg.ARR_STATUS_WFMT site a) w).showArr site a 1

/-- Start a load in the arrays that start together; it stalls while a bank that it reads is WAKING. -/
def State.loadStart (s : State) (site : Nat) (o : Op) (d : Nat) (as : List Nat) : State :=
  if as.any fun a => s.wakesAny site (loadRanges o d a) then s
  else as.foldl (fun s a =>
    ((s.touchAll site ((o.desc, 64) :: loadRanges o d a) ⟨a + 1, o.slot, o.blk⟩).loadIn site a o d)) (s.stepArrays site as)

/-- Start a stream in its arrays. -/
def State.streamIn (s : State) (site : Nat) (o : Op) (d : Nat) : State :=
  if s.wakesAny site (maskRange d o.arg) then s
  else
    let fed := s.nextRow site d 0 o.arg
    let s0 := (s.stepArrays site o.arrays).touchAll site ((o.desc, 64) :: maskRange d o.arg) ⟨(o.arrays.headD 0) + 1, o.slot, o.blk⟩
    o.arrays.foldl (fun s a =>
      let x := s.arr site a
      let empty := !s.weighted site a || x.k == 0
      let r : Run := { op := o, dv := d, bank := s.workBank site a, done := empty || fed.isNone, stat := { empty := empty } }
      let s1 := (s.popArr site a).modArr site a fun x => { x.push with cur := some r }
      let s2 := s1.showArr site a 2
      if !empty && s2.open_ site o.slot o.blk && x.owner != (o.slot, o.blk) then
        s2.guardTrip site o.slot (a * 1024 + 4096) 1
      else s2) s0

/-- Mark a 32-bit entry range as initialised by the block (R138). -/
def State.initEntry (s : State) (site n blk a : Nat) (wide : Bool) (j : Nat) : State :=
  if s.open_ site n blk then
    s.modBlk site n fun b => { b with inits := Store.upd 0 b.inits a fun m => m ||| (if wide then 2 ^ (2 * j) + 2 ^ (2 * j + 1) else 2 ^ j) }
  else s

/-- The bias values that a BZ.AINIT reads (R134). -/
def biasRange (o : Op) (d : Nat) : List (Nat × Nat) :=
  if bits o.f7 4 1 = 0 then [] else [(bits d 64 23, if bits d 21 5 = 0x0D then 512 else 256)]

/-- Whether an init descriptor is legal (R134, R150). -/
def State.ainitOk (_ : State) (site : Nat) (o : Op) (d : Nat) : Bool :=
  let f := bits d 21 5
  let wide := wideAcc f
  (f == 0 || wide) && decide (bits d 10 11 ≤ if wide then 512 else 1024)
    && bits d 27 37 == 0 && bits d 87 41 == 0 && bits d 151 9 == 0 && bits d 192 320 == 0 && bits d 128 4 == 0
    && syncOk (bits d 160 16) && decide (bits d 128 23 + 16 ≤ sliceSize site)
    && inSite site (biasRange o d)

/-- Initial code of an entry of a column, with CARRY (R134). The NaN written is canonical (R94), and an INT64 bias of −2^63, which is no NaN,
saturates (R86). -/
def initCode (f : Nat) (carry : Bool) (bias old : Nat) (r : Rec) : Nat × Rec :=
  if f = 0x0D then
    if carry && (decodeElem 0x0D old 0 0).isNan then (2 ^ 63, { r with nan := true })
    else let p := fxSat (sext bias 64 + if carry then sext old 64 else 0) r; ((p.1 % 2 ^ 64).toNat, p.2)
  else if !carry then (if (fp32.decode bias).isNan then fp32.encode (.nan false) else bias, r)
  else if f = 0x0E then
    let p := toPair false ((fp32.decode bias).add (decodeElem 0x0E old 0 0)) r
    (p.1, { p.2 with flush := r.flush })
  else
    let b := (flushAt (-126) false (fp32.decode bias) {}).1
    let o := (flushAt (-126) false (fp32.decode old) {}).1
    let p := fpAdd false b o r
    (fp32.encode p.1, { p.2 with flush := r.flush })

/-- Start a BZ.AINIT in its arrays: its entries are written (R134). The hint of FX64 entries takes the exponent 0: the descriptor has no FX_EXP
(log entry 75). -/
def State.ainitIn (s : State) (site : Nat) (o : Op) (d : Nat) : State :=
  let f := bits d 21 5
  let wide := wideAcc f
  let e := if wide then 512 else 1024
  let count := bits d 10 11
  let ba := bits d 64 23
  let bias (c : Nat) : Nat :=
    if bits o.f7 4 1 = 0 then 0
    else if f = 0x0D then leNat (s.sliceGet site (ba + 8 * c) 8)
    else leNat (s.sliceGet site (ba + 4 * c) 4)
  let who : Who := ⟨(o.arrays.headD 0) + 1, o.slot, o.blk⟩
  let s0 := (s.stepArrays site o.arrays).touchAll site ((o.desc, 64) :: biasRange o d) who
  o.arrays.foldl (fun s a =>
    let bank := s.workBank site a
    let js := (List.range count).map fun i => (bits d 0 10 + i) % e
    let p := js.foldl (fun (p : Cluster × Rec) j =>
      (List.range 64).foldl (fun (p : Cluster × Rec) c =>
        let q := initCode f (bits d 26 1 == 1) (bias c) (p.1.accRead wide (1 - bank) a c j) p.2
        let v := decodeElem f q.1 0 0
        (p.1.accWrite wide bank a c j q.1, q.2.see v)) p) (s.cl site, ({} : Rec))
    let s1 := (s.setCl site p.1).popArr site a
    let s2 := js.foldl (fun s j => s.initEntry site o.slot o.blk a wide j) s1
    let st : Rec := { sat := p.2.sat, hexp := p.2.hexp, hnan := p.2.hnan, hinf := p.2.hinf }
    (s2.modArr site a fun x => { x with inits := x.inits ++ [{ op := o, dv := d, bank := bank, stat := st, done := true }] }).setFlag
      (Reg.ARR_STATUS_INIT_BUSY site a) true) s0

/-- The accumulator bank of an array that a vector operation in progress still reads (R136). -/
def State.bankHeld (s : State) (site a bank : Nat) : Bool :=
  (List.range 2).any fun e => ((s.eng site e).cur.map fun r =>
    decide (r.next < r.op.chunks) && r.ros.any fun ro => ro != 0 && bits ro 0 2 == a && bits ro 512 1 == bank).getD false

/-- The operation at the head of an array's queue may start in it (R120, R129): a load once the cells are left, a stream once every
earlier operation is over or, of a load, has loaded its last cell row; an init once earlier streams have entered their last rows. -/
def State.mayStart (s : State) (site a : Nat) (o : Op) : Bool :=
  let x := s.arr site a
  s.heads site a o.id && s.cellsFree site a o &&
    match o.kind with
    | .ainit => x.runs.all (fun r => r.op.kind == .aload || r.done) && !s.bankHeld site a (s.workBank site a)
    | .astream => x.runs.all (fun r => r.op.kind == .aload && r.done) && x.inits.isEmpty
    | _ => x.runs.all fun r => r.done

/-- The head operation of the arrays `as` reads its descriptor and starts; one that traps performs nothing. -/
def State.arrStart (s : State) (site : Nat) (o : Op) (as : List Nat) : State :=
  let bad := (s.opTrap site o).dropId site o.id
  match s.descAt site o.desc with
  | none => bad
  | some d =>
    match o.kind with
    | .aload => if s.loadOk site o d then s.loadStart site o d as else bad
    | .ainit =>
      if !s.ainitOk site o d then bad
      else if s.wakesAny site (biasRange o d) then s
      else s.ainitIn site o d
    | _ => if s.streamOk site o d then s.streamIn site o d else bad

/-- ARRAY_OP_START: the head operation starts where its arrays are free and earlier operations allow it (R121, R125, R129). -/
def execArrayOpStart (site : Site) (a : ArrId) (s : State) : Host.Outcome State Fault Refusal :=
  .next (if s.alive && s.live site && !isVector site then
      match (s.arr site a).queue with
      | [] => s
      | o :: _ =>
        let as := if o.kind = .aload ∧ !o.gang then [a.val] else o.arrays
        if as.all (fun b => s.mayStart site b o) && !s.waking site o.desc 64 then
          (s.parityAt site (s.onArray site a + 1) o.slot o.blk).getD (s.arrStart site o as)
        else s
    else s)

/-! ## Checks (R140 to R145) -/

/-- A failed check (R145): counted, recorded, and the class ARR_CHECK charged to the block; the unit is the array that ran it (R343). -/
def State.checkFail (s : State) (site a : Nat) (o : Op) (row : Bool) (entry col : Nat) : State :=
  let bid := if s.open_ site o.slot o.blk then (s.slot site o.slot).blk.blockId else 0
  let v := row.toNat + entry % 1024 * 2 + col % 64 * 2 ^ 11 + 2 ^ 17 + bid % 2 ^ 32 * 2 ^ 32
  let s1 := s.wr64 (Reg.ARR_CS_LAST site a) v
  let s2 := if row then s1.count (Reg.ARR_CS_FAIL_ROW site a) 1 else s1.count (Reg.ARR_CS_FAIL_COLUMN site a) 1
  s2.raiseAt 0x01 site (s.onArray site a + 1) o.slot o.blk 0 v

/-- The absolute values of weights, and the checksum column's two values for a leaf position (R140). -/
def colSum (cells : List (List (Option Num))) (abs : Bool) (p : Nat) : Option Num :=
  let l := cells.filterMap fun c => (c.getD p none)
  if l.isEmpty then none
  else some (roundFp fp32 false false (l.foldl (fun s w => s.add (if abs then w.abs else w)) Num.zero) {}).1

/-- τ of a check: (2d + k) × 2^−24 × m + 2^−110. -/
def tau (d k : Nat) (m : Num) : Num := ((Num.fin false (2 * d + k) (-24)).mul m).add (.fin false 1 (-110))

/-- Whether |s − c| is above τ. -/
def beyond (s c t : Num) : Bool := t.lt (s.add c.neg).abs

/-- FP32 sum of a check: rounded by RNE, neither flushed nor saturated (R141, R142, log entry 76). -/
def rneAdd (a b : Num) (r : Rec) : Num × Rec := fpAdd true a b r

/-- m of a check (R141): products of magnitudes, each rounded once to FP32, summed by the pairwise tree. -/
def checkSum (as ws : List (Option Num)) : Num :=
  let prods := (as.zip ws).map fun x =>
    match x with
    | (some a, some w) => some (fpMul true a.abs w.abs {}).1
    | _ => none
  ((tree rneAdd (levels as.length) prods {}).1).getD Num.zero

/-- A number is finite. -/
def Num.finite (v : Num) : Bool := !v.isNan && !v.isInf

/-- Round to FP32, as a check reads the high word of a pair (R141). -/
def high32 (v : Num) : Num := (roundFp fp32 false false v {}).1

/-- The column check of a row in the FP path (R141): none where it is skipped, else whether it fails. -/
def columnCheck (x : Arr) (wfmt : Nat) (pair : Bool) (acts ts : List (Option Num)) : Option Bool :=
  let cells := x.cells.map fun c => c.map fun w => w.map (weightFp wfmt)
  let cs := (List.range x.leaves).map (colSum cells false)
  let ws := (List.range x.leaves).map (colSum cells true)
  let sum := ((tree rneAdd 6 ts {}).1).getD Num.zero
  let c := columnFp pair acts cs {}
  let m := checkSum acts ws
  if c.2.sat ≠ 0 ∨ m.finite = false then none
  else some (beyond sum (high32 (c.1.getD Num.zero)) (tau (levels x.leaves) 16 m))

/-- Whether a record shows a saturation, or any value is NaN or infinite. -/
def unusual (l : List (Option Num)) : Bool := l.any fun v => (v.map fun x => x.isNan || x.isInf).getD false

/-- Absolute values of weights as the checks take them, and the checksum row of a group (R142): its elements, its columns, and whether it is
special. -/
def checksumRow (x : Arr) (wfmt : Nat) (pair : Bool) (r : Run) : List (Option Num) × List (Option Num) × Bool :=
  let cells := x.cells.map fun c => c.map fun w => w.map (weightFp wfmt)
  let ra := (List.range x.leaves).map fun p => if x.used p then some (high32 (r.sumA.getD p Num.zero)) else none
  let cols := cells.map fun c => columnFp pair ra c {}
  (ra, cols.map fun q => q.1.map high32, unusual ra || cells.any unusual || cols.any fun q => q.2.sat != 0)

/-- The first column of a row check that skips it or fails: none for a skip (R142). -/
def rowCheckAt (x : Arr) (r : Run) (rb : List (Option Num)) (cs : List (Option Num)) (cells : List (List (Option Num))) : List Nat → Option (Option Nat)
  | [] => some none
  | n :: t =>
    match cs.getD n none with
    | none => rowCheckAt x r rb cs cells t
    | some c =>
      let m := checkSum rb (cells.getD n [])
      if m.finite = false then none
      else if beyond (r.sumT.getD n Num.zero) c (tau (levels x.leaves) 80 m) then some (some n)
      else rowCheckAt x r rb cs cells t

/-- The row check of a group in the FP path (R142): none skips it, else the first column that fails. -/
def rowCheck (x : Arr) (wfmt : Nat) (r : Run) (cs : List (Option Num)) (special : Bool) : Option (Option Nat) :=
  if r.special || special then none
  else
    let rb := (List.range x.leaves).map fun p => if x.used p then some (roundFp fp32 true false (r.absA.getD p Num.zero) {}).1 else none
    rowCheckAt x r rb cs (x.cells.map fun c => c.map fun w => w.map (weightFp wfmt)) (List.range 64)

/-! ## Row entry (R117, R118, R125 to R128, R130, R138) -/

/-- The activations of a row by leaf position, decoded for the path, with the flags and flushes of reading them. -/
def rowActs (x : Arr) (int : Bool) (afmt v : Nat) (scl : List Byte) (r : Rec) : List (Option Num) × Rec :=
  (List.range x.leaves).foldl (fun (p : List (Option Num) × Rec) i =>
    if x.used i then
      let sc := (scl.getD (i / 32) 127).toNat
      if int then
        let n := decodeElem afmt (codeAt afmt v i) sc 0
        (p.1 ++ [some n], { p.2 with nan := p.2.nan || n.isNan, infIn := p.2.infIn || n.isInf })
      else
        let q := readElem false afmt (codeAt afmt v i) sc 0 p.2
        (p.1 ++ [some q.1], q.2)
    else (p.1 ++ [none], p.2)) ([], r)

/-- Add two lists of numbers exactly, position by position. -/
def addLists (a : List Num) (b : List (Option Num)) (f : Num → Num) : List Num :=
  b.zipIdx.map fun p => (a.getD p.2 Num.zero).add ((p.1.map f).getD Num.zero)

/-- Whether more rows are to enter: a fed row, or a checksum row. -/
def State.moreRows (s : State) (site d : Nat) (o : Op) (r : Run) : Bool :=
  r.fed != 0 || (s.nextRow site d r.row (o.arg - r.row)).isSome

/-- A check is skipped and counted (R144). -/
def State.skipCheck (s : State) (site a : Nat) : State := s.count (Reg.ARR_CS_SKIP_SKIPPED site a) 1

/-- Carry out the column check of a row (R141, R144). -/
def State.columnDone (s : State) (site a : Nat) (o : Op) (entry : Nat) (special : Bool) (c : Option Bool) : State :=
  if special then s.skipCheck site a
  else
    match c with
    | none => s.skipCheck site a
    | some true => s.checkFail site a o false entry 0
    | some false => s

/-- A fed row enters one array (R117, R118, R126, R130, R138, R141). In the integer path both checks compare exact values that are equal, and
values that a NaN block scale makes NaN pass (R143, log entry 77). -/
def State.feedRow (s : State) (site a d i : Nat) (r : Run) : State :=
  let o := r.op
  let x := s.arr site a
  let wfmt := s.fld (Reg.ARR_STATUS_WFMT site a)
  let afmt := bits d 128 5
  let acc := bits d 133 5
  let int := (pairPath wfmt afmt acc).getD false
  let rs := s.rowRanges site a o d i
  let who : Who := ⟨a + 1, o.slot, o.blk⟩
  let s0 := if rs.2.isSome then s.meetLand site rs.1 who else s.touchAll site rs.1 who
  let elems := rs.1.headD (0, 0)
  let v := leNat (s.sliceGet site elems.1 elems.2)
  let scl := (rs.1.drop 1).flatMap fun q => s.sliceGet site q.1 q.2
  let (acts, st0) := rowActs x int afmt v scl r.stat
  let cells := if int then x.cells else x.cells.map fun c => c.map fun w => w.map (weightFp wfmt)
  let pair := acc == 0x0E
  let cols := cells.foldl (fun (p : List (Option Num) × Rec) c =>
    if c.all Option.isNone then (p.1 ++ [none], p.2)
    else if int then (p.1 ++ [some (columnInt acts c)], p.2)
    else let q := columnFp pair acts c p.2; (p.1 ++ [q.1], q.2)) ([], ({} : Rec))
  let special := !int && (unusual acts || cells.any unusual || cols.2.sat != 0)
  let wide := wideAcc acc
  let e := if wide then 512 else 1024
  let j := if o.batch.isSome then i % e else (bits d 144 10 + i) % e
  let accum := bits d 138 1 == 1
  let fx := sext (bits d 160 9) 9
  let out := cols.1.zipIdx.foldl (fun (p : Cluster × Rec) q =>
    match q.1 with
    | none => p
    | some t =>
      let w := accStep acc accum fx (p.1.accRead wide r.bank a q.2 j) t p.2
      (p.1.accWrite wide r.bank a q.2 j w.1, w.2.2.see w.2.1)) (s0.cl site, st0.merge cols.2)
  let s1 := s0.setCl site out.1
  let s2 :=
    if !accum then s1.initEntry site o.slot o.blk a wide j
    else if s1.open_ site o.slot o.blk && !(Store.get 0 (s1.slot site o.slot).blk.inits a).testBit (if wide then 2 * j else j) then
      (s1.count (Reg.ARR_GUARD_TRIPS site a) 1).guardTrip site o.slot (j + a * 1024) 1
    else s1
  let ts := cols.1.map fun t => t.map fun v => if pair then high32 v else v
  let s3 := if int then s2 else s2.columnDone site a o j special (columnCheck x wfmt pair acts ts)
  let r1 : Run := { r with
    row := i + 1, fed := r.fed + 1, total := r.total + 1, stat := out.2, special := r.special || special, entry := j
    sumT := if r.fed = 0 then ts.map fun t => t.getD Num.zero
            else ts.zipIdx.map fun p => (rneAdd (r.sumT.getD p.2 Num.zero) (p.1.getD Num.zero) {}).1
    sumA := addLists r.sumA acts id, absA := addLists r.absA acts Num.abs }
  ((s3.count (Reg.ARR_ROWS_ROWS site a) 1).showArr site a 2).modArr site a fun y =>
    { y with cur := some r1, active := true, idle := 0, stall := none }

/-- A checksum row enters one array (R142 to R144). -/
def State.checkRow (s : State) (site a d : Nat) (r : Run) : State :=
  let o := r.op
  let x := s.arr site a
  let wfmt := s.fld (Reg.ARR_STATUS_WFMT site a)
  let acc := bits d 133 5
  let pair := acc == 0x0E
  let s1 := s.count (Reg.ARR_CSROWS_ROWS site a) 1
  let s2 :=
    if (pairPath wfmt (bits d 128 5) acc).getD false then s1
    else
      let q := checksumRow x wfmt pair r
      let s2 := s1.columnDone site a o r.entry q.2.2 (columnCheck x wfmt pair q.1 q.2.1)
      match rowCheck x wfmt r q.2.1 q.2.2 with
      | none => s2.skipCheck site a
      | some none => s2
      | some (some c) => s2.checkFail site a o true r.entry c
  let r1 : Run := { r with fed := 0, sumT := [], sumA := [], absA := [], special := false }
  s2.modArr site a fun y => { y with cur := some { r1 with done := !s.moreRows site d o r1 }, active := true, idle := 0 }

/-- The arrays that a stream feeds: they run in lockstep (R125). -/
def State.feeders (s : State) (site : Nat) (o : Op) : List Nat :=
  o.arrays.filter fun b => ((s.arr site b).cur.map fun r => r.op.id == o.id && !r.done).getD false

/-- A later fed row of a stream lies in the landing slot (R127). -/
def State.slotLeft (s : State) (site : Nat) (o : Op) (d i l : Nat) (as : List Nat) : Bool :=
  let rps := max 1 (bits d 24 8)
  as.any fun b =>
    let first := bits d 0 10 + bits d 224 23 * b
    let lo := max (i + 1) ((l - first) * rps)
    decide (first ≤ l) && (s.nextRow site d lo (min o.arg ((l - first + 1) * rps) - lo)).isSome

/-- The lines that the arrays of a stream read in the FCLK cycle in which row `i` enters (R115, R128, R185): of a pair with a row slot of one
ACLK cycle every second fed row brings the one after it; the other brings none of its own. -/
def State.feedLines (s : State) (site : Nat) (o : Op) (d i : Nat) (as : List Nat) : List Nat :=
  let lines (j : Nat) : List Nat := as.flatMap fun b => ((s.rowRanges site b o d j).1.take 1).flatMap fun p => lines128 p.1 p.2
  let fed : Nat := ((s.arr site (as.headD 0)).cur.map fun r => r.total).getD 0
  if bits d 128 5 = 0x01 ∨ bits d 128 5 = 0x02 then lines i
  else if fed % 2 = 1 then []
  else lines i ++ ((s.nextRow site d (i + 1) (o.arg - (i + 1))).map lines).getD []

/-- A fed row enters the arrays of a stream in one cycle; its reads compete for the banks (R128); a slot is drained after its last row. -/
def State.feedRows (s : State) (site : Nat) (o : Op) (d i : Nat) (as : List Nat) : State :=
  let rs := as.map fun b => s.rowRanges site b o d i
  let s0 := s.bankClash site (s.feedLines site o d i as)
  let s1 := as.foldl (fun s b =>
    match (s.arr site b).cur with
    | some r => s.feedRow site b d i r
    | none => s) s0
  (rs.filterMap (·.2)).eraseDups.foldl (fun s l =>
    if s.slotLeft site o d i l as then s
    else (s.setLand site l ldEmpty).setFlag (Reg.LAND_STATE_HOLD site l) (s.open_ site o.slot o.blk)) s1

/-- A stream has bound landing slots. -/
def State.streamBound (s : State) (site : Nat) (o : Op) (as ls : List Nat) : State :=
  let s1 := as.foldl (fun s b => s.modArr site b fun x => { x with cur := x.cur.map fun r => { r with bound := r.bound ++ ls } }) s
  if s1.open_ site o.slot o.blk then s1.modBlk site o.slot fun b => { b with drains := b.drains ++ ls } else s1

/-- The arrays that read a slot wait on it (R226). -/
def State.arrWait (s : State) (site : Nat) (o : Op) (d i l : Nat) (as : List Nat) : State :=
  (as.filter fun b => (s.rowRanges site b o d i).2 == some l).foldl (fun s b => s.modArr site b fun y =>
    { y with stall := some (l, ((y.stall.filter fun q => q.1 == l).map (·.2)).getD 0) }) s

/-- The next fed row of a stream enters, or every array of it stalls: on a bank that wakes or is still read, or on landing slots that it
cannot bind (R127, R136, R188). -/
def State.nextFed (s : State) (site : Nat) (r : Run) (i : Nat) : State :=
  let o := r.op
  let d := r.dv
  let as := s.feeders site o
  let rs := as.map fun b => s.rowRanges site b o d i
  if as.any (fun b => s.bankHeld site b r.bank) || rs.any fun q => s.wakesAny site q.1 then s
  else
    let new := (rs.filterMap (·.2)).eraseDups.filter fun l => !r.bound.contains l
    let u := as.headD 0 + 1
    match new.foldl (fun (q : Option State) l => q.bind fun s => s.readBind site l u false) (some s) with
    | some s1 => (s1.streamBound site o as new).feedRows site o d i as
    | none => (new.filter fun l => (s.readBind site l u false).isNone).foldl (fun s l => s.arrWait site o d i l as) s

/-- ARRAY_ROW_ENTRY: the next fed row of the stream enters its arrays, or the checksum row that is due (after 64 fed rows, and after the
last). -/
def execArrayRowEntry (site : Site) (a : ArrId) (s : State) : Host.Outcome State Fault Refusal :=
  .next (if s.alive && s.live site then
      match (s.arr site a).cur with
      | some r =>
        if r.done || r.op.kind != .astream then s
        else
          match (if r.fed = 64 then none else s.nextRow site r.dv r.row (r.op.arg - r.row)) with
          | none => (s.feeders site r.op).foldl (fun s b =>
              match (s.arr site b).cur with
              | some q => s.checkRow site b r.dv q
              | none => s) s
          | some i => s.nextFed site r i
      | none => s
    else s)

/-- ARRAY_CHECK_FAIL: a check of the running stream fails through a fault of the array (R145). -/
def execArrayCheckFail (site : Site) (a : ArrId) (rowKind : Bool) (entry : Fin 1024) (column : Fin 64) (s : State) :
    Host.Outcome State Fault Refusal :=
  .next (if s.alive && s.live site then
      match (s.arr site a).runs.find? fun r => r.op.kind == .astream && r.total != 0 with
      | some r => s.checkFail site a r.op rowKind entry (if rowKind then column else 0)
      | none => s
    else s)

/-! ## Completion (R111, R112, R120, R130, R134) -/

/-- Write the status record of a whole operation, add each array's share, and signal (R111, R112, R66). -/
def State.finishArr (s : State) (site : Nat) (o : Op) (status sync inc : Nat) (shares : List (Nat × Rec)) (extra : Rec) : State :=
  let all := shares.foldl (fun r p => r.merge p.2) extra
  let who : Who := ⟨(o.arrays.headD 0) + 1, o.slot, o.blk⟩
  let s1 := shares.foldl (fun s p => s.countRec site (p.1 + 1) p.2) s
  let s2 := s1.writeRec site status all.pack who
  (s2.opSignal site o.slot o.blk sync inc who.unit).settle site o.slot

/-- The oldest operation of an array's cells, if it is done. -/
def State.firstDone (s : State) (site a : Nat) : Option Run := ((s.arr site a).runs.head?).filter fun r => r.done

/-- An operation has completed in an array. -/
def State.endRun (s : State) (site a id : Nat) : State :=
  let s1 := s.modArr site a fun x => { x with
    past := x.past.filter fun r => r.op.id != id, cur := x.cur.filter fun r => r.op.id != id }
  if (s1.arr site a).cur.isNone then s1.arrRest site a else s1

/-- The shares of an operation that is the oldest, and done, in each of its arrays; none where one lags. -/
def State.sharesOf (s : State) (site : Nat) (o : Op) : Option (List (Nat × Rec)) :=
  let l := o.arrays.filterMap fun b => ((s.firstDone site b).filter fun q => q.op.id == o.id).map fun q => (b, q.stat)
  if l.length = o.arrays.length then some l else none

/-- LOAD_COMPLETE (R120, R121): the array's weights are valid; the operation completes with its last array. It waits while the bank of its
status record wakes (R216). -/
def execLoadComplete (site : Site) (a : ArrId) (s : State) : Host.Outcome State Fault Refusal :=
  .next (if s.alive && s.live site then
      match (s.firstDone site a).filter fun r => r.op.kind == .aload && !s.waking site (bits r.dv 256 23) 16 with
      | some r =>
        let o := r.op
        let fin (s : State) (b : Nat) : State := (s.endRun site b o.id).setFlag (Reg.ARR_STATUS_WVALID site b) true
        let end_ (s : State) (sh : List (Nat × Rec)) : State :=
          s.finishArr site o (bits r.dv 256 23) (bits r.dv 288 16) (bits r.dv 304 16) sh {}
        if o.gang then
          match s.sharesOf site o with
          | some l => end_ (o.arrays.foldl fin s) l
          | none => s
        else
          let s1 := fin s a
          let left := (o.arrays.filter (· != a.val)).any fun b =>
            (s.arr site b).queue.any (fun q => q.id == o.id) || (s.arr site b).runs.any fun q => q.op.id == o.id
          let so := (Store.get {} (s.cl site).parts o.id).merge r.stat
          if left then s1.modCl site fun c => { c with parts := Store.put c.parts o.id so }
          else end_ (s1.modCl site fun c => { c with parts := Store.drop c.parts o.id }) [(a.val, so)]
      | none => s
    else s)

/-- STREAM_COMPLETE (R130): every array of the stream has entered its last row, and the bank of its status record takes it (R216). A batch
release writes its row map (R70, R132). DESIGN CHOICE (log entry 99): of a row map that reaches beyond the slice, the part inside is written. -/
def execStreamComplete (site : Site) (a : ArrId) (s : State) : Host.Outcome State Fault Refusal :=
  .next (if s.alive && s.live site then
      match (s.firstDone site a).filter fun r => r.op.kind == .astream && !s.waking site (bits r.dv 256 23) 16
          && (r.op.batch.isNone || !s.waking site (bits r.dv 320 23) (4 * r.op.arg)) with
      | some r =>
        let o := r.op
        match s.sharesOf site o with
        | none => s
        | some l =>
          let d := r.dv
          let s1 := o.arrays.foldl (fun s b => s.endRun site b o.id) s
          let s2 :=
            match o.batch with
            | some l => s1.sliceWrite site (bits d 320 23) ((l.flatMap fun r => leBytes 4 r).take (sliceSize site - bits d 320 23))
                ⟨a.val + 1, o.slot, o.blk⟩
            | none => s1
          s2.finishArr site o (bits d 256 23) (bits d 288 16) (bits d 304 16) l {}
      | none => s
    else s)

/-- AINIT_COMPLETE (R134); it waits while the bank of its status record wakes (R216). -/
def execAinitComplete (site : Site) (a : ArrId) (s : State) : Host.Outcome State Fault Refusal :=
  .next (if s.alive && s.live site then
      match (s.arr site a).inits.filter fun r => !s.waking site (bits r.dv 128 23) 16 with
      | r :: _ =>
        let o := r.op
        let d := r.dv
        let runs := o.arrays.filterMap fun b => ((s.arr site b).inits.find? fun q => q.op.id == o.id).map fun q => (b, q.stat)
        let s1 := o.arrays.foldl (fun s b =>
          let s1 := s.modArr site b fun x => { x with inits := x.inits.filter fun q => q.op.id != o.id }
          s1.setFlag (Reg.ARR_STATUS_INIT_BUSY site b) (!(s1.arr site b).inits.isEmpty)) s
        s1.finishArr site o (bits d 128 23) (bits d 160 16) (bits d 176 16) runs {}
      | [] => s
    else s)

/-! ## Idle cycles (R147) -/

/-- The array loads. -/
def Arr.loading (x : Arr) : Bool := (x.cur.map fun r => r.op.kind == .aload).getD false

/-- DUMMY_ROW: a dummy row fills an idle cycle of an active array. -/
def execDummyRow (site : Site) (a : ArrId) (s : State) : Host.Outcome State Fault Refusal :=
  let x := s.arr site a
  .next (if s.alive && s.live site && x.active && !x.loading && decide (x.idle < 256) && s.flag (Reg.ARR_CTL_DUMMY_EN site a) then
      let s1 := (s.count (Reg.ARR_DUMMY_ROWS site a) 1).modArr site a fun y => { y with idle := y.idle + 1 }
      if x.cur.isNone then s1.showArr site a 3 else s1
    else s)

/-- ARRAY_IDLE: after 256 consecutive idle cycles the array goes idle. -/
def execArrayIdle (site : Site) (a : ArrId) (s : State) : Host.Outcome State Fault Refusal :=
  let x := s.arr site a
  .next (if s.alive && s.live site && x.active && !x.loading && (x.idle == 256 || !s.flag (Reg.ARR_CTL_DUMMY_EN site a)) then
      let s1 := s.modArr site a fun y => { y with active := false, idle := 0 }
      if x.cur.isNone then s1.showArr site a 0 else s1
    else s)

end Sys2Proof.Machine
end

