-- ==== Sys2Proof/Machine/Operands.lean ====
section
/-! DEFINITION. Addresses and places that commands name, as functions of their numbers: Gulto addresses in text (R27), the interleave of
package memory (R398), sideband frames on the wire (R406), RED messages in a flit (R387). -/

namespace Sys2Proof.Machine

/-! ## Gulto addresses in text (R25, R27) -/

/-- Hexadecimal digits of a number below 4,096, three of them. -/
def hex3 (n : Nat) : String :=
  let c (k : Nat) : Char := "0123456789ABCDEF".toList.getD (k % 16) '0'
  String.ofList [c (n / 256), c (n / 16), c n]

/-- The text of a Gulto address. -/
def addrText (a : Nat) : String :=
  let pkg := toString (a / 2 ^ 13 % 2 ^ 12)
  let die := toString (a / 2 ^ 10 % 8)
  if a / 2 ^ 26 % 2 = 1 then pkg ++ ".X" ++ die ++ ".0x" ++ hex3 (a % 1024)
  else if a / 2 ^ 25 % 2 = 1 then pkg ++ "." ++ die ++ ".T.0x" ++ hex3 (a % 1024)
  else pkg ++ "." ++ die ++ "." ++ toString (a / 16 % 64) ++ "." ++ toString (a % 16)

/-! ## The interleave of package memory (R398) -/

/-- Stack, and address within it, of a package memory address. -/
def memStack (nstack a : Nat) : Nat := a / 4096 % nstack
def memOffset (nstack a : Nat) : Nat := a / 4096 / nstack * 4096 + a % 4096

/-- The port of an address: where it is down, the next higher port that is up, modulo 8. -/
def memPort (up : Nat) (a : Nat) : Option Nat := ((List.range 8).map fun k => (a / 4096 + k) % 8).find? up.testBit

/-! ## Sideband frames on the wire (R406) -/

/-- The low `n` bits of a number, most significant first. -/
def bitsMsb (n v : Nat) : List Bool := (List.range n).map fun i => v.testBit (n - 1 - i)

/-- CRC-16-CCITT, polynomial 0x1021, initial 0xFFFF, over bits in order of transmission. -/
def crc16 (l : List Bool) : Nat :=
  l.foldl (fun c b => if c.testBit 15 != b then (c * 2 % 2 ^ 16) ^^^ 0x1021 else c * 2 % 2 ^ 16) 0xFFFF

/-- Fields 2 to 7 of a frame. -/
def frameFields (prio ty : Nat) (f : Frame) : List Bool :=
  bitsMsb 3 prio ++ bitsMsb 8 ty ++ bitsMsb 8 f.dst.toNat ++ bitsMsb 8 f.src.toNat ++ bitsMsb 5 f.payload.length
    ++ f.payload.flatMap fun b => bitsMsb 8 b.toNat

/-- A frame's bits from SOF to EOF, a recessive bit being 1. -/
def frameBits (prio ty : Nat) (f : Frame) : List Bool :=
  [false] ++ frameFields prio ty f ++ bitsMsb 16 (crc16 (frameFields prio ty f)) ++ [true] ++ List.replicate 7 true

end Sys2Proof.Machine
end

