-- ==== Sys2Proof/Machine/Vector.lean ====
section
/-! DEFINITION. The vector engines (R152 to R181): operands, element programs, reductions, permutation, compress and expand. -/

namespace Sys2Proof.Machine

/-! ## Operands (R158 to R162) -/

/-- An operand word. -/
structure Opd where
  kind    : Nat
  fmt     : Nat
  addr    : Nat
  rlen    : Nat
  rstride : Nat
  scl     : Nat
  fx      : Int
  sd      : Nat
deriving DecidableEq, Repr

/-- Formats whose operand word has scales, an exponent and a hint context. -/
def altFmt (f : Nat) : Bool := isMx f || f == 0x0D

def Opd.of (v : Nat) : Opd :=
  let f := bits v 2 5
  { kind := bits v 0 2, fmt := f, addr := bits v 7 23
    rlen := if altFmt f then 0 else bits v 30 16, rstride := if altFmt f then 0 else bits v 46 18
    scl := bits v 30 23, fx := sext (bits v 30 9) 9, sd := bits v 53 6 }

/-- Operand `i` of a descriptor: IN0, IN1, IN2, OUT0, OUT1. -/
def opd (d i : Nat) : Opd := Opd.of (bits d (64 * i) 64)

/-- The format code and reserved bits of an operand word (R77, R159); the rest of a word of KIND 0 is not judged (log entry 69). -/
def opdWordOk (v : Nat) : Bool :=
  let p := Opd.of v
  p.kind == 0 || (decide (p.fmt ≤ 0x10) && (!altFmt p.fmt || bits v 59 5 == 0) && (p.fmt != 0x0D || bits v 39 14 == 0))

/-- Element width in bits. -/
def Opd.w (p : Opd) : Nat := fmtBits p.fmt

/-- A readout descriptor is legal (R139, R150). -/
def State.readoutOk (s : State) (site a vl : Nat) : Bool :=
  match s.descAt site a with
  | none => false
  | some d =>
    let f := bits d 36 5
    let wide := wideAcc f
    let n := bits d 12 11
    (f == 0 || wide) && decide (1 ≤ n) && decide (n ≤ if wide then 512 else 1024)
      && decide (1 ≤ bits d 29 7) && decide (bits d 23 6 + bits d 29 7 ≤ 64)
      && bits d 52 12 == 0 && bits d 87 41 == 0 && bits d 151 361 == 0
      && (bits d 50 1 == 0 || decide (bits d 64 23 + 4 * n ≤ sliceSize site))
      && (bits d 51 1 == 0 || decide (bits d 128 23 + 4 * (bits d 23 6 + bits d 29 7) ≤ sliceSize site))
      && decide (vl ≤ n * bits d 29 7)

/-- The landing slots of an operand over `n` elements. -/
def Opd.slots (p : Opd) (n : Nat) : List Nat :=
  if p.kind = 2 then (List.range ((n + p.rlen - 1) / max 1 p.rlen)).map (p.addr % 1024 + ·) else []

/-- The landing slots of elements `b .. b + n - 1` of an operand. -/
def Opd.slotsOf (p : Opd) (b n : Nat) : List Nat :=
  if p.kind = 2 ∧ n ≠ 0 then
    (List.range ((b + n - 1) / max 1 p.rlen + 1 - b / max 1 p.rlen)).map fun k => p.addr % 1024 + b / max 1 p.rlen + k
  else []

/-- The elements of a slice operand and its scales lie in the slice; an MX output writes its last block whole (R156, R162). -/
def Opd.inSlice (p : Opd) (out : Bool) (n size : Nat) : Bool :=
  if n = 0 then true
  else if isMx p.fmt then
    decide (p.addr + (if out then (n + 31) / 32 * 4 * p.w else (n * p.w + 7) / 8) ≤ size) && decide (p.scl + (n + 31) / 32 ≤ size)
  else if p.rlen = 0 then decide (p.addr + (n * p.w + 7) / 8 ≤ size)
  else
    let r := (n - 1) / p.rlen
    decide (p.addr + r * p.rstride + (((n - 1) % p.rlen + 1) * p.w + 7) / 8 ≤ size)
      && (r == 0 || decide (p.addr + (r - 1) * p.rstride + p.rlen * p.w / 8 ≤ size))

/-- An operand over `n` elements is legal (R160, R162). -/
def State.opdOk (s : State) (site d i n : Nat) : Bool :=
  let p := opd d i
  opdWordOk (bits d (64 * i) 64) &&
    match p.kind with
    | 0 => true
    | 1 => (decide (8 ≤ p.w) || isMx p.fmt || p.rlen * p.w % 8 == 0) && p.inSlice (decide (3 ≤ i)) n (sliceSize site)
    | 2 => !isMx p.fmt && p.rlen != 0 && decide (p.rlen * p.w ≤ 8 * s.landBytes site)
        && (p.slots n).all fun l => decide (l < s.fld (Reg.LAND_NSLOT_NSLOT site))
    | _ => decide (i < 3) && p.fmt == 0 && !isVector site && s.readoutOk site p.addr n

/-- Byte and bit of an element in the slice. -/
def State.place (s : State) (site : Nat) (p : Opd) (e : Nat) : Nat × Nat :=
  if p.kind = 2 then
    let i := e % max 1 p.rlen
    (s.landAddr site (p.addr % 1024 + e / max 1 p.rlen) + i * p.w / 8, i * p.w % 8)
  else
    let row := if p.rlen = 0 then 0 else e / p.rlen
    let i := if p.rlen = 0 then e else e % p.rlen
    (p.addr + row * p.rstride + i * p.w / 8, i * p.w % 8)

/-- The code of an element. -/
def State.elemCode (s : State) (site : Nat) (p : Opd) (e : Nat) : Nat :=
  let q := s.place site p e
  bits (leNat (s.sliceGet site q.1 ((q.2 + p.w + 7) / 8))) q.2 p.w

/-- The block scale of an element. -/
def State.elemScale (s : State) (site : Nat) (p : Opd) (e : Nat) : Nat := leNat (s.sliceGet site (p.scl + e / 32) 1)

/-- An accumulator element of a readout descriptor, scaled (R102, R139). -/
def State.readoutElem (s : State) (site ro : Nat) (strict : Bool) (e : Nat) (r : Rec) : Num × Rec :=
  let f := bits ro 36 5
  let wide := wideAcc f
  let i := e / max 1 (bits ro 29 7)
  let c := bits ro 23 6 + e % max 1 (bits ro 29 7)
  let a := bits ro 0 2
  let code := (s.cl site).accRead wide (bits ro 512 1) a c ((bits ro 2 10 + i) % (if wide then 512 else 1024))
  let v := readElem strict f code 0 (sext (bits ro 41 9) 9) r
  let scale (a : Nat) (r : Rec) : Num × Rec := readElem strict 0 (leNat (s.sliceGet site a 4)) 0 0 r
  let times (x y : Num) (r : Rec) : Num × Rec :=
    let z := x.mul y
    (z, flagArith strict [x, y] z { r with nan := r.nan || z.isNan })
  let rs := bits ro 64 23 + 4 * i
  let cs := bits ro 128 23 + 4 * c
  match bits ro 50 1, bits ro 51 1 with
  | 0, 0 => v
  | 1, 0 => let q := scale rs v.2; times v.1 q.1 q.2
  | 0, _ => let q := scale cs v.2; times v.1 q.1 q.2
  | _, _ =>
    let q := scale rs v.2
    let t := scale cs q.2
    let m := fpMul strict q.1 t.1 t.2
    times v.1 m.1 m.2

/-- The value of an input element, exact after the flush of R91. -/
def State.inElem (s : State) (site : Nat) (p : Opd) (ro : Nat) (strict : Bool) (e : Nat) (r : Rec) : Num × Rec :=
  if p.kind = 3 then s.readoutElem site ro strict e r
  else readElem strict p.fmt (s.elemCode site p e) (if isMx p.fmt then s.elemScale site p e else 0) p.fx r

/-- An input element as the 32-bit word that a program reads (R161, R165). DESIGN CHOICE (log entry 98): an FX64 element is read as its value
rounded once to FP32. -/
def wordOfNum (p : Opd) (strict : Bool) (v : Num) (r : Rec) : Word × Rec :=
  if p.kind != 3 && isInt p.fmt then
    (match v with | .fin n m _ => BitVec.ofInt 32 (signed n m) | _ => 0, r)
  else
    let q := if v.isNan then (v, r) else roundFp fp32 strict false v r
    (BitVec.ofNat 32 (fp32.encode q.1), q.2)

/-- The slice ranges that elements `b .. b + n - 1` of a slice operand occupy. -/
def Opd.ranges (p : Opd) (b n : Nat) : List (Nat × Nat) :=
  if p.kind ≠ 1 ∨ n = 0 then []
  else if isMx p.fmt then
    [(p.addr + b * p.w / 8, (b * p.w % 8 + n * p.w + 7) / 8), (p.scl + b / 32, (b + n - 1) / 32 + 1 - b / 32)]
  else if p.rlen = 0 then [(p.addr + b * p.w / 8, (b * p.w % 8 + n * p.w + 7) / 8)]
  else (List.range ((b + n - 1) / p.rlen + 1 - b / p.rlen)).map fun k =>
    let row := b / p.rlen + k
    let lo := max b (row * p.rlen)
    let hi := min (b + n) ((row + 1) * p.rlen)
    (p.addr + row * p.rstride + lo % p.rlen * p.w / 8, ((hi - lo) * p.w + 7) / 8)

/-- The slice ranges of the row and channel scales that elements `b .. b + n - 1` of a readout take (R102, R139). -/
def scaleRanges (ro b n : Nat) : List (Nat × Nat) :=
  let w := max 1 (bits ro 29 7)
  if n = 0 then []
  else
    (if bits ro 50 1 = 1 then [(bits ro 64 23 + 4 * (b / w), 4 * ((b + n - 1) / w + 1 - b / w))] else [])
      ++ if bits ro 51 1 = 1 then [(bits ro 128 23 + 4 * bits ro 23 6, 4 * w)] else []

/-- The slice ranges that an operand reads for elements `b .. b + n - 1`; `ro` is the readout descriptor of an accumulator operand. -/
def Opd.reads (p : Opd) (ro b n : Nat) : List (Nat × Nat) := if p.kind = 3 then scaleRanges ro b n else p.ranges b n

/-- Read the bytes of elements of an operand: read map, errors; a landing slot takes no part in the map (R339). -/
def State.touchOpd (s : State) (site : Nat) (p : Opd) (ro b n : Nat) (who : Who) : State :=
  if p.kind = 2 then
    s.meetLand site ((List.range n).map fun i => ((s.place site p (b + i)).1, 1)) who
  else (p.reads ro b n).foldl (fun s q => (s.touchRead site q.1 q.2 who).1) s

/-- Write the code of an element. -/
def State.putElem (s : State) (site : Nat) (p : Opd) (e code : Nat) (who : Who) : State :=
  let q := s.place site p e
  if p.w < 8 then
    let old := leNat (s.sliceGet site q.1 1)
    s.sliceWrite site q.1 (leBytes 1 (old % 2 ^ q.2 + code % 2 ^ p.w * 2 ^ q.2 + old / 2 ^ (q.2 + p.w) * 2 ^ (q.2 + p.w))) who
  else s.sliceWrite site q.1 (leBytes (p.w / 8) code) who

/-- Write one MX block from element `b` (R100, R156); the hint of the record sees what was written. -/
def State.putBlock (s : State) (site : Nat) (p : Opd) (b : Nat) (vs : List (Option Num)) (who : Who) (r : Rec) : State × Rec :=
  let (scale, codes, r1) := mxBlock p.fmt vs r
  let v := codes.zipIdx.foldl (fun a q => a + q.1 % 2 ^ p.w * 2 ^ (p.w * q.2)) 0
  let s1 := s.sliceWrite site (p.addr + b / 32 * 4 * p.w) (leBytes (4 * p.w) v) who
  let s2 := s1.sliceWrite site (p.scl + b / 32) (leBytes 1 scale) who
  (s2, (codes.zip vs).foldl (fun r q => if q.2.isSome then r.see (decodeElem p.fmt q.1 scale 0) else r) r1)

/-- Cut a list into blocks of 32, the last filled up with masked positions. -/
def blocks32 : Nat → List (Option Num) → List (List (Option Num))
  | 0, _ => []
  | n + 1, l =>
    if l.isEmpty then []
    else (l.take 32 ++ List.replicate (32 - (l.take 32).length) none) :: blocks32 n (l.drop 32)

/-- Write the values of elements `b ..` of an output, each with the source value that R110 folds: a value before its flush, after the
scales of R102 (log entry 70). -/
def State.putValues (s : State) (site : Nat) (p : Opd) (strict : Bool) (b : Nat) (vs : List (Num × Num)) (who : Who) (r : Rec) :
    State × Rec :=
  let s0 := if altFmt p.fmt && !vs.isEmpty then s.foldCtxHint site p.sd ((vs.map fun x => x.2).foldl Rec.see {}) who else s
  if isMx p.fmt then
    ((blocks32 vs.length (vs.map fun x => some x.1)).zipIdx).foldl (fun (q : State × Rec) x =>
      q.1.putBlock site p (b + 32 * x.2) x.1 who q.2) (s0, r)
  else
    vs.zipIdx.foldl (fun (q : State × Rec) x =>
      let t := toElem p.fmt strict p.fx x.1.1 (if strict && x.1.1.isSig then { q.2 with invalid := true } else q.2)
      (q.1.putElem site p (b + x.2) t.1 who, t.2.see (decodeElem p.fmt t.1 0 p.fx))) (s0, r)

/-- The places of elements `b .. b + n - 1` of an output that an operation writes together. -/
def State.outPlaces (s : State) (site : Nat) (p : Opd) (b n : Nat) : List Nat :=
  if p.kind = 0 ∨ n = 0 then []
  else if isMx p.fmt then
    ((List.range ((n + 31) / 32 * 4 * p.w)).map (p.addr + b / 32 * 4 * p.w + ·)) ++ (List.range ((n + 31) / 32)).map (p.scl + b / 32 + ·)
  else (List.range n).flatMap fun i => (List.range (max 1 (p.w / 8))).map ((s.place site p (b + i)).1 + ·)

/-! ## Element programs (R164 to R171) -/

def pOp (w : Nat) : Nat := bits w 0 6
def pDst (w : Nat) : Nat := bits w 6 3
def pSa (w : Nat) : Nat := bits w 9 4
def pSb (w : Nat) : Nat := bits w 13 4
def pSc (w : Nat) : Nat := bits w 17 4
def pMod (w : Nat) : Nat := bits w 24 3
def pTy (w : Nat) : Nat := bits w 27 2

/-- The words of a program up to the first with LAST (R164). -/
def upToLast : List Nat → List Nat
  | [] => []
  | w :: t => if bits w 31 1 = 1 then [w] else w :: upToLast t

def State.program (s : State) (site e n : Nat) : List Nat :=
  upToLast ((List.range 32).map fun i => (Store.get 0 (s.cl site).pstore (e * 2048 + n * 32 + i)).toNat)

/-- Sources an operation reads; ST into PAIR reads two (R166, R170). -/
def pSources (pair : Bool) (w : Nat) : List Nat :=
  match pOp w with
  | 0x00 => []
  | 0x01 => [pSa w] | 0x10 => [pSa w] | 0x11 => [pSa w] | 0x12 => [pSa w] | 0x13 => [pSa w] | 0x14 => [pSa w] | 0x15 => [pSa w]
  | 0x16 => [pSa w] | 0x17 => [pSa w] | 0x18 => [pSa w] | 0x19 => [pSa w]
  | 0x1A => if pair then [pSa w, pSb w] else [pSa w]
  | 0x05 => [pSa w, pSb w, pSc w] | 0x06 => [pSa w, pSb w, pSc w] | 0x0A => [pSa w, pSb w, pSc w]
  | _ => [pSa w, pSb w]

/-- The operation, MOD and TYPE are ones that R166 allows. -/
def pWordOk (w : Nat) : Bool :=
  let op := pOp w
  let m := pMod w
  let ty := pTy w
  decide (op ≤ 0x1B)
    && (if op = 0x09 then decide (m ≤ 5) else if op = 0x0E ∨ op = 0x0F ∨ op = 0x1A then decide (m ≤ 1)
        else if op = 0x12 then decide (m ≤ 2) else m == 0)
    && (if op = 0x06 ∨ (0x13 ≤ op ∧ op ≤ 0x16) ∨ op = 0x1B then ty == 0
        else if op = 0x0E ∨ op = 0x0F then ty != 0
        else if op = 0x12 then (ty == 0) == (m == 2) else true)

/-- Width of an integer TYPE. -/
def tyBits (ty : Nat) : Nat := if ty = 1 then 32 else if ty = 2 then 16 else 8

/-- A word as a TYPE reads it: an integer. -/
def intOf (ty : Nat) (w : Word) : Int := sext w.toNat (tyBits ty)

/-- An integer result: saturated to the TYPE and counted, held sign-extended (R169). -/
def satInt (ty : Nat) (v : Int) (r : Rec) : Word × Rec :=
  let hi : Int := 2 ^ (tyBits ty - 1) - 1
  let lo : Int := -2 ^ (tyBits ty - 1)
  if hi < v then (BitVec.ofInt 32 hi, r.addSat 1) else if v < lo then (BitVec.ofInt 32 lo, r.addSat 1) else (BitVec.ofInt 32 v, r)

/-- A word as an FP32 operand: flushed in fast mode; a NaN or an infinity is read, a signalling NaN is invalid in strict mode (R91, R94,
R106, R111). -/
def fpOperand (strict : Bool) (w : Word) (r : Rec) : Num × Rec :=
  let v := fp32.decode w.toNat
  flushAt (-126) strict v { r with nan := r.nan || v.isNan, infIn := r.infIn || v.isInf, invalid := r.invalid || (strict && v.isSig) }

/-- An FP32 value as a word. -/
def fpWord (p : Num × Rec) : Word × Rec := (BitVec.ofNat 32 (fp32.encode p.1), p.2)

/-- A value rounded to BF16, held as an FP32 word (R166). -/
def bfWord (strict : Bool) (v : Num) (r : Rec) : Word × Rec :=
  let p := roundFp bf16 strict false v r
  (BitVec.ofNat 32 (bf16.encode p.1 * 65536), p.2)

/-- ADDERR (R166). -/
def addErr (strict : Bool) (a b : Num) (r : Rec) : Num × Rec :=
  let v := a.add b
  if v.isNan then (.nan false, { r with nan := true, invalid := r.invalid || strict })
  else if v.isInf then (Num.zero, r)
  else
    let q := roundFp fp32 true false v {}
    if q.2.ovf then (Num.zero, if strict then { r with ovf := true } else r.addSat 1)
    else
      let e := v.add q.1.neg
      if e.isZero then (Num.zero, r) else roundFp fp32 strict false e r

/-- The six comparisons (R93). -/
def compare (m : Nat) (lt eq un : Bool) : Bool :=
  match m with
  | 0 => eq
  | 1 => !eq
  | 2 => lt
  | 3 => lt || eq
  | 4 => !un && !lt && !eq
  | _ => !un && !lt

/-- An FP32 element operation (TYPE 0). DESIGN CHOICE (log entry 97): an ordered comparison with a quiet NaN sets no INVALID in strict mode. -/
def fpElem (op m : Nat) (strict : Bool) (a b c : Word) (r : Rec) : Word × Rec :=
  let x := fpOperand strict a r
  if op = 0x12 then bfWord strict x.1 x.2
  else if op = 0x10 then fpWord (if x.1.isNan then .nan false else x.1.abs, x.2)
  else if op = 0x11 then fpWord (if x.1.isNan then .nan false else x.1.neg, x.2)
  else if 0x13 ≤ op ∧ op ≤ 0x16 then fpWord (funcOp (op - 0x13) strict x.1 x.2)
  else
    let y := fpOperand strict b x.2
    match op with
    | 0x02 => fpWord (fpAdd strict x.1 y.1 y.2)
    | 0x03 => fpWord (fpAdd strict x.1 y.1.neg y.2)
    | 0x04 => fpWord (fpMul strict x.1 y.1 y.2)
    | 0x07 => fpWord (numMax false x.1 y.1, y.2)
    | 0x08 => fpWord (numMax true x.1 y.1, y.2)
    | 0x09 => (if compare m (x.1.lt y.1) (x.1.eq y.1) (x.1.isNan || y.1.isNan) then 1 else 0, y.2)
    | 0x1B => fpWord (addErr strict x.1 y.1 y.2)
    | _ =>
      let z := fpOperand strict c y.2
      let v := (x.1.mul y.1).add z.1
      let r1 := flagArith strict [x.1, y.1, z.1] v z.2
      if op = 0x06 then bfWord strict v r1 else fpWord (roundFp fp32 strict false v r1)

/-- An integer element operation (TYPE 1 to 3). -/
def intElem (op m ty : Nat) (a b c : Word) (r : Rec) : Word × Rec :=
  let w := tyBits ty
  let x := intOf ty a
  let y := intOf ty b
  let sh := b.toNat % 32
  match op with
  | 0x02 => satInt ty (x + y) r
  | 0x03 => satInt ty (x - y) r
  | 0x04 => satInt ty (x * y) r
  | 0x05 => satInt ty (x * y + intOf ty c) r
  | 0x07 => (BitVec.ofInt 32 (max x y), r)
  | 0x08 => (BitVec.ofInt 32 (min x y), r)
  | 0x09 => (if compare m (decide (x < y)) (decide (x = y)) false then 1 else 0, r)
  | 0x0E => if m = 0 then satInt ty (x * 2 ^ sh) r else (BitVec.ofInt 32 (sext (a.toNat * 2 ^ sh) w), r)
  | 0x0F =>
    if m = 0 then (BitVec.ofInt 32 (x / 2 ^ sh), r)
    else (BitVec.ofInt 32 (sext (a.toNat % 2 ^ w / 2 ^ sh) w), r)
  | 0x10 => satInt ty x.natAbs r
  | 0x11 => satInt ty (-x) r
  | _ => fpWord (roundFp fp32 false false (Num.ofInt x) r)

/-- A word moved as its TYPE reads and writes it (R165, R169). DESIGN CHOICE (log entry 98): MOV and SEL of TYPE FP32 move the 32 bits as they
are, a NaN's too. -/
def moved (ty : Nat) (w : Word) : Word := if ty = 0 then w else BitVec.ofInt 32 (intOf ty w)

/-- The result of an element operation on three source words (R166). -/
def elemOp (w : Nat) (strict : Bool) (a b c : Word) (r : Rec) : Word × Rec :=
  match pOp w with
  | 0x01 => (moved (pTy w) a, r)
  | 0x0A => (moved (pTy w) (if c = 0 then b else a), r)
  | 0x0B => (a &&& b, r)
  | 0x0C => (a ||| b, r)
  | 0x0D => (a ^^^ b, r)
  | op =>
    if op = 0x12 ∧ pMod w = 0 then
      let v := fpOperand strict a r
      let p := toInt (tyBits (pTy w)) v.1 v.2
      (BitVec.ofInt 32 p.1, p.2)
    else if pTy w = 0 then fpElem op (pMod w) strict a b c r
    else intElem op (pMod w) (pTy w) a b c r

/-- RMAX, RMIN, RSUM of a row (R168): 0x17, 0x18, 0x19. A saturated integer RSUM counts one saturation for its row (log entry 71). -/
def rowOp (op ty : Nat) (strict : Bool) (l : List Word) (r : Rec) : Word × Rec :=
  if ty = 0 then
    let p := l.foldl (fun (p : List (Option Num) × Rec) w => let v := fpOperand strict w p.2; (p.1 ++ [some v.1], v.2)) ([], r)
    let f (a b : Num) (r : Rec) : Num × Rec :=
      if op = 0x17 then (numMax false a b, r) else if op = 0x18 then (numMax true a b, r) else fpAdd strict a b r
    let q := tree f 6 p.1 p.2
    fpWord (q.1.getD Num.zero, q.2)
  else
    let xs := l.map (intOf ty)
    if op = 0x17 then (BitVec.ofInt 32 (xs.foldl max (xs.headD 0)), r)
    else if op = 0x18 then (BitVec.ofInt 32 (xs.foldl min (xs.headD 0)), r)
    else satInt ty (xs.foldl (· + ·) 0) r

/-- Apply a row operation to a column of words, row by row of 64. -/
def rowsOp (op ty : Nat) (strict : Bool) : Nat → List Word → Rec → List Word × Rec
  | 0, _, r => ([], r)
  | n + 1, l, r =>
    if l.isEmpty then ([], r)
    else
      let p := rowOp op ty strict (l.take 64) r
      let q := rowsOp op ty strict n (l.drop 64) p.2
      (List.replicate (l.take 64).length p.1 ++ q.1, q.2)

/-- What a chunk holds while its program runs: tile registers, input words, exact values of accumulator inputs, scalars, outputs. -/
structure Chunk where
  base : Nat
  n    : Nat
  t    : List (List Word)
  ins  : List (List Word)
  ex   : List (List Num)
  /-- The source values of the inputs, before flush and saturation, where an output folds them (R110). -/
  raw  : List (List Num)
  scal : List Word
  /-- The values stored to the outputs, each with its source value (R110). -/
  outs : List (List (Num × Num))
  stat : Rec
deriving DecidableEq, Repr

/-- The word of a source at a position (R165). -/
def Chunk.src (c : Chunk) (code sidx p : Nat) : Word :=
  if code < 8 then (c.t.getD code []).getD p 0
  else if code < 11 then (c.ins.getD (code - 8) []).getD p 0
  else if code = 11 then c.scal.getD sidx 0
  else BitVec.ofNat 32 (c.base + p)

/-- Run one word of a program over a chunk (R167). `pair` tells whether an output is in the PAIR format. -/
def Chunk.run (c : Chunk) (strict : Bool) (pair : Nat → Bool) (w : Nat) : Chunk :=
  let op := pOp w
  let sx := bits w 21 3
  let ty := pTy w
  let setT (col : List Word) (r : Rec) : Chunk :=
    { c with t := c.t.set (pDst w) (col ++ (c.t.getD (pDst w) []).drop col.length), stat := r }
  if op = 0 then c
  else if op = 0x1A then
    let exact (code : Nat) : List Num := if ty == 0 && decide (8 ≤ code) && decide (code ≤ 10) then c.ex.getD (code - 8) [] else []
    let raw (code p : Nat) (v : Num) : Num :=
      if ty == 0 && decide (8 ≤ code) && decide (code ≤ 10) then (c.raw.getD (code - 8) []).getD p v else v
    let val (code p : Nat) (r : Rec) : (Num × Num) × Rec :=
      match (exact code)[p]? with
      | some v => ((v, raw code p v), r)
      | none =>
        let x := c.src code sx p
        if ty = 0 then let q := fpOperand strict x r; ((q.1, raw code p (fp32.decode x.toNat)), q.2)
        else ((Num.ofInt (intOf ty x), Num.ofInt (intOf ty x)), r)
    let out := (List.range c.n).foldl (fun (q : List (Num × Num) × Rec) p =>
      let a := val (pSa w) p q.2
      if pair (pMod w) then let b := val (pSb w) p a.2; (q.1 ++ [(a.1.1.add b.1.1, a.1.2)], b.2) else (q.1 ++ [a.1], a.2)) ([], c.stat)
    { c with outs := c.outs.set (pMod w) out.1, stat := out.2 }
  else if 0x17 ≤ op ∧ op ≤ 0x19 then
    let q := rowsOp op ty strict 16 ((List.range c.n).map (c.src (pSa w) sx)) c.stat
    setT q.1 q.2
  else
    let q := (List.range c.n).foldl (fun (q : List Word × Rec) p =>
      let x := elemOp w strict (c.src (pSa w) sx p) (c.src (pSb w) sx p) (c.src (pSc w) sx p) q.2
      (q.1 ++ [x.1], x.2)) ([], c.stat)
    setT q.1 q.2

/-- Input `i` is used other than by a ST that takes it exact (R161). -/
def wordUse (prog : List Nat) (pair : Nat → Bool) (i : Nat) : Bool :=
  prog.any fun w =>
    let l := pSources (pOp w == 0x1A && pair (pMod w)) w
    l.contains (8 + i) && !(pOp w == 0x1A && pTy w == 0)

/-- Read the elements `b ..` of an input: words, and exact values of an accumulator input. DESIGN CHOICE (log entry 98): an FP32 word is
flushed in fast mode, and its NaN made canonical, as it is read, whatever the program does with it. -/
def State.readIn (s : State) (site : Nat) (p : Opd) (ro : Nat) (strict words : Bool) (b n : Nat) (r : Rec) :
    List Word × List Num × Rec :=
  if p.kind = 0 then ([], [], r)
  else
    let q := (List.range n).foldl (fun (q : List Word × List Num × Rec) i =>
      let v := s.inElem site p ro strict (b + i) q.2.2
      if p.kind = 3 && !words then (q.1 ++ [0], q.2.1 ++ [v.1], v.2)
      else let x := wordOfNum p strict v.1 v.2; (q.1 ++ [x.1], q.2.1 ++ [v.1], x.2)) ([], [], r)
    if p.kind = 3 then q else (q.1, [], q.2.2)

/-- The source values of the elements `b ..` of an input, neither flushed nor saturated (R110); none of an integer input. -/
def State.rawIn (s : State) (site : Nat) (p : Opd) (ro b n : Nat) : List Num :=
  if p.kind == 0 || (p.kind != 3 && isInt p.fmt) then []
  else (List.range n).map fun i =>
    if p.kind = 3 then (s.readoutElem site ro true (b + i) {}).1
    else decodeElem p.fmt (s.elemCode site p (b + i)) (if isMx p.fmt then s.elemScale site p (b + i) else 0) p.fx

/-- The readout descriptor of an operand. -/
def State.roOf (s : State) (site : Nat) (p : Opd) : Nat :=
  if p.kind = 3 then
    let ro := leNat (s.sliceGet site p.addr 64)
    ro + s.fld (Reg.ARR_STATUS_CBANK site (bits ro 0 2)) * 2 ^ 512
  else 0

/-! ## Reading a chunk (R155, R167, R172 to R176) -/

/-- Whether element `e` is active (R172). -/
def State.activeElem (s : State) (site : Nat) (p : Opd) (e : Nat) : Bool :=
  p.kind == 0 || !(decodeElem p.fmt (s.elemCode site p e) 0 0).isZero

/-- Bitwise AND, OR, XOR of integer values: codes 3, 4, 5. -/
def bitNum (k : Nat) (a b : Num) : Num :=
  let z (v : Num) : Word := match v with | .fin n m _ => BitVec.ofInt 32 (signed n m) | _ => 0
  Num.ofInt ((if k = 3 then z a &&& z b else if k = 4 then z a ||| z b else z a ^^^ z b).toInt)

/-- The identity of a reduction as a code of OUT0's format (R174). -/
def redIdentity (k fmt : Nat) : Nat :=
  let w := fmtBits fmt
  match k with
  | 1 => if isFp fmt then (fpOf fmt).encode (.inf true) else 2 ^ (w - 1)
  | 2 => if isFp fmt then (fpOf fmt).encode (.inf false) else 2 ^ (w - 1) - 1
  | 3 => 2 ^ w - 1
  | _ => 0

/-- An element passed through (R172): its code, a NaN as the canonical one; another format converts. -/
def passElem (p q : Opd) (strict : Bool) (code scale : Nat) (r : Rec) : Nat × Rec :=
  let v := decodeElem p.fmt code scale p.fx
  let r1 := { r with nan := r.nan || v.isNan, infIn := r.infIn || v.isInf, invalid := r.invalid || (strict && v.isSig) }
  let z :=
    if p.fmt != q.fmt then let x := readElem strict p.fmt code scale p.fx r; toElem q.fmt strict q.fx x.1 x.2
    else if v.isNan then toElem q.fmt strict q.fx v r1
    else (code, r1)
  (z.1, z.2.see (decodeElem q.fmt z.1 0 q.fx))

/-- The chunk that a vector operation reads next: its first element and its length. -/
def VRun.chunk (r : VRun) : Nat × Nat := (1024 * r.next, min 1024 (r.op.vl - 1024 * r.next))

/-- An output in the PAIR format. -/
def VRun.pair (r : VRun) (j : Nat) : Bool := (opd r.dv (3 + j)).fmt == 0x0E

/-- Active elements of the chunk: their indices. -/
def State.activeIn (s : State) (site : Nat) (r : VRun) : List Nat :=
  ((List.range r.chunk.2).map (r.chunk.1 + ·)).filter fun e => s.activeElem site (opd r.dv 1) e

/-- BZ.VCMPX with funct7[0] = 1. -/
def Op.expand (o : Op) : Bool := o.kind == .vcmpx && o.f7 % 2 == 1

/-- The input operands that the chunk reads, each with its first element and number, in the order of binding: the mask first, since it
names what an expand reads of IN0. DESIGN CHOICE (log entry 100): a landing slot of IN0 that holds only inactive elements of a compress or
a reduction is bound and drained as every other. -/
def State.chunkIns (s : State) (site : Nat) (r : VRun) : List (Nat × Nat × Nat) :=
  let b := r.chunk.1
  let n := r.chunk.2
  if r.op.expand then [(1, b, n), (2, b, n), (0, r.count, (s.activeIn site r).length)] else [(0, b, n), (1, b, n), (2, b, n)]

/-- BZ.VRUN over a chunk (R167). -/
def State.readVrun (s : State) (site e : Nat) (r : VRun) (who : Who) : State × VRun :=
  let b := r.chunk.1
  let n := r.chunk.2
  let prog := s.program site e (r.op.f7 % 64)
  let s1 := (List.range 3).foldl (fun s i => s.touchOpd site (opd r.dv i) (r.ros.getD i 0) b n who) s
  let ins := (List.range 3).foldl (fun (q : List (List Word) × List (List Num) × Rec) i =>
    let x := s1.readIn site (opd r.dv i) (r.ros.getD i 0) r.strict (wordUse prog r.pair i) b n q.2.2
    (q.1 ++ [x.1], q.2.1 ++ [x.2.1], x.2.2)) ([], [], r.stat)
  let folds := (List.range 2).any fun j => altFmt (opd r.dv (3 + j)).fmt
  let raw := if folds then (List.range 3).map fun i => s1.rawIn site (opd r.dv i) (r.ros.getD i 0) b n else []
  let c0 : Chunk := { base := b, n := n, t := r.regs, ins := ins.1, ex := ins.2.1, raw := raw, scal := r.op.scal, outs := [[], []], stat := ins.2.2 }
  let c := prog.foldl (fun c w => c.run r.strict r.pair w) c0
  (s1, { r with regs := c.t, stat := c.stat, pends := r.pends ++ [{ base := b, len := n, outs := c.outs }] })

/-- BZ.VRED over a chunk: the elements that the mask marks, as the tree takes them (R173). -/
def State.readVred (s : State) (site : Nat) (r : VRun) (who : Who) : State × VRun :=
  let p := opd r.dv 0
  let int := p.kind != 3 && isInt p.fmt
  let s1 := s.touchOpd site (opd r.dv 1) (r.ros.getD 1 0) r.chunk.1 r.chunk.2 who
  let act := s1.activeIn site r
  let s2 := act.foldl (fun s e => s.touchOpd site p (r.ros.getD 0 0) e 1 who) s1
  let q := (List.range r.chunk.2).foldl (fun (l : List (Option Num) × Rec) i =>
    let e := r.chunk.1 + i
    if act.contains e then
      let v := s2.inElem site p (r.ros.getD 0 0) r.strict e l.2
      if int || v.1.isNan then (l.1 ++ [some v.1], v.2)
      else let x := roundFp fp32 r.strict false v.1 v.2; (l.1 ++ [some x.1], x.2)
    else (l.1 ++ [none], l.2)) (r.vals, r.stat)
  (s2, { r with vals := q.1, stat := q.2 })

/-- BZ.VPERM over a chunk (R175); its reads of IN0 compete for the banks (R177). -/
def State.readVperm (s : State) (site e : Nat) (r : VRun) (who : Who) : State × VRun :=
  let p := opd r.dv 0
  let x := opd r.dv 1
  let idx (s : State) (i : Nat) : Nat :=
    match decodeElem x.fmt (s.elemCode site x i) 0 0 with
    | .fin n m _ => (BitVec.ofInt 32 (signed n m)).toNat
    | _ => 0
  let s1 := s.touchOpd site x (r.ros.getD 1 0) r.chunk.1 r.chunk.2 who
  let js := (List.range r.chunk.2).map fun i => idx s1 (r.chunk.1 + i)
  let good := js.filter fun j => decide (j < r.op.vl)
  let s2 := good.foldl (fun s j => s.touchOpd site p 0 j 1 who) s1
  let s3 := (s2.count (Reg.VE_OOR_COUNT site e) (js.length - good.length)).bankClash site (good.map fun j => (s2.place site p j).1 / 128)
  let v := js.foldl (fun (l : List (Num × Num) × Rec) j =>
    if j < r.op.vl then
      let t := s3.inElem site p 0 r.strict j l.2
      (l.1 ++ [(t.1, decodeElem p.fmt (s3.elemCode site p j) 0 p.fx)], t.2)
    else (l.1 ++ [(Num.zero, Num.zero)], l.2)) ([], r.stat)
  (s3, { r with stat := v.2, pends := r.pends ++ [{ base := r.chunk.1, len := r.chunk.2, outs := [v.1] }] })

/-- The code of an element that BZ.VCMPX passes to OUT0. -/
def State.movedElem (s : State) (site : Nat) (p q : Opd) (ro : Nat) (strict : Bool) (e : Nat) (r : Rec) : Nat × Rec :=
  if p.kind = 3 then
    let v := s.readoutElem site ro strict e r
    let x := wordOfNum p strict v.1 v.2
    passElem { p with fmt := 0 } q strict x.1.toNat 0 x.2
  else passElem p q strict (s.elemCode site p e) (if isMx p.fmt then s.elemScale site p e else 0) r

/-- BZ.VCMPX over a chunk (R172): only the elements that it passes are read. -/
def State.readVcmpx (s : State) (site : Nat) (r : VRun) (who : Who) : State × VRun :=
  let p := opd r.dv 0
  let z := opd r.dv 2
  let q := opd r.dv 3
  let s1 := s.touchOpd site (opd r.dv 1) (r.ros.getD 1 0) r.chunk.1 r.chunk.2 who
  let act := s1.activeIn site r
  let merge := r.op.expand && z.kind != 0
  let s2 :=
    if r.op.expand then
      let s3 := s1.touchOpd site p (r.ros.getD 0 0) r.count act.length who
      if merge then (((List.range r.chunk.2).map (r.chunk.1 + ·)).filter fun e => !act.contains e).foldl (fun s e => s.touchOpd site z (r.ros.getD 2 0) e 1 who) s3
      else s3
    else act.foldl (fun s e => s.touchOpd site p (r.ros.getD 0 0) e 1 who) s1
  let out := (List.range r.chunk.2).foldl (fun (l : List (Nat × Nat × Nat) × Nat × Rec) i =>
    let e := r.chunk.1 + i
    if act.contains e then
      let x := s2.movedElem site p q (r.ros.getD 0 0) r.strict (if r.op.expand then l.2.1 else e) l.2.2
      (l.1 ++ [(3, if r.op.expand then e else l.2.1, x.1)], l.2.1 + 1, x.2)
    else if merge then
      let x := s2.movedElem site z q (r.ros.getD 2 0) r.strict e l.2.2
      (l.1 ++ [(3, e, x.1)], l.2.1, x.2)
    else l) ([], r.count, r.stat)
  (s2, { r with count := out.2.1, stat := out.2.2, pends := r.pends ++ [{ base := r.chunk.1, codes := out.1 }] })

/-- The first element of an operation's last chunk. -/
def Op.lastBase (o : Op) : Nat := 1024 * (o.chunks - 1)

/-- What an operation writes after its last chunk: the result of a reduction (R173, R174), the count of a compress or expand (R172). -/
def VRun.final (r : VRun) : VRun :=
  match r.op.kind with
  | .vred =>
    let k := r.op.f7 % 8
    let p := opd r.dv 0
    let q := opd r.dv 3
    let int := p.kind != 3 && isInt p.fmt
    let f (a b : Num) (r' : Rec) : Num × Rec :=
      if k = 0 then (if int then (a.add b, r') else fpAdd r.strict a b r')
      else if k = 1 then (numMax false a b, r')
      else if k = 2 then (numMax true a b, r')
      else (bitNum k a b, r')
    let res := tree f (levels r.op.vl) r.vals r.stat
    let out : Nat × Rec :=
      match res.1 with
      | none => (redIdentity k q.fmt, { res.2 with empty := k == 1 || k == 2 })
      | some v => toElem q.fmt r.strict 0 v res.2
    { r with stat := out.2.see (decodeElem q.fmt out.1 0 0), pends := r.pends ++ [{ base := r.op.lastBase, codes := [(3, 0, out.1)] }], last := true }
  | .vcmpx =>
    if r.op.vl = 0 then { r with last := true }
    else { r with stat := r.stat.see (Num.ofInt r.count), pends := r.pends ++ [{ base := r.op.lastBase, codes := [(4, 0, r.count)] }], last := true }
  | _ => { r with last := true }

/-- Elements of operand `i` that an operation covers. -/
def Op.cover (o : Op) (i : Nat) : Nat :=
  if o.kind = .vred ∧ i = 3 then 1 else if o.kind = .vcmpx ∧ i = 4 then min 1 o.vl else o.vl

/-! ## Landing slots of an operation (R160, R188, R190) -/

/-- How an operation stands: it can go on, it stalls on a landing slot, it stalls on a bank that wakes. -/
inductive VGo where
  | on
  | slot (l : Nat)
  | bank
deriving DecidableEq, Repr

/-- The block of a vector operation is in progress. -/
def State.vecOpen (s : State) (site : Nat) (r : VRun) : Bool := s.open_ site r.op.slot r.op.blk

/-- Bind the input slots of a chunk in order, up to one that is not FULL. -/
def State.bindIns (s : State) (site e : Nat) : List Nat → VRun → State × VRun × VGo
  | [], r => (s, r, .on)
  | l :: t, r =>
    match s.readBind site l (5 + e) (r.bound.contains l) with
    | none => (s, r, .slot l)
    | some s1 =>
      if r.bound.contains l then State.bindIns s1 site e t r
      else
        let s2 := if s.vecOpen site r then s1.modBlk site r.op.slot fun b => { b with drains := b.drains ++ [l] } else s1
        State.bindIns s2 site e t { r with bound := r.bound ++ [l] }

/-- Bind the output slots of a chunk in order, up to one that is not EMPTY or is held; an output's slot is kept as 1,024 + its number. -/
def State.bindOuts (s : State) (site e : Nat) : List Nat → VRun → State × VRun × VGo
  | [], r => (s, r, .on)
  | l :: t, r =>
    if r.bound.contains (1024 + l) then State.bindOuts s site e t r
    else if s.landFree site l ∧ s.engineFirst site l (5 + e) true = false then
      let s1 := s.landBind site l (5 + e)
      let s2 := if s.vecOpen site r then s1.modBlk site r.op.slot fun b => { b with fills := b.fills ++ [l] } else s1
      State.bindOuts s2 site e t { r with bound := r.bound ++ [1024 + l] }
    else (s, r, .slot l)

/-- The input slots whose last element has been read, where elements below `upTo i` of input `i` have been. -/
def VRun.drained (r : VRun) (upTo : Nat → Nat) : List Nat :=
  (r.bound.filter fun l => decide (l < 1024)).filter fun l =>
    (List.range 3).all fun i =>
      let p := opd r.dv i
      !(p.slots (r.op.cover i)).contains l || decide (min r.op.vl ((l + 1 - p.addr % 1024) * p.rlen) ≤ upTo i)

/-- Drained slots become EMPTY, held until the block commits (R190). -/
def State.emptySlots (s : State) (site : Nat) (r : VRun) (ls : List Nat) : State × VRun :=
  let mine := s.vecOpen site r
  (ls.foldl (fun s l => (s.setLand site l ldEmpty).setFlag (Reg.LAND_STATE_HOLD site l) mine) s,
    { r with bound := r.bound.filter fun l => !ls.contains l })

/-- A bank that a range of an operand needs is WAKING (R216). -/
def State.opdWakes (s : State) (site : Nat) (p : Opd) (ro b n : Nat) : Bool :=
  (p.reads ro b n).any (fun q => s.waking site q.1 q.2) || (p.slotsOf b n).any fun l => s.waking site (s.landAddr site l) (s.landBytes site)

/-- The bank of the arm record that an output's conversion folds its hint into is WAKING (R110, R205, R216). -/
def State.hintWakes (s : State) (site : Nat) (p : Opd) : Bool :=
  altFmt p.fmt && s.flag (Reg.STR_HOME_VALID site p.sd) && s.waking site (s.fld (Reg.STR_HOME_HOME site p.sd) + 48) 2

/-! ## One act of an operation (R176) -/

/-- Read the next chunk and compute on it. -/
def State.vecRead (s : State) (site e : Nat) (r : VRun) : State × VRun × VGo :=
  let ins := s.chunkIns site r
  let q := s.bindIns site e (ins.flatMap fun x => (opd r.dv x.1).slotsOf x.2.1 x.2.2) r
  match q.2.2 with
  | .on =>
    if ins.any fun x => q.1.opdWakes site (opd r.dv x.1) (r.ros.getD x.1 0) x.2.1 x.2.2 then (q.1, q.2.1, .bank)
    else
      let who : Who := ⟨5 + e, r.op.slot, r.op.blk⟩
      let w :=
        match r.op.kind with
        | .vrun => q.1.readVrun site e q.2.1 who
        | .vred => q.1.readVred site q.2.1 who
        | .vperm => q.1.readVperm site e q.2.1 who
        | _ => q.1.readVcmpx site q.2.1 who
      let upTo (i : Nat) : Nat := if r.op.expand && i == 0 then w.2.count else r.chunk.1 + r.chunk.2
      let z := w.1.emptySlots site w.2 (w.2.drained upTo)
      (z.1, { z.2 with next := r.next + 1 }, .on)
  | _ => q

/-- Write what stands first of the chunks formed. -/
def State.vecWrite (s : State) (site e : Nat) (r : VRun) : State × VRun × VGo :=
  match r.pends with
  | [] => (s, r, .on)
  | a :: t =>
    let parts := (List.range 2).map (fun j => (opd r.dv (3 + j), a.base, (a.outs.getD j []).length)) ++
      a.codes.map fun c => (opd r.dv c.1, c.2.1, 1)
    let q := s.bindOuts site e ((parts.flatMap fun x => x.1.slotsOf x.2.1 x.2.2).eraseDups) r
    match q.2.2 with
    | .on =>
      if (parts.any fun x => q.1.opdWakes site x.1 0 x.2.1 x.2.2)
          || (List.range 2).any fun j => !(a.outs.getD j []).isEmpty && q.1.hintWakes site (opd r.dv (3 + j)) then (q.1, q.2.1, .bank)
      else
        let who : Who := ⟨5 + e, r.op.slot, r.op.blk⟩
        let s1 := if (q.1.cl site).ecc = [] then q.1 else q.1.makeGood site (parts.flatMap fun x => q.1.outPlaces site x.1 x.2.1 x.2.2)
        let w := (List.range 2).foldl (fun (z : State × Rec) j =>
          if (opd r.dv (3 + j)).kind = 0 then z
          else z.1.putValues site (opd r.dv (3 + j)) r.strict a.base (a.outs.getD j []) who z.2) (s1, q.2.1.stat)
        let s2 := a.codes.foldl (fun s c => s.putElem site (opd r.dv c.1) c.2.1 c.2.2 who) w.1
        (s2, { q.2.1 with stat := w.2, pends := t }, .on)
    | _ => q

/-- Nothing is left of an operation to read or to write. -/
def VRun.over (r : VRun) : Bool := r.last && r.pends.isEmpty

/-- One act: the next write, the next read, or what follows the last chunk. -/
def State.vecAct (s : State) (site e : Nat) (r : VRun) : State × VRun × VGo :=
  if r.writing then s.vecWrite site e r
  else if r.next < r.op.chunks then s.vecRead site e r
  else (s, r.final, .on)

/-- The acts of an operation up to its end or to a stall. -/
def State.vecGo (site e : Nat) : Nat → State → VRun → State × VRun × VGo
  | 0, s, r => (s, r, .on)
  | k + 1, s, r =>
    if r.over then (s, r, .on)
    else
      let q := s.vecAct site e r
      match q.2.2 with
      | .on => State.vecGo site e k q.1 q.2.1
      | _ => q

/-! ## Start and completion (R162, R163, R176, R177) -/

/-- Whether the operands, and the program, suit the operation (R162, R166, R170, R172, R173, R175). -/
def State.vecKindOk (s : State) (site e : Nat) (o : Op) (d : Nat) : Bool :=
  let k (i : Nat) : Bool := (opd d i).kind != 0
  let f (i : Nat) : Nat := (opd d i).fmt
  match o.kind with
  | .vrun =>
    let prog := s.program site e (o.f7 % 64)
    let pair (j : Nat) : Bool := k (3 + j) && f (3 + j) == 0x0E
    let used (i : Nat) : Bool := prog.any fun w => (pSources (pOp w == 0x1A && pair (pMod w)) w).contains (8 + i)
    let stores (j : Nat) : Nat := (prog.filter fun w => pOp w == 0x1A && pMod w == j).length
    (List.range 3).all (fun i => used i == k i)
      && (o.vl == 0 || (prog.all (fun w => pWordOk w && (pSources (pOp w == 0x1A && pair (pMod w)) w).all (· < 13))
        && (List.range 2).all fun j => stores j == (k (3 + j)).toNat))
  | .vred =>
    k 0 && k 3 && !k 2 && !k 4 && (!k 1 || isInt (f 1))
      && (isFp (f 3) || f 3 == 0x09 || f 3 == 0x0F || f 3 == 0x10)
      && (decide (o.f7 % 8 < 3) || isInt (f 0))
  | .vperm =>
    (opd d 0).kind == 1 && k 1 && k 3 && !k 2 && !k 4 && !isMx (f 0) && isInt (f 1) && !isMx (f 3)
  | _ =>
    k 0 && k 3 && k 4 && (o.f7 % 2 == 1 || !k 2) && (!k 1 || isInt (f 1)) && !isMx (f 0) && !isMx (f 3) && f 4 == 0x10 && f 3 == f 0

/-- Whether a vector descriptor is legal for an operation (R158, R162). -/
def State.vecOk (s : State) (site e : Nat) (o : Op) (d : Nat) : Bool :=
  bits d 345 7 == 0 && bits d 384 128 == 0 && bits d 320 4 == 0 && decide (bits d 320 23 + 16 ≤ sliceSize site)
    && bits d 343 2 != 3 && syncOk (bits d 352 16)
    && (List.range 5).all (fun i => s.opdOk site d i (o.cover i)) && s.vecKindOk site e o d

/-- KIND of `VE_STATUS`. -/
def Op.veKind (o : Op) : Nat :=
  match o.kind with
  | .vrun => 1 | .vred => 2 | .vperm => 3 | _ => 4

/-- Show STATE of an engine unless it is in FAULT. -/
def State.showEng (s : State) (site e v : Nat) : State :=
  if s.fld (Reg.VE_STATUS_STATE site e) = 6 then s else s.setFld (Reg.VE_STATUS_STATE site e) v

/-- Show the operation of an engine and the chunk in progress. -/
def State.showVec (s : State) (site e : Nat) (r : VRun) (st : Nat) : State :=
  let s1 := (s.showEng site e st).setFld (Reg.VE_STATUS_KIND site e) r.op.veKind
  let chunk := if r.writing then (r.pends.headD {}).base / 1024 else min r.next (r.op.chunks - 1)
  (s1.setFld (Reg.VE_STATUS_PROG site e) (if r.op.kind = .vrun then r.op.f7 else 0)).setFld (Reg.VE_STATUS_CHUNK site e) chunk

/-- An engine goes on with its operation. DESIGN CHOICE (log entry 100): an input slot that an expand has read in part is made EMPTY at the end
of the operation. -/
def State.vecRun (s : State) (site e : Nat) (r : VRun) : State :=
  let q := State.vecGo site e (2 * r.op.chunks + 4) s r
  let z := if q.2.1.over then q.1.emptySlots site { q.2.1 with regs := [] } (q.2.1.bound.filter fun l => decide (l < 1024)) else (q.1, q.2.1)
  let set (st : Option (Nat × Nat)) : State := z.1.modEng site e fun x => { x with cur := some z.2, active := true, idle := 0, stall := st }
  match q.2.2 with
  | .on => (set none).showVec site e z.2 1
  | .bank => (set none).showVec site e z.2 3
  | .slot l => (set (some (l, (((s.eng site e).stall.filter fun w => w.1 == l).map (·.2)).getD 0))).showVec site e z.2 3

/-- The engine leaves the operation at the head of its queue. -/
def State.popEng (s : State) (site e : Nat) : State :=
  (s.modEng site e fun x => { x with queue := x.queue.drop 1 }).shrunk site

/-- A bank that holds the descriptor of an operation, or a readout descriptor that it names, is WAKING. -/
def State.descWakes (s : State) (site a : Nat) : Bool :=
  s.waking site a 64 || match s.descAt site a with
    | some d => (List.range 3).any fun i => (opd d i).kind == 3 && s.waking site (opd d i).addr 64
    | none => false

/-- The head operation of an engine reads its descriptors and starts; one that traps performs nothing. -/
def State.vecStart (s : State) (site e : Nat) (o : Op) : State :=
  match s.descAt site o.desc with
  | none => (s.popEng site e).opTrap site o
  | some d =>
    if !s.vecOk site e o d then (s.popEng site e).opTrap site o
    else
      let who : Who := ⟨5 + e, o.slot, o.blk⟩
      let ros := (List.range 3).map fun i => s.roOf site (opd d i)
      let s1 := (s.touchRead site o.desc 64 who).1
      let s2 := (List.range 3).foldl (fun s i => if (opd d i).kind = 3 then (s.touchRead site (opd d i).addr 64 who).1 else s) s1
      let s3 := if (s.eng site e).active then s2 else s2.stepFrame site 1 1
      (s3.popEng site e).vecRun site e { op := o, dv := d, ros := ros, strict := s.strictOf site (bits d 343 2)
                                         regs := if o.kind = .vrun then List.replicate 8 (List.replicate 1024 0) else [] }

/-- VECTOR_OP_START: the head operation starts, or the operation in progress goes on where it stalled. -/
def execVectorOpStart (site : Site) (e : EngId) (s : State) : Host.Outcome State Fault Refusal :=
  .next (if s.alive && s.live site then
      match (s.eng site e).cur, (s.eng site e).queue with
      | some r, _ => if r.over then s else s.vecRun site e r
      | none, [] => s
      | none, o :: _ =>
        if s.fld (Reg.VE_STATUS_STATE site e) = 6 ∨ s.descWakes site o.desc = true then s
        else
          match s.badParity site (5 + e) fun w => w.kind != 6 || o.kind == .vrun with
          | some w => s.parityMet site o.slot o.blk w
          | none => s.vecStart site e o
    else s)

/-- STATE of an engine that runs nothing: DUMMY while it is active and fills idle cycles, else IDLE. -/
def State.engRest (s : State) (site e : Nat) : State :=
  let v := if (s.eng site e).active && s.flag (Reg.VE_CTL_DUMMY_EN site e) then 2 else 0
  (((s.showEng site e v).setFld (Reg.VE_STATUS_KIND site e) 0).setFld (Reg.VE_STATUS_PROG site e) 0).setFld (Reg.VE_STATUS_CHUNK site e) 0

/-- VECTOR_OP_COMPLETE: the last element has been written; the status record is written, its counts are added, and the object is signalled (R111, R112, R66). -/
def execVectorOpComplete (site : Site) (e : EngId) (s : State) : Host.Outcome State Fault Refusal :=
  .next (if s.alive && s.live site then
      match (s.eng site e).cur with
      | some r =>
        if r.over && !s.waking site (bits r.dv 320 23) 16 then
          let o := r.op
          let s1 := (s.modEng site e fun x => { x with cur := none }).engRest site e
          let s2 := (s1.countRec site (5 + e) r.stat).writeRec site (bits r.dv 320 23) r.stat.pack ⟨5 + e, o.slot, o.blk⟩
          (s2.opSignal site o.slot o.blk (bits r.dv 352 16) (bits r.dv 368 16) (5 + e)).settle site o.slot
        else s
      | none => s
    else s)

/-- DUMMY_OPERATION: a dummy operation fills an idle cycle of an active engine (R179). DESIGN CHOICE (log entry 101): the cycles of a started
operation that stalls are no idle cycles of the engine. -/
def execDummyOperation (site : Site) (e : EngId) (s : State) : Host.Outcome State Fault Refusal :=
  let x := s.eng site e
  .next (if s.alive && s.live site && x.active && x.cur.isNone && decide (x.idle < 256) && s.flag (Reg.VE_CTL_DUMMY_EN site e) then
      ((s.count (Reg.VE_DUMMY_CYCLES site e) 1).modEng site e fun y => { y with idle := y.idle + 1 }).showEng site e 2
    else s)

/-- VECTOR_ENGINE_IDLE: after 256 consecutive idle cycles the engine goes idle (R179). -/
def execVectorEngineIdle (site : Site) (e : EngId) (s : State) : Host.Outcome State Fault Refusal :=
  let x := s.eng site e
  .next (if s.alive && s.live site && x.active && x.cur.isNone && (x.idle == 256 || !s.flag (Reg.VE_CTL_DUMMY_EN site e)) then
      (s.modEng site e fun y => { y with active := false, idle := 0 }).showEng site e 0
    else s)

end Sys2Proof.Machine
end

