-- ==== Sys2Proof/Machine/Streams.lean ====
section
/-! DEFINITION. Stream transfers (R196 to R208), the bandwidth split (R209, R210), fill and copy (R212, R213), arrivals into the
landing (R193 to R195), bank power (R214 to R216) and unit-level timeouts (R226, R227). -/

namespace Sys2Proof.Machine

/-! ## Helpers -/

/-- Bytes at places, as runs of consecutive places. -/
def spans : List (Nat × Byte) → List (Nat × List Byte)
  | [] => []
  | (a, b) :: t =>
    match spans t with
    | (c, l) :: r => if c = a + 1 then (a, b :: l) :: r else (a, [b]) :: (c, l) :: r
    | [] => [(a, [b])]

/-- Places `lo .. lo + n - 1` of a transfer's memory image in the local image, from its start. -/
def armPlaces (r lo n : Nat) : List Nat :=
  (List.range n).map fun b => if armXpose r || armDeal r then armPlace r (lo + b) else lo + b

/-- 128 B lines of a transfer. -/
def armLines (r : Nat) : Nat := (armBytes r + 127) / 128

/-- The bank is one that a transfer has still to write. -/
def State.writesBank (s : State) (site b : Nat) (x : Xfer) : Bool :=
  let l0 := 128 * x.lines
  let base := s.armStart site x.desc x.idx
  armKind x.desc == 0 && (armPlaces x.desc l0 (armBytes x.desc - l0)).any fun p => bankOf site (base + p) == b

/-- An arrival over a mesh link will write the bank. -/
def State.hopWrites (s : State) (site b : Nat) (h : Hop) : Bool :=
  (lines128 (s.landAddr site h.land) (min h.bytes.length (s.landBytes site))).any fun l => bankOf site (128 * l) == b

/-- Landing slot and offset of a LAND message (R386). -/
def msgSlot (m : GMsg) : Nat := m.aux.toNat % 1024
def msgOff (m : GMsg) : Nat := bits m.aux.toNat 16 16 * 128

/-- A LAND message for a cluster that reached it over the mesh, waits for no landing slot there (R194), and will write the bank. -/
def State.landWrites (s : State) (site b : Nat) (m : NMsg) : Bool :=
  m.msg.ty == 5 && msgSite m.msg == site && !(s.tile.held.any fun h => h.path == m.path && h.vch == m.msg.vch.val)
    && (lines128 (s.landAddr site (msgSlot m.msg) + msgOff m.msg) (min m.msg.data.length (s.landBytes site - msgOff m.msg))).any
      fun l => bankOf site (128 * l) == b

/-- Show the pending-write counters (R214): LOAD transfers with lines to write, and arrivals in the cluster's buffer. A unit's own write is
done in the command that makes it (log entry 102). -/
def State.showPending (s : State) (site : Nat) : State :=
  let xs := (s.cl site).ctxs.flatMap fun (p : Nat × Ctx) => p.2.xfers
  let hs := (s.cl site).hops
  (List.range (bankCount site)).foldl (fun s b =>
    s.setFld (Reg.BANK_STATE_PENDING site b)
      (min 0x3FFF ((xs.filter (s.writesBank site b)).length + (hs.filter (s.hopWrites site b)).length
        + (s.tile.arrived.filter (s.landWrites site b)).length))) s

/-! ## Issue (R199) -/

/-- Transfers outstanding (R200). -/
def Ctx.outstanding (c : Ctx) : Nat := (c.xfers.filter fun x => !x.dead).length

/-- The 512 B pieces of transfer `i` (R209). -/
def pieces (r i : Nat) : Nat :=
  let a := bits r 64 48 + i * bits r 128 32
  (a + armBytes r - 1) / 512 + 1 - a / 512

/-- The bandwidth class of an arm; none for REMOTE. -/
def armClass (r : Nat) : Option Nat := if armKind r = 0 then some 0 else if armKind r = 1 then some 1 else none

/-- Pieces of package memory that a range touches (R209). -/
def memPieces (a n : Nat) : Nat := if n = 0 then 0 else (a + n - 1) / 512 + 1 - a / 512

/-- Grants that a class has left (R210). -/
def State.grantsLeft (s : State) (cls : Nat) : Nat := Store.get 0 s.tile.grants cls

/-- Spend grants of a class. -/
def State.spend (s : State) (cls n : Nat) : State :=
  { s with tile := { s.tile with grants := Store.put s.tile.grants cls (s.grantsLeft cls - n) } }

/-- Take grants for a requester of the rotation. -/
def State.takeGrants (s : State) (cls who n : Nat) : State :=
  let s1 := s.spend cls n
  { s1 with tile := { s1.tile with served := Store.put s1.tile.served cls who } }

/-- The landing slot on which transfer `i` waits (R199), or to which a unit with a lower number comes first (R188). -/
def State.landWaits (s : State) (site r i : Nat) : Option Nat :=
  if !armLand r then none
  else
    let l := armSlot r i
    if armKind r = 0 then (if s.landFree site l && !s.engineFirst site l 7 true then none else some l)
    else if s.land site l = ldFull ∧ s.readerFirst site l 7 = false then none else some l

/-- The next transfer of a context is released: everything but the landing slot and the grants allows it. -/
def State.released (s : State) (site d : Nat) : Option Arm :=
  let c := s.ctx site d
  match c.act with
  | some a =>
    if a.next < armCount a.desc ∧ a.next < a.limit ∧ c.outstanding < bits a.desc 8 8 ∧ (armKind a.desc = 0 ∨ a.sure = true)
        ∧ c.stop = false then some a else none
  | none => none

/-- The landing slot on which a context waits. -/
def State.ctxWaits (s : State) (site d : Nat) : Option Nat := (s.released site d).bind fun a => s.landWaits site a.desc a.next

/-- `ready(d)` of R199; a transfer that reads a WAKING bank stalls (R216), and so does one through a port under test (R337). -/
def State.ready (s : State) (site d : Nat) : Option Arm :=
  (s.released site d).bind fun a =>
    let i := a.next
    if (s.landWaits site a.desc i).isSome ∨ (armKind a.desc ≠ 2 ∧ s.portTests (bits a.desc 64 48 + i * bits a.desc 128 32)) then none
    else if !((armClass a.desc).all fun k => decide (pieces a.desc i ≤ s.grantsLeft k)) then none
    else if armKind a.desc ≠ 0 ∧ s.waking site (s.armStart site a.desc i) (armReach a.desc) then none
    else some a

/-- The ready context whose turn it is. -/
def State.turn (s : State) (site : Nat) : Option Nat :=
  ((List.range 64).map fun k => ((s.cl site).served + k) % 64).find? fun d => (s.ready site d).isSome

/-- The transfer that a site asks for is of the class. -/
def State.asks (s : State) (site k : Nat) : Bool :=
  s.live site && !s.testing site 7 && ((((s.turn site).bind fun d => s.ready site d).bind fun a => armClass a.desc) == some k)

/-- The requesters of a class between the one it served last and `who`, in the rotation of R210. -/
def State.ahead (s : State) (cls who : Nat) : List Nat :=
  let last := Store.get 64 s.tile.served cls
  ((List.range 64).map fun k => (last + 1 + k) % 65).takeWhile fun u => u != who

/-- No requester of the rotation that comes before `who` asks for a transfer of the class (R210); the reduction engine is requester 64. -/
def State.classTurn (s : State) (cls who : Nat) : Bool :=
  let wants (u : Nat) : Bool :=
    if u = 64 then s.tile.buckets.any fun p => if cls = 0 then p.2.converting && p.2.want != 0 else p.2.asks && !p.2.closed && !p.2.marked
    else s.clusters.any (fun p => p.1 == u) && s.asks u cls
  !(s.ahead cls who).any wants

/-- The reduction engine may take a grant of a class: one is left, and its turn has come (R210, R267). -/
def State.engineTurn (s : State) (cls : Nat) : Bool := decide (0 < s.grantsLeft cls) && s.classTurn cls 64

/-- The memory image of a transfer that reads the slice, and whether every word of it could be read. -/
def State.localImage (s : State) (site r i : Nat) (who : Who) : State × List Byte × Bool :=
  let base := s.armStart site r i
  let ps := (armPlaces r 0 (armBytes r)).map fun p => base + p
  let p := (spans (ps.map fun a => (a, 0))).foldl (fun (q : State × Bool) run =>
      let t := q.1.touchRead site run.1 run.2.length who
      (t.1, q.2 && t.2)) (s, true)
  (p.1, ps.flatMap fun a => p.1.sliceGet site a 1, p.2)

/-! ## The transposer's line (R198) -/

/-- The transfer passes through the transposer. -/
def armThrough (r : Nat) : Bool := armXpose r || armDeal r

/-- Pieces of at most 4 KiB, the first at an offset. -/
def landPieces : Nat → Nat → List Byte → List (Nat × Bool × List Byte)
  | 0, _, _ => []
  | n + 1, off, l =>
    if l.length ≤ 4096 then [(off, true, l)] else (off, false, l.take 4096) :: landPieces n (off + 4096) (l.drop 4096)

/-- The LAND messages of a REMOTE transfer (R386). -/
def landMsgs (r i : Nat) (data : List Byte) : List GMsg :=
  let slot := bits r 96 10 + i % max 1 (bits r 112 16)
  (landPieces 17 0 data).map fun p =>
    { vch := Fin.ofNat 16 (bits r 106 4), ty := 5, dst := BitVec.ofNat 32 (bits r 64 32)
      aux := BitVec.ofNat 64 (slot + p.1 / 128 * 2 ^ 16 + p.2.1.toNat * 2 ^ 32), data := p.2.2 }

/-- The signal behind a REMOTE transfer's data (R200, R228): on its channel, to the object that SYNC names at the destination. -/
def State.tailMsg (s : State) (site r : Nat) : GMsg :=
  let dst := bits r 64 32
  let ref := bits r 352 16
  let there := if bits ref 14 2 = 1 then 1 + bits dst 10 3 * 2 ^ 10 + bits dst 13 12 * 2 ^ 13 + 2 ^ 25 else dst - 10 + 9
  s.sigMsg there ref (bits r 368 16) (s.unitAddr site 7) (bits r 106 4)

/-- A STORE or REMOTE reads its data (R200, R333); a REMOTE's messages and the signal behind them are sent; a cancelled one signals
nothing (R206). -/
def State.xferRead (s : State) (site d : Nat) (x : Xfer) : State :=
  let r := x.desc
  let q := s.localImage site r x.idx ⟨7, x.slot, x.blk⟩
  let s1 := q.1.modCtx site d fun c => { c with xfers := c.xfers.map fun (y : Xfer) =>
    if y.id = x.id then { y with data := q.2.1, bad := !q.2.2, waits := false } else y }
  if armKind r = 2 ∧ q.2.2 then
    let tail := if bits r 5 1 = 1 ∧ x.dead = false then [s1.tailMsg site r] else []
    (landMsgs r x.idx q.2.1 ++ tail).foldl (fun s m =>
      s.netSend site { msg := m, goal := bits r 68 6, xfer := some (site, d, x.id) }) s1
  else s1

/-- The transfer at the front of the transposer's line that has still to read its data. -/
def State.xlineReads (s : State) (site : Nat) : Option (Nat × Xfer) :=
  (s.cl site).xline.head?.bind fun p =>
    ((s.ctx site p.1).xfers.find? fun x => x.id == p.2 && x.waits).map fun x => (p.1, x)

/-- The transposer takes what stands first in its line and only reads: the transfers that send, one after the other; none while its test is
pending (R337). -/
def State.xlineStep (s : State) (site : Nat) : State :=
  match s.xlineReads site with
  | some (d, x) =>
    if s.waking site (s.armStart site x.desc x.idx) (armReach x.desc) || s.testing site 8 then s
    else (s.parityAt site 8 x.slot x.blk).getD ((s.modCl site fun c => { c with xline := c.xline.drop 1 }).xferRead site d x)
  | none => s

def State.xlineRun (s : State) (site : Nat) : State :=
  ((List.range (s.cl site).xline.length).foldl (fun s _ => s.xlineStep site) s).showQueues site

/-- Issue the next transfer of a context. -/
def State.issueXfer (s : State) (site d : Nat) (a : Arm) : State :=
  let r := a.desc
  let i := a.next
  let reads := armKind r != 0
  let x : Xfer := { id := (s.cl site).nextOp, desc := r, slot := a.slot, blk := a.blk, idx := i
                    epoch := s.fld (Reg.STR_STATE_EPOCH site d), waits := reads && armThrough r }
  let s1 := (match armClass r with
    | some k => s.takeGrants k site (pieces r i)
    | none => s).bump site
  let s2 := if armLand r then
      (if armKind r = 0 then s1.landBind site (armSlot r i) 7 else s1.setLand site (armSlot r i) ldDraining) else s1
  let s3 := s2.modCtx site d fun c => { c with act := some { a with next := i + 1 }, xfers := c.xfers ++ [x], stall := none }
  let s4 := if !reads then s3
    else if armThrough r then (s3.modCl site fun c => { c with xline := c.xline ++ [(d, x.id)] }).xlineRun site
    else s3.xferRead site d x
  let s5 := s4.modCl site fun c => { c with served := (d + 1) % 64 }
  (s5.showCtx site d).showPending site

/-- STREAM_TRANSFER_ISSUE (R199): the ready context whose turn it is, at the site whose turn it is (R210). -/
def execStreamTransferIssue (site : Site) (d : CtxId) (s : State) : Host.Outcome State Fault Refusal :=
  .next (if s.alive && s.live site && !s.testing site 7 && s.turn site == some d.val then
      match s.ready site d with
      | some a =>
        (s.parityAt site 7 a.slot a.blk).getD (if (armClass a.desc).all fun k => s.classTurn k site then s.issueXfer site d a else s)
      | none => s
    else s)

/-! ## Lines of a LOAD (R207, R397) -/

/-- Mark the words of written bytes that came from a poisoned line. -/
def State.markPoison (s : State) (site at_ addr : Nat) : State :=
  s.modCl site fun c => { c with ecc := Store.put c.ecc (at_ / 8) (3 + addr) }

/-- Words that a transposed or dealt transfer covers whole and has not begun are made good when their first byte is written (R184). -/
def State.lineGood (s : State) (site : Nat) (x : Xfer) : State :=
  let r := x.desc
  if (s.cl site).ecc = [] ∨ armThrough r = false then s
  else
    let base := s.armStart site r x.idx
    let ps := (armPlaces r 0 (armBytes r)).map fun p => base + p
    let past := ps.take (128 * x.lines)
    let now := (ps.drop (128 * x.lines)).take 128
    let words := (now.map fun p => p / 8).filter fun w => !past.any fun p => p / 8 == w
    s.makeGood site (ps.filter fun p => words.contains (p / 8))

/-- The package address of the next line of a LOAD. -/
def Xfer.lineAddr (x : Xfer) : Nat := bits x.desc 64 48 + x.idx * bits x.desc 128 32 + 128 * x.lines

/-- Write one line's bytes: each run of consecutive places, then the poison marks, of poisoned lines and of those that `lost` names by bit 6 of
their address. -/
def State.landLine (s : State) (site : Nat) (x : Xfer) (lost : Nat → Bool) (who : Who) : State :=
  let r := x.desc
  let lo := 128 * x.lines
  let n := min 128 (armBytes r - lo)
  let base := s.armStart site r x.idx
  let mem := x.lineAddr
  let ps := (armPlaces r lo n).map fun p => base + p
  let s0 := s.lineGood site x
  let s1 := (spans (ps.zip (s0.pkgRead mem n))).foldl (fun s run => s.sliceWrite site run.1 run.2 who) s0
  ((ps.zipIdx).foldl (fun s p => if s.pkgBad (mem + p.2) 1 || lost ((mem + p.2) / 64 % 2) then s.markPoison site p.1 (mem + p.2) else s) s1).keepLoads
    s site who.slot

/-- The places of a line wait on a WAKING bank. -/
def State.lineWaits (s : State) (site : Nat) (x : Xfer) : Bool :=
  let lo := 128 * x.lines
  let base := s.armStart site x.desc x.idx
  (armPlaces x.desc lo (min 128 (armBytes x.desc - lo))).any fun p => s.waking site (base + p) 1

/-- Replace the first transfer that a test names. -/
def updFirst (p : Xfer → Bool) (f : Xfer → Option Xfer) : List Xfer → List Xfer
  | [] => []
  | x :: t => if p x then (f x).toList ++ t else x :: updFirst p f t

/-- A LOAD that passes through the transposer joins its line with its first data (R198). -/
def State.xlineJoin (s : State) (site d : Nat) (x : Xfer) : State :=
  if armThrough x.desc = false ∨ (s.cl site).xline.contains (d, x.id) = true then s
  else (s.modCl site fun c => { c with xline := c.xline ++ [(d, x.id)] }).showQueues site

/-- The transposer serves the LOAD, or none is needed; it begins none while its test is pending (R337). -/
def State.xlineServes (s : State) (site d : Nat) (x : Xfer) : Bool :=
  !armThrough x.desc || ((s.cl site).xline.head? == some (d, x.id) && (x.lines != 0 || !s.testing site 8))

/-- What the transposer served has passed: the next in its line. -/
def State.xlineLeave (s : State) (site d id : Nat) : State :=
  (s.modCl site fun c => { c with xline := c.xline.erase (d, id) }).xlineRun site

/-- The CRC-16 of a 64 B line of package memory as the control wires carry it (R396). -/
def State.lineCrc (s : State) (line : Nat) : Nat := crc16 ((s.pkgRead (64 * line) 64).flatMap fun b => bitsMsb 8 b.toNat)

/-- How often a line is resent, and whether its fourth resend fails too, from the CRC words that came with its sendings (R397). -/
def crcTries (good : Nat) (l : List (BitVec 16)) : Nat × Bool :=
  let bad := (l.takeWhile fun c => c.toNat != good).length
  (min 4 bad, decide (5 ≤ bad))

/-- The tries of the two 64 B lines of a LOAD's line at an address. -/
def State.loadTries (s : State) (a n : Nat) (l : LoadLine) (k : Nat) : Nat × Bool :=
  match (linesOf a n).find? fun x => x % 2 == k with
  | some x => crcTries (s.lineCrc x) (if k = 0 then l.low else l.high)
  | none => (0, false)

/-- Lines resent after a CRC failure count at the port that carries them (R397; log entry 91). -/
def State.crcResent (s : State) (a n : Nat) : State :=
  if n = 0 ∨ s.memSize ≤ a then s else s.count (Reg.VPORT_CRC_COUNT (s.portOf a)) n

/-- LOAD_LINE_ARRIVAL: the next line of the oldest LOAD of the context is written, or discarded where its epoch is stale; it waits for
the transposer and for a bank that wakes. -/
def execLoadLineArrival (site : Site) (l : LoadLine) (s : State) : Host.Outcome State Fault Refusal :=
  let d := l.ctx
  let due (x : Xfer) : Bool := armKind x.desc == 0 && decide (x.lines < armLines x.desc)
  .next (if s.alive && s.live site then
      match (s.ctx site d).xfers.find? due with
      | none => s
      | some x =>
        let last := x.lines + 1 = armLines x.desc
        let tries := s.loadTries x.lineAddr (min 128 (armBytes x.desc - 128 * x.lines)) l
        let resent := (tries 0).1 + (tries 1).1
        if x.dead || x.epoch != s.fld (Reg.STR_STATE_EPOCH site d) then
          let w := if last ∧ armBytes x.desc % 128 ≠ 0 then armBytes x.desc % 128 else 128
          let s1 := (s.crcResent x.lineAddr resent).count64 (Reg.WASTED_FETCH_BYTES site) w
          let s2 := s1.modCtx site d fun c => { c with
            xfers := updFirst due (fun y => if last then none else some { y with lines := y.lines + 1 }) c.xfers }
          s2.showPending site
        else if s.lineWaits site x || !(s.xlineJoin site d x).xlineServes site d x then s.xlineJoin site d x
        else
          let parity := if armThrough x.desc ∧ x.lines = 0 then (s.xlineJoin site d x).parityAt site 8 x.slot x.blk else none
          parity.getD <|
          let who : Who := if armLand x.desc then ⟨7, x.slot, 0⟩ else ⟨7, x.slot, x.blk⟩
          let s0 := ((s.xlineJoin site d x).crcResent x.lineAddr resent).landLine site x (fun k => (tries k).2) who
          let s1 := (if last then s0.xlineLeave site d x.id else s0).modCtx site d fun c => { c with
            xfers := updFirst due (fun y => some { y with lines := y.lines + 1 }) c.xfers }
          let a := x.lineAddr
          let n := min 128 (armBytes x.desc - 128 * x.lines)
          (if s.memSize < a + n ∧ (x.lines = 0 ∨ a ≤ s.memSize) then
            s1.raise { s1.charge (s1.perr 0x04 (some site) (.vport (Fin.ofNat 8 (s1.portOf a))) (s1.unitAddr site 7)) site x.slot who.blk with
              reason := 0x0309, detail := a % 2 ^ 48 }
          else s1).showPending site
    else s)

/-! ## Completion (R200, R203) -/

/-- Messages of a REMOTE transfer are still on their way: on the mesh, waiting at their cluster, or queued for an edge. -/
def State.onWay (s : State) (site d : Nat) (x : Xfer) : Bool :=
  let mine (m : NMsg) : Bool := m.xfer == some (site, d, x.id)
  s.tile.net.any (fun p => p.2.any mine) || s.tile.arrived.any mine
    || (List.range 4).any fun e => (s.edge e).routed.any fun r => r.2 == (site, d, x.id)

/-- The end of an active arm (R203): its markers are dropped; the shadow becomes active with its home. -/
def State.armEnd (s : State) (site d : Nat) : State :=
  let c := s.ctx site d
  match c.act with
  | some a =>
    if a.next < armCount a.desc ∨ c.outstanding ≠ 0 then s
    else
      let s1 := s.count (Reg.FE_MK_DROP_COUNT site) a.marks.length
      let s2 := s1.modCtx site d fun c => { c with act := c.shd, shd := none, stop := false, stall := none }
      match c.shd with
      | some b => s2.wr (Reg.STR_HOME site d) (BitVec.ofNat 32 (b.home % 2 ^ 23 + 2 ^ 23))
      | none => s2
  | none => s

/-- Signal SYNC of a completed LOAD or STORE (R200, R221); a REMOTE's signal rides behind its data (R228). -/
def State.xferSignal (s : State) (site : Nat) (x : Xfer) : State :=
  let r := x.desc
  if bits r 5 1 = 0 ∨ armKind r = 2 then s else s.opSignal site x.slot x.blk (bits r 352 16) (bits r 368 16) 7

/-- The bytes of a write that lie in a 64 B line, with their address. -/
def inLine (a : Nat) (bs : List Byte) (line : Nat) : Nat × List Byte :=
  (max a (64 * line), (bs.drop (64 * line - a)).take (64 * line + 64 - max a (64 * line)))

/-- Package memory takes a write line by line (R397): a line that fails its CRC is resent and counted, and one that fails for good is not
written; whether one did. -/
def State.pkgStore (s : State) (a : Nat) (bs : List Byte) (crcs : List (Nat × List (BitVec 16))) : State × Bool :=
  if crcs = [] then (s.pkgWrite a bs, false)
  else
    let t := s.pkgWrite a bs
    let tries (n : Nat) : Nat × Bool := crcTries (t.lineCrc n) ((crcs.find? fun c => c.1 == n).elim [] (·.2))
    (linesOf a bs.length).foldl (fun q n =>
      let p := inLine a bs n
      let s1 := q.1.crcResent p.1 (tries n).1
      if (tries n).2 then (s1, true) else (s1.pkgWrite p.1 p.2, q.2)) (s, false)

/-- Package memory takes a STORE's bytes and acknowledges them: with poison it never completes, and class 0x04 is raised (R397, R398). -/
def State.storeAck (s : State) (site d : Nat) (x : Xfer) (poison : Bool) (crcs : List (Nat × List (BitVec 16))) : State :=
  let mem := bits x.desc 64 48 + x.idx * bits x.desc 128 32
  let w := s.pkgStore mem x.data crcs
  let bad := poison || w.2 || s.pkgWriteBad mem (armBytes x.desc)
  let upd (y : Xfer) : Option Xfer := if bad then (if y.dead then none else some { y with bad := true }) else some { y with acked := true }
  let s1 := w.1.modCtx site d fun c => { c with xfers := updFirst (fun y => y.id == x.id) upd c.xfers }
  if bad then
    s1.raise { s1.charge (s1.perr 0x04 (some site) (.vport (Fin.ofNat 8 (s1.portOf mem))) (s1.unitAddr site 7)) site x.slot x.blk with
      reason := if s.memSize < mem + armBytes x.desc then 0x0309 else 0, detail := mem }
  else s1

/-- A transfer has all it waits for but its place in the order of its arm. -/
def State.xferDone (s : State) (site d : Nat) (x : Xfer) : Bool :=
  !x.bad && !x.waits && (match armKind x.desc with
    | 0 => !x.dead && decide (armLines x.desc ≤ x.lines)
    | 1 => x.acked
    | _ => !s.onWay site d x)

/-- The transfer of a context that completes next (R200): a cancelled one that is done, else the first of its arm. -/
def State.nextDone (s : State) (site d : Nat) : Option Xfer :=
  let l := (s.ctx site d).xfers
  match l.find? fun x => x.dead && s.xferDone site d x with
  | some x => some x
  | none => (l.find? fun x => !x.dead).filter fun x => s.xferDone site d x

/-- A transfer completes (R200): its landing slot, its signal, the end of its arm. A cancelled one only drains its slot (R206). -/
def State.completeXfer (s : State) (site d : Nat) (x : Xfer) : State :=
  let r := x.desc
  let s1 := s.modCtx site d fun c => { c with xfers := updFirst (fun y => y.id == x.id) (fun _ => none) c.xfers }
  let s2 := if armLand r then
      (if armKind r = 0 then s1.landFill site (armSlot r x.idx) else s1.setLand site (armSlot r x.idx) ldEmpty) else s1
  if x.dead then s2 else ((s2.xferSignal site x).armEnd site d).showCtx site d

/-- The STORE whose acknowledgement from this tile's package memory comes next. -/
def State.nextAck (s : State) (site d : Nat) : Option Xfer :=
  (s.ctx site d).xfers.find? fun x => armKind x.desc == 1 && !x.bad && !x.waits && !x.acked

/-- STREAM_TRANSFER_COMPLETE: a LOAD has all its lines, a STORE is acknowledged, a REMOTE's trailing signal has arrived; one whose data is
written before an earlier transfer's waits for that one. -/
def execStreamTransferComplete (site : Site) (e : XferEnd) (s : State) : Host.Outcome State Fault Refusal :=
  let d := e.ctx
  let done (s : State) : State :=
    match s.nextDone site d with
    | some x => s.completeXfer site d x
    | none => s
  .next (if s.alive && s.live site then
      let s1 := s.xlineRun site
      match s1.nextDone site d, s1.nextAck site d with
      | none, some x => done (s1.storeAck site d x false e.crcs)
      | _, _ => done s1
    else s)

/-- A task slot with a wait on the object is met and is served before the markers (R225). -/
def State.slotFirst (s : State) (site ref : Nat) : Bool :=
  (List.range 4).any fun n =>
    match (s.slot site n).wait with
    | some (.object r _ _, _) => sameObj r == sameObj ref && s.waitHolds site n
    | _ => false

/-- The head marker of a context's active arm is met: its object, as the fetch engine sees it, has reached the threshold (R204). -/
def State.markerMet (s : State) (site d : Nat) : Option (Arm × Marker × List Marker) :=
  (s.ctx site d).act.bind fun a =>
    match a.marks with
    | m :: t => if m.thr ≤ s.refValue site m.ref then some (a, m, t) else none
    | [] => none

/-- DEP_MARKER_MET (R204, R225): markers are evaluated after the task slots, in context order. -/
def execDepMarkerMet (site : Site) (d : CtxId) (s : State) : Host.Outcome State Fault Refusal :=
  .next (if s.alive && s.live site && !s.testing site 9 && !(s.ctx site d).stop then
      match s.markerMet site d with
      | some (a, m, t) =>
        if s.slotFirst site m.ref then s
        else
          let a1 := { a with marks := t, limit := min 0xFFFFFF (a.limit + m.step), waited := 0 }
          (s.modCtx site d fun c => { c with act := some a1 }).showCtx site d
      | none => s
    else s)

/-! ## Fill and copy (R212, R213) -/

/-- The slice ranges that a block of a fill or copy touches: source, and places written with their bytes' source order. -/
def copyPlaces (k : OpKind) (d i : Nat) : List Nat :=
  let dst := bits d 23 23 + i * bits d 151 23
  (List.range (bits d 64 23)).map fun b =>
    dst + (if k = .xcopy then
        dealPlace true (bits d 194 1 == 1) (ewBytes (bits d 192 2)) (bits d 195 8) (bits d 203 8) (bits d 64 23) (bits d 224 16)
          (bits d 240 23) b
      else b)

/-- One block of a fill or copy. -/
def State.copyBlock (s : State) (site : Nat) (o : Op) (i : Nat) (who : Who) : State :=
  let d := o.desc
  let n := bits d 64 23
  let src := bits d 0 23 + i * bits d 128 23
  let s1 := if o.kind = .fill then s else (s.touchRead site src n who).1
  let data := if o.kind = .fill then (List.range n).map fun b => BitVec.ofNat 8 (o.arg / 2 ^ (8 * (b % 8))) else s1.sliceGet site src n
  let ps := copyPlaces o.kind d i
  (spans (ps.zip data)).foldl (fun s run => s.sliceWrite site run.1 run.2 who) (if (s1.cl site).ecc = [] then s1 else s1.makeGood site ps)

/-- A bank that the operation needs is WAKING. -/
def State.copyWaits (s : State) (site : Nat) (o : Op) : Bool :=
  let d := o.desc
  (List.range (bits d 96 16)).any fun i =>
    (o.kind != .fill && s.waking site (bits d 0 23 + i * bits d 128 23) (bits d 64 23))
      || (copyPlaces o.kind d i).any fun p => s.waking site p 1

/-- FILL_COPY_COMPLETE: the operation at the head of the fetch engine's queue, or the copy that the transposer serves, is done and
signals. -/
def execFillCopyComplete (site : Site) (transposer : Bool) (s : State) : Host.Outcome State Fault Refusal :=
  let u := if transposer then 8 else 7
  .next (if s.alive && s.live site && !s.testing site u then
      match (if transposer then (s.cl site).xcopies else (s.cl site).fills) with
      | [] => s
      | o :: _ =>
        if s.copyWaits site o || (transposer && (s.cl site).xline.head? != some (64, o.id)) then s.xlineRun site
        else
          (s.parityAt site u o.slot o.blk).getD <|
          let who : Who := ⟨u, o.slot, o.blk⟩
          let s1 := (List.range (bits o.desc 96 16)).foldl (fun s i => s.copyBlock site o i who) s
          let s2 := s1.opSignal site o.slot o.blk (bits o.desc 288 16) (bits o.desc 304 16) u
          let s3 := s2.modCl site fun c =>
            if transposer then { c with xcopies := c.xcopies.drop 1 } else { c with fills := c.fills.drop 1 }
          ((if transposer then s3.xlineLeave site 64 o.id else s3).showQueues site).settle site o.slot
    else s)

/-! ## Remote arrivals (R194, R195) -/

/-- The last-piece bit of a LAND message. -/
def msgLast (m : GMsg) : Bool := bits m.aux.toNat 32 1 == 1
/-- A class 0x08 error of the landing controller. -/
def State.landErr (s : State) (site reason slot : Nat) : State := s.raiseAt 0x08 site 10 0 0 reason (reason + slot * 2 ^ 16)

/-! ## Where messages wait (R194, R388) -/

/-- Where a message waits: in an edge's ingress queue, at a cluster that it reached over the mesh, or delivered to an agent of the tile; or
nowhere: a link outside the model brings it. -/
inductive Way where
  | edge (e : Nat)
  | mesh (path : Nat)
  | agent
  | outside
deriving DecidableEq, Repr

/-- The number of a way, as a hold keeps it (R194). -/
def Way.num : Way → Nat
  | .edge e => e
  | .mesh p => p
  | _ => 4

/-- The first message of a channel on a way; messages to agents of this tile go in order of channel, type and destination. -/
def State.wayHead (s : State) (w : Way) (m : GMsg) : Option GMsg :=
  match w with
  | .edge e => (s.edge e).ingress.find? fun x => x.vch == m.vch
  | .mesh p => (s.tile.arrived.find? fun x => x.path == p && x.msg.vch == m.vch).map fun x => x.msg
  | .agent => s.inbox.find? fun x => x.vch == m.vch && x.ty == m.ty && x.dst == m.dst
  | .outside => none

/-- The ways of the tile on which messages wait. -/
def State.ways (s : State) : List Way :=
  (List.range 4).map .edge ++ ((s.tile.arrived.map fun x => x.path).eraseDups).map .mesh ++ [.agent]

/-- The message waits somewhere in the tile. -/
def State.waits (s : State) (m : GMsg) : Bool :=
  (List.range 4).any (fun e => (s.edge e).ingress.contains m) || s.tile.arrived.any (fun x => x.msg == m) || s.inbox.contains m

/-- The way on which a message is the first of its channel; none where it waits behind others. -/
def State.origin (s : State) (m : GMsg) : Option Way :=
  match s.ways.find? fun w => s.wayHead w m == some m with
  | some w => some w
  | none => if s.waits m then none else some .outside

/-- The message is the first of its channel where it waits. -/
def State.firstOfChannel (s : State) (m : GMsg) : Bool := (s.origin m).isSome

/-- Units of a message (R385). -/
def msgUnits (m : GMsg) : Nat := 1 + (m.data.length + 15) / 16

/-- Units of an edge's ingress burst queue that the lines of a group's channel take which a node holds (R256). -/
def State.lineUnits (s : State) (e g : Nat) : Nat :=
  let own := s.tile.buckets.filter fun (p : Nat × Bucket) => p.1 / 4096 == g
  let ls := own.flatMap fun (p : Nat × Bucket) => p.2.lines.flatMap fun q => q.2
  ((ls.filter fun l => l.inp == e).map fun l => l.units).foldl (· + ·) 0

/-- Units of a channel that an edge's ingress burst queue holds (R256, R388). -/
def State.unitsHeld (s : State) (e v : Nat) : Nat :=
  (((s.edge e).ingress.filter fun m => m.vch.val == v).map msgUnits).foldl (· + ·) 0 + s.lineUnits e v

/-- `LINK_VCQ.USED` of an edge. -/
def State.showVcq (s : State) (e : Nat) : State :=
  if e < 4 then (List.range 16).foldl (fun s v => s.setFld (Reg.LINK_VCQ_USED e v) (s.unitsHeld e v)) s else s

def State.showVcqs (s : State) : State := (List.range 4).foldl (fun s e => s.showVcq e) s

/-- Drop the first arrival that is a message of a way. -/
def dropArrived (p : Nat) (m : GMsg) : List NMsg → List NMsg
  | [] => []
  | x :: t => if x.path = p ∧ x.msg = m then t else x :: dropArrived p m t

/-- A message leaves an edge's ingress burst queue: its units are owed to the partner (R388). -/
def State.drain (s : State) (e : Nat) (m : GMsg) : State :=
  (s.modEdge e fun x => { x with
    ingress := x.ingress.erase m
    owed := if x.ingress.contains m ∧ m.ty ≠ 9 then Store.upd 0 x.owed m.vch.val (· + msgUnits m) else x.owed }).showVcq e

/-- Take a message from where it waits. -/
def State.takeMsg (s : State) (m : GMsg) : State :=
  match s.origin m with
  | some (.edge e) => s.drain e m
  | some (.mesh p) => { s with tile := { s.tile with arrived := dropArrived p m s.tile.arrived } }
  | some .agent => { s with inbox := s.inbox.erase m }
  | _ => s

/-! ## Remote arrivals (R194, R195) -/

/-- The signal of a transfer, where it still is on the mesh or waits at its cluster, goes (R200, R206). -/
def State.hush (s : State) (x : Nat × Nat × Nat) : State :=
  let keep (l : List NMsg) : List NMsg := l.filter fun m => m.msg.ty != 6 || m.xfer != some x
  { s with tile := { s.tile with net := s.tile.net.map fun (p : Nat × List NMsg) => (p.1, keep p.2), arrived := keep s.tile.arrived } }

/-- The transfer that a message on a way belongs to, where a cluster of this tile sent it. -/
def State.senderOf (s : State) (w : Way) (m : GMsg) : Option (Nat × Nat × Nat) :=
  match w with
  | .mesh p => (s.tile.arrived.find? fun x => x.path == p && x.msg == m).bind fun x => x.xfer
  | _ => none

/-- What follows a way's latest message is not muted. -/
def State.unmute (s : State) (w : Way) (m : GMsg) : State :=
  { s with tile := { s.tile with mute := s.tile.mute.filter fun p => p.1 != w.num || p.2 % 16 != m.vch.val } }

/-- The transfer of a piece is discarded: its signal is not applied, which stands for the report to its sender (R200, log entry 28). A transfer
of this tile is known by its sender; of one that came over an edge it is the message right behind it on its channel. -/
def State.mute (s : State) (w : Way) (m : GMsg) : State :=
  match s.senderOf w m with
  | some x => s.hush x
  | none =>
    let s1 := s.unmute w m
    { s1 with tile := { s1.tile with mute := s1.tile.mute ++ [(w.num, m.vch.val + 16 * msgSite m)] } }

/-- The message is the signal that follows a discarded transfer: from a fetch engine, to the cluster of the transfer or to agent 0x001. -/
def State.muted (s : State) (w : Way) (m : GMsg) : Bool :=
  let src := leNat (m.data.take 4)
  src % 16 == 7 && bits src 25 1 == 0 && s.tile.mute.any fun p => p.1 == w.num && p.2 % 16 == m.vch.val
    && (bits m.dst.toNat 25 1 == 1 || p.2 / 16 == msgSite m)

/-- A unit with a lower number than an arrival's waits to write the slot, and binds it first (R188). -/
def State.writerFirst (s : State) (site l : Nat) : Bool :=
  s.engineFirst site l 10 true
    || (List.range 64).any fun d => ((s.ready site d).map fun a => armKind a.desc == 0 && armLand a.desc && armSlot a.desc a.next == l).getD false

/-- Land a piece at a live site, or wait; a landing controller whose test is pending binds no slot (R337). -/
def State.landPiece (s : State) (m : GMsg) (w : Way) : Option State :=
  let t := msgSite m
  let l := msgSlot m
  let size := s.landBytes t
  let off := msgOff m
  if s.fld (Reg.LAND_NSLOT_NSLOT t) ≤ l then
    some (if off = 0 then (s.mute w m).landErr t 0x0602 l else s)
  else if off = 0 ∧ (!s.landFree t l || s.writerFirst t l || s.testing t 10) then none
  else if s.waking t (s.landAddr t l + off) (min m.data.length (size - off)) then none
  else if off ≠ 0 ∧ !(s.land t l == ldFilling && s.fld (Reg.LAND_STATE_WRITER t l) == 10) then some s
  else
    let s1 := if off = 0 then (s.unmute w m).landBind t l 10 else s
    let s2 := s1.sliceWrite t (s.landAddr t l + off) (m.data.take (size - off)) ⟨10, 0, 0⟩
    if msgLast m then
      let s3 := s2.landFill t l
      some (if size < off + m.data.length then s3.landErr t 0x0603 l else s3)
    else some s2

/-- An arrival whose turn has come. -/
def State.landTurn (s : State) (m : GMsg) (w : Way) : Option State :=
  if !s.live (msgSite m) then some (s.logEvent 0x21 0 (s.agentAddr 0) m.dst.toNat) else s.landPiece m w

/-- The hold of the first arrival of a way and channel ends. -/
def State.unhold (s : State) (w : Way) (m : GMsg) : State :=
  { s with tile := { s.tile with held := s.tile.held.filter fun h => h.path != w.num || h.vch != m.vch.val } }

/-- The first arrival of a way and channel waits; a hold of it that stands goes on counting. -/
def State.hold (s : State) (w : Way) (m : GMsg) : State :=
  if s.tile.held.any fun h => h.path == w.num && h.vch == m.vch.val then s
  else { s with tile := { s.tile with held := s.tile.held ++ [{ path := w.num, vch := m.vch.val }] } }

/-- A message that a link outside the model brings joins those that wait there; one behind which nothing waits is at their head. -/
def State.bring (s : State) (m : GMsg) : State :=
  if s.waits m then s else s.netLand 4 { msg := m }

/-- REMOTE_ARRIVAL: a LAND message to unit 10 of a site of this tile lands, waits where it is, or is discarded; one that waits is
offered again by the same command. -/
def execRemoteArrival (m : GMsg) (s : State) : Host.Outcome State Fault Refusal :=
  .next (if !s.fw || m.ty != 5 || bits m.dst.toNat 0 4 != 10 || bits m.dst.toNat 25 1 != 0 || !s.toMe m.dst.toNat then s
    else
      let s1 := s.bring m
      match s1.origin m with
      | none => s1
      | some w =>
        match (if s.live (msgSite m) then s1.parityAt (msgSite m) 10 0 0 else none), s1.landTurn m w with
        | none, some s2 => ((s2.takeMsg m).unhold w m).showPending (msgSite m)
        | bad, _ => ((bad.getD s1).hold w m).showPending (msgSite m))

/-- The messages that a discard leaves of a way: the pieces of the first transfer of the channel go, up to its last. -/
def dropPieces (q : GMsg → Bool) : List GMsg → List GMsg
  | [] => []
  | x :: t => if q x then (if msgLast x then t else dropPieces q t) else x :: dropPieces q t

def dropPiecesN (q : NMsg → Bool) : List NMsg → List NMsg
  | [] => []
  | x :: t => if q x then (if msgLast x.msg then t else dropPiecesN q t) else x :: dropPiecesN q t

/-- Discard the transfer at the head of a way's channel. -/
def State.dropTransfer (s : State) (w : Way) (m : GMsg) : State :=
  let q (x : GMsg) : Bool := x.ty == 5 && x.vch == m.vch && x.dst == m.dst && msgSlot x == msgSlot m
  match w with
  | .edge e =>
    let keep := dropPieces q (s.edge e).ingress
    let gone := ((s.edge e).ingress.map msgUnits).foldl (· + ·) 0 - (keep.map msgUnits).foldl (· + ·) 0
    (s.modEdge e fun x => { x with ingress := keep, owed := Store.upd 0 x.owed m.vch.val (· + gone) }).showVcq e
  | .mesh p => { s with tile := { s.tile with arrived := dropPiecesN (fun x => x.path == p && q x.msg) s.tile.arrived } }
  | _ => s

/-- REMOTE_HELD_TMO: the first arrival that has waited SYNC_TMO beats at an edge, or on the mesh, is discarded. -/
def execRemoteHeldTmo (e : Edge) (s : State) : Host.Outcome State Fault Refusal :=
  let way (h : Hold) : Way := if h.path < 4 then .edge h.path else .mesh h.path
  let head (h : Hold) : Option GMsg :=
    s.wayHead (way h) { vch := Fin.ofNat 16 h.vch, ty := 5, dst := 0, aux := 0, data := [] }
  let late (h : Hold) : Option (Way × GMsg) :=
    (head h).bind fun m =>
      if (h.path = e.val ∨ 4 ≤ h.path) ∧ s.fld (Reg.SYNC_TMO_BEATS (msgSite m)) ≤ h.marks then some (way h, m) else none
  .next (match (if s.fw then s.tile.held.findSome? late else none) with
    | some (w, m) => ((((s.mute w m).dropTransfer w m).unhold w m).landErr (msgSite m) 0x0606 (msgSlot m)).showPending (msgSite m)
    | none => s)

/-! ## Mesh transfers (R59 to R62, R193, R195) -/

/-- The hops of a transfer that leaves a site in a direction in slot j. -/
def State.hops (s : State) (site d j : Nat) : Nat → Nat
  | 0 => 0
  | n + 1 =>
    let e := s.schedEntry site d j
    if e % 4 = 2 then
      match s.neighbour site d with
      | some t => 1 + s.hops t (bits e 2 2) j n
      | none => 1
    else 1

/-- Send bytes over one link: they are on their way to the receiver. -/
def State.hopTo (s : State) (site t d j : Nat) (data : List Byte) (src : Nat × Nat × Nat) : State :=
  let e := s.schedEntry site d j
  (s.modCl t fun c => { c with hops := c.hops ++ [{ dir := d, j := j, land := bits e 4 10, bytes := data, src := src
                                                    pass := if e % 4 = 2 then some (bits e 2 2) else none }] }).showPending t

/-- Change the first send that a test names; drop it where the change gives none. -/
def updSend (p : SendRec → Bool) (f : SendRec → Option SendRec) : List SendRec → List SendRec
  | [] => []
  | x :: t => if p x then (f x).toList ++ t else x :: updSend p f t

/-- The copies that a cluster keeps of its neighbours' landing states are refreshed (R193, log entry 65). -/
def State.refreshCopies (s : State) (site : Nat) : State :=
  let full (d : Nat) : List Nat :=
    match s.neighbour site d with
    | some t => (List.range (s.fld (Reg.LAND_NSLOT_NSLOT t))).filter fun l => !s.landFree t l
    | none => []
  s.modCl site fun c => { c with copies := (List.range 4).foldl (fun m d => Store.putD [] m d (full d)) c.copies }

/-- The units that a link slot carries: 254 FCLK cycles of 128 B (R59, R62, log entry 66). -/
abbrev slotUnits : Nat := 2032

/-- The messages of a queue that cross in one slot: in order, each one whole, and none that came in the same slot (R63). -/
def crossing (now : Nat × Nat) : Nat → List NMsg → List NMsg
  | _, [] => []
  | room, m :: t =>
    if msgUnits m.msg ≤ room ∧ (m.hop.1 < now.1 ∨ (m.hop.1 = now.1 ∧ m.hop.2 < now.2)) then m :: crossing now (room - msgUnits m.msg) t else []

/-- A ROUTED entry (R60, R63): messages of its channel cross; an arrival that waits for its landing slot holds them (R194). -/
def State.slotRouted (s : State) (site d j v : Nat) : State :=
  let k := (site * 4 + d) * 16 + v
  if s.tile.held.any fun h => h.path == 512 + 4 * site + d && h.vch == v then s
  else
    let q := Store.get [] s.tile.net k
    let now := (s.rd64 Reg.BEAT_COUNT, j)
    let go := crossing now slotUnits q
    let s1 := { s with tile := { s.tile with net := Store.putD [] s.tile.net k (q.drop go.length) } }
    go.foldl (fun s m => s.netHop site d now m) s1

/-- A NEIGHBOUR or PASS entry: the committed send that is due goes out, or is held; one whose bytes lie in a bank that wakes waits. -/
def State.slotSend (s : State) (site d j : Nat) : State :=
  let due (r : SendRec) : Bool := r.dir == d && r.j == j && decide (r.since < s.rd64 Reg.BEAT_COUNT)
  let e := s.schedEntry site d j
  match (s.cl site).sends.find? due with
  | none => s
  | some r =>
    let free := e % 4 = 1 ∨ e % 4 = 2
    if s.waking site r.src r.len then s
    else
      match (s.neighbour site d).filter fun _ => decide free && !(Store.get [] (s.cl site).copies d).contains (bits e 4 10) with
      | none =>
        let s1 := s.modCl site fun c => { c with sends := updSend due (fun x => some { x with held := x.held + 1 }) c.sends }
        s1.count (Reg.LAND_SEND_HELD_COUNT site) 1
      | some t =>
        let s0 := s.modCl site fun c => { c with sends := updSend due (fun _ => none) c.sends }
        let p := s0.touchRead site r.src r.len ⟨10, r.slot, 0⟩
        let room := (252 - 6 * s.hops site d j 41) * 128
        let s1 := if room < r.len then p.1.raiseAt 0x08 site 10 r.slot 0 0 (bits e 4 10 * 2 ^ 16) else p.1
        if p.2 then s1.hopTo site t d j (s1.sliceGet site r.src (min r.len room)) (site, r.slot, r.blk) else s1

/-- What one direction of a link slot carries (R60): the entry is read, and nothing crosses while it lies in a bank that wakes
(R216). -/
def State.slotCarry (s : State) (site d j : Nat) : State :=
  let e := s.schedEntry site d j
  if s.waking site (s.schedAddr site d j) 8 then s
  else
    let s1 := (s.touchRead site (s.schedAddr site d j) 8 { unit := 10 }).1
    if e % 4 = 3 then
      let s2 := s1.slotRouted site d j (bits e 14 4)
      match s.neighbour site d with
      | some t => s2.showPending t
      | none => s2
    else s1.slotSend site d j

/-- Marks fire, and a beat is in progress. -/
def State.inBeat (s : State) : Bool :=
  s.alive && s.beat.started && decide (tsRunning ≤ s.ts) && decide (s.ts ≤ tsRecovering) && !s.beat.lost

/-- LINK_SLOT_START: link slots of a beat start in order, each once; the end of the slot before one refreshes the copies of R193. -/
def execLinkSlotStart (site : Site) (j : Fin 128) (s : State) : Host.Outcome State Fault Refusal :=
  let at_ := (s.cl site).slotAt
  .next (if s.inBeat && s.live site && decide (j.val < 2 ^ (s.fld Reg.BEAT_CFG_K - 9))
        && (at_.1 != s.beatLow || decide (at_.2 ≤ j.val)) then
      let s0 := if j.val = 0 then s else s.refreshCopies site
      let s1 := s0.modCl site fun c => { c with slotAt := (s.beatLow, j.val + 1) }
      (List.range 4).foldl (fun s d => s.slotCarry site d j) s1
    else s)

/-- NEIGHBOUR_ARRIVAL: the signal behind a transfer that came in direction `d` arrives: a PASS is forwarded, and the data lands
(R189, R193, R195). It asks again while a unit with a lower number waits to write the slot (R188). -/
def execNeighbourArrival (site : Site) (d : Edge) (s : State) : Host.Outcome State Fault Refusal :=
  .next (match (if s.alive && s.live site then (s.cl site).hops.find? fun h => h.dir == d.val else none) with
    | none => s
    | some h =>
      let size := s.landBytes site
      let data := h.bytes.take size
      if s.waking site (s.landAddr site h.land) data.length || (s.landFree site h.land && s.writerFirst site h.land) || s.testing site 10 then s
      else
        (s.parityAt site 10 0 0).getD <|
        let s0 := (s.modCl site fun c => { c with hops := c.hops.erase h }).showPending site
        let s1 := match h.pass.bind fun p => (s.neighbour site p).map fun t => (p, t) with
          | some (p, t) => if s0.schedEntry site p h.j % 4 = 1 ∨ s0.schedEntry site p h.j % 4 = 2 then s0.hopTo site t p h.j h.bytes h.src else s0
          | none => s0
        if s.fld (Reg.LAND_NSLOT_NSLOT site) ≤ h.land then s1.landErr site 0x0602 h.land
        else if !s.landFree site h.land then s1.landErr site 0x0604 h.land
        else
          let s2 := (s1.landBind site h.land 10).sliceWrite site (s.landAddr site h.land) data ⟨10, 0, 0⟩
          let s3 := s2.landFill site h.land
          if size < h.bytes.length then s3.landErr site 0x0603 h.land else s3)

/-- SEND_HELD_TMO (R193). -/
def execSendHeldTmo (site : Site) (d : Edge) (s : State) : Host.Outcome State Fault Refusal :=
  let late (r : SendRec) : Bool := r.dir == d.val && !r.timed && decide (s.fld (Reg.SYNC_TMO_BEATS site) ≤ r.held)
  .next (match (if s.alive && s.live site then (s.cl site).sends.find? late else none) with
    | some r =>
      let s1 := s.modCl site fun c => { c with sends := updSend late (fun x => some { x with timed := true }) c.sends }
      s1.raiseAt 0x08 site 10 r.slot 0 0x0605 (0x0605 + bits (s.schedEntry site d r.j) 4 10 * 2 ^ 16)
    | none => s)

/-! ## Landing clear and bank power (R214 to R216, R218) -/

/-- `LAND_CTL.CLEAR`. -/
def State.landClear (s : State) (site : Nat) : State :=
  s.mapRegs (fun o => decide (Reg.LAND_STATE site 0 ≤ o) && decide (o < Reg.LAND_STATE site 0 + 4096)) fun w => w &&& ~~~7#32

/-- The banks that a request word names and the site has. -/
def State.bankSet (_ : State) (site v : Nat) : List Nat := (List.range (bankCount site)).filter v.testBit

/-- `BANK_OFF_REQ` (R215). -/
def State.bankOffReq (s : State) (site v : Nat) : State :=
  (s.bankSet site v).foldl (fun s b =>
    if s.fld (Reg.BANK_STATE_POWER site b) = 0 then
      (s.setFld (Reg.BANK_STATE_POWER site b) 1).setFld (Reg.BANK_STATE_WAITED site b) 0
    else s) s

/-- Record the outcome of a power-down request. -/
def State.bankLast (s : State) (site b result reason : Nat) : State :=
  s.wr (Reg.BANK_PWR_LAST site) (BitVec.ofNat 32 (b + result * 2 ^ 5 + reason * 2 ^ 16))

/-- A bank in DRAIN_WAIT leaves it. -/
def State.bankTo (s : State) (site b power : Nat) : State :=
  (s.setFld (Reg.BANK_STATE_POWER site b) power).setFld (Reg.BANK_STATE_WAITED site b) 0

/-- `BANK_ON_REQ` (R215, R216). -/
def State.bankOnReq (s : State) (site v : Nat) : State :=
  (s.bankSet site v).foldl (fun s b =>
    if s.fld (Reg.BANK_STATE_POWER site b) = 1 then (s.bankTo site b 0).bankLast site b 3 0
    else if s.fld (Reg.BANK_STATE_POWER site b) = 2 then s.bankTo site b 3
    else s) s

/-- The bank is one of the site's. -/
def bankIn (site b : Nat) : Bool := b < bankCount site

/-- BANK_POWER_DOWN (R215). -/
def execBankPowerDown (site : Site) (b : BankId) (s : State) : Host.Outcome State Fault Refusal :=
  .next (if s.alive && s.live site && bankIn site b && s.fld (Reg.BANK_STATE_POWER site b) == 1
        && s.fld (Reg.BANK_STATE_PENDING site b) == 0 then
      (s.bankTo site b 2).bankLast site b 1 0
    else s)

/-- BANK_PD_REFUSED (R215). -/
def execBankPdRefused (site : Site) (b : BankId) (s : State) : Host.Outcome State Fault Refusal :=
  .next (if s.alive && s.live site && bankIn site b && s.fld (Reg.BANK_STATE_POWER site b) == 1
        && s.fld (Reg.BANK_STATE_PENDING site b) != 0 && decide (64 ≤ s.fld (Reg.BANK_STATE_WAITED site b)) then
      (s.bankTo site b 0).bankLast site b 2 0x0607
    else s)

/-- A bank is ON again (R216): every word of it is zero with valid check bits; what waited for it goes on. -/
def State.bankWake (s : State) (site b : Nat) : State :=
  let s1 := (s.bankTo site b 0).modCl site fun c => { c with
    slice := c.slice.filter fun p => bankOf site p.1 != b
    ecc := c.ecc.filter fun p => bankOf site (8 * p.1) != b }
  let s2 := (List.range 4).foldl (fun s n => if (s.slot site n).toCopy then s.copyEntry site n (s.slot site n).next else s) s1
  s2.xlineRun site

/-- BANK_WAKE_DONE (R216). -/
def execBankWakeDone (site : Site) (b : BankId) (s : State) : Host.Outcome State Fault Refusal :=
  .next (if s.alive && s.live site && bankIn site b && s.fld (Reg.BANK_STATE_POWER site b) == 3 then
      s.bankWake site b
    else s)

/-! ## WAIT_TMO (R226, R227) -/

/-- Marks after which a wait times out. -/
def State.tmo (s : State) (site : Nat) : Nat := s.fld (Reg.SYNC_TMO_BEATS site)

/-- A task slot's wait has timed out. -/
def State.slotTmo (s : State) (site n : Nat) : State :=
  let b := (s.slot site n).blk
  match (s.slot site n).wait with
  | some (w, k) =>
    if k < s.tmo site then s
    else
      let s1 := (s.setSlotState site n slFault).modSlot site n fun x => { x with wait := none }
      let s2 := match w with
        | .object ref thr _ => s1.waitTmo site (coreUnit site n) n b.id ref (s.seen site n ref).toNat thr 0 false
        | .cancel d => s1.waitTmo site 7 n b.id 0 0 0 d false
      s2.settle site n
  | none => s

/-- A stream context's wait has timed out: on its head marker, or on a landing slot. -/
def State.ctxTmo (s : State) (site d : Nat) : State :=
  let c := s.ctx site d
  match c.act with
  | none => s
  | some a =>
    let stopped := s.modCtx site d fun c => { c with stop := true, stall := none }
    if c.stop then s
    else
      match a.marks, c.stall with
      | m :: _, none =>
        if a.waited < s.tmo site then s else stopped.waitTmo site 7 a.slot a.blk m.ref (s.refValue site m.ref) m.thr d false
      | [], some (l, k) => if k < s.tmo site then s else stopped.waitTmo site 7 a.slot a.blk l 0 0 d true
      | m :: _, some (l, k) =>
        if s.tmo site ≤ a.waited then stopped.waitTmo site 7 a.slot a.blk m.ref (s.refValue site m.ref) m.thr d false
        else if s.tmo site ≤ k then stopped.waitTmo site 7 a.slot a.blk l 0 0 d true
        else s
      | [], none => s

/-- An array feed has waited on a landing slot: its operation ends. -/
def State.arrTmo (s : State) (site a : Nat) : State :=
  let x := s.arr site a
  match x.stall, x.cur with
  | some (l, k), some r =>
    if k < s.tmo site then s
    else
      let s1 := r.op.arrays.foldl (fun s b => s.modArr site b fun y =>
        { y with cur := if (y.cur.map fun q => q.op.id == r.op.id).getD false then none else y.cur, stall := none }) s
      (s1.waitTmo site (1 + a) r.op.slot r.op.blk l 0 0 0 true).settle site r.op.slot
  | _, _ => s

/-- A vector engine has waited on a landing slot: its operation ends. -/
def State.engTmo (s : State) (site e : Nat) : State :=
  let x := s.eng site e
  match x.stall, x.cur with
  | some (l, k), some r =>
    if k < s.tmo site then s
    else
      let s1 := s.modEng site e fun y => { y with cur := none, stall := none }
      (s1.waitTmo site (5 + e) r.op.slot r.op.blk l 0 0 0 true).settle site r.op.slot
  | _, _ => s

/-- WAIT_TMO: a wait has counted SYNC_TMO marks. -/
def execWaitTmo (site : Site) (w : Waiter) (s : State) : Host.Outcome State Fault Refusal :=
  .next (if s.alive && s.live site then
      match w with
      | .slot n => s.slotTmo site n
      | .ctx d => s.ctxTmo site d
      | .array a => s.arrTmo site a
      | .engine e => s.engTmo site e
    else s)

end Sys2Proof.Machine
end

