-- ==== Sys2Proof/Machine/Barriers.lean ====
section
/-! DEFINITION. Remote signals (R221, R228), barrier nodes, arrivals and releases (R229 to R235), the realignment of counts (R237)
and the snapshot of a step (R346). -/

namespace Sys2Proof.Machine

/-! ## Remote signals -/

/-- The beat number nearest to the own one whose low 24 bits a SIGNAL carries (R238, R386, log entry 81). -/
def nearBeat (own b : Nat) : Nat :=
  let d := (b + 2 ^ 24 - own % 2 ^ 24) % 2 ^ 24
  (own + d + (if d < 2 ^ 23 then 0 else 2 ^ 32 - 2 ^ 24)) % 2 ^ 32

/-- A signal that has arrived is applied at its object, or discarded (R221, R228). -/
def State.applySignal (s : State) (m : GMsg) : State :=
  let dst := m.dst.toNat
  let ref := bits m.aux.toNat 0 16
  let inc := sigInc m
  let beat := nearBeat s.beatLow (bits m.aux.toNat 40 24)
  let src := leNat (m.data.take 4) % 2 ^ 27
  if bits dst 25 1 = 1 then
    (if bits dst 0 10 = 1 ∧ bits ref 14 2 = 1 then s.tobjAdd (ref % 256) inc src beat
    else s.logEvent 0x21 0x0807 (s.agentAddr 1) (dst + ref * 2 ^ 32))
  else if bits dst 0 4 = 9 ∧ s.live (msgSite m) = true ∧ ref % 64 < 48 then s.objAdd (msgSite m) (ref % 64) inc src beat
  else s.logEvent 0x21 0x0807 (s.unitAddr (msgSite m) 9) (dst + ref * 2 ^ 32)

/-- REMOTE_SIGNAL: a SIGNAL message to unit 9 of a site, or to agent 0x001, once it is the first of its channel where it waits; the one
behind a transfer that was discarded is not applied (R200, log entry 28); a sync block whose test is pending takes none (R337). -/
def execRemoteSignal (m : GMsg) (s : State) : Host.Outcome State Fault Refusal :=
  .next (if !s.fw || m.ty != 6 || !s.toMe m.dst.toNat then s
    else
      let s1 := s.bring m
      match s1.origin m with
      | none => s1
      | some w =>
        let s2 := (s1.takeMsg m).unmute w m
        if s1.muted w m then s2
        else if bits m.dst.toNat 25 1 = 0 ∧ s.testing (msgSite m) 9 then s1
        else s2.applySignal m)

/-! ## CONTROL messages (R386, R457; their layout: log entry 21) -/

/-- What a CONTROL message between the tiles' agents 0x001 says. -/
abbrev cmArrive : Nat := 2
abbrev cmDataRelease : Nat := 3
abbrev cmRelease : Nat := 4
abbrev cmRequest : Nat := 5
abbrev cmRepeat : Nat := 6
abbrev cmAbandon : Nat := 7
abbrev cmRestart : Nat := 8
abbrev cmReady : Nat := 9
abbrev cmMismatch : Nat := 10

/-- A CONTROL message of this tile. -/
def State.ctlMsg (s : State) (dst sub bar gen v : Nat) : GMsg :=
  { vch := 0, ty := 7, dst := BitVec.ofNat 32 dst
    aux := BitVec.ofNat 64 (sub + bar % 2 ^ 8 * 2 ^ 8 + gen % 2 ^ 16 * 2 ^ 16 + v % 2 ^ 32 * 2 ^ 32)
    data := leBytes 16 (s.agentAddr 1) }

def cmSub (m : GMsg) : Nat := bits m.aux.toNat 0 8
def cmBar (m : GMsg) : Nat := bits m.aux.toNat 8 8
def cmGen (m : GMsg) : Nat := bits m.aux.toNat 16 16
def cmVal (m : GMsg) : Nat := bits m.aux.toNat 32 32
/-- The sender's tile: its agent address / 1,024. -/
def cmFrom (m : GMsg) : Nat := leNat (m.data.take 4) % 2 ^ 27 / 1024

/-- Messages delivered to this tile and not yet taken. -/
def State.waitingMsgs (s : State) : List GMsg := s.inbox ++ (List.range 4).flatMap fun e => (s.edge e).ingress

/-- A CONTROL message to an agent of this tile (R25): agent 0x001, or for a doorbell any (log entry 21). -/
def State.ctlMine (s : State) (m : GMsg) : Bool :=
  m.ty == 7 && s.toMe m.dst.toNat && bits m.dst.toNat 25 1 == 1 && (bits m.dst.toNat 0 10 == 1 || cmSub m == 1)

/-- The first of the CONTROL messages that a test names in an edge's ingress burst queue; one behind a message of its channel that waits
there for something else is not reached (R194). -/
def ctlScan (mine p : GMsg → Bool) : List GMsg → List (Fin 16) → Option GMsg
  | [], _ => none
  | m :: t, shut =>
    if shut.contains m.vch || !mine m then ctlScan mine p t (m.vch :: shut) else if p m then some m else ctlScan mine p t shut

/-- The CONTROL message that a row names, if one waits. -/
def State.ctlWaits (s : State) (p : GMsg → Bool) : Option GMsg :=
  match s.inbox.find? fun m => s.ctlMine m && p m with
  | some m => some m
  | none => (List.range 4).findSome? fun e => ctlScan s.ctlMine p (s.edge e).ingress []

/-- Take a CONTROL message from where it waits. -/
def State.takeCtlMsg (s : State) (m : GMsg) : State :=
  if s.inbox.contains m then { s with inbox := s.inbox.erase m }
  else
    match (List.range 4).find? fun e => (s.edge e).ingress.contains m with
    | some e => s.drain e m
    | none => s

/-- Take the message that a row names, if one waits. -/
def State.takeCtl (s : State) (p : GMsg → Bool) : State :=
  match s.ctlWaits p with
  | some m => s.takeCtlMsg m
  | none => s

/-- Agent 0x001 of a tile given by its address / 1,024. -/
def agentOf (t : Nat) : Nat := 1 + t * 1024

/-- This tile's agent address / 1,024. -/
def State.me (s : State) : Nat := s.agentAddr 1 / 1024

/-- Tile `t` of this package. -/
def State.mate (s : State) (t : Nat) : Nat := t + s.fld Reg.PKG_ID_PKG * 8 + 2 ^ 15

/-! ## Barriers (R229, R230) -/

def State.barKind (s : State) (b : Nat) : Nat := s.fld (Reg.BAR_CFG_KIND b)
def State.barSpan (s : State) (b : Nat) : Nat := s.fld (Reg.BAR_CFG_SPAN b)

/-- Agent 0x001 of the root's die (R457). -/
def State.barRoot (s : State) (b : Nat) : Nat :=
  if s.barKind b = 0 then agentOf (s.mate (if s.barSpan b = 0 then s.fld Reg.TILE_ID_TILE_NUM else s.fld (Reg.BAR_CFG_ROOT b)))
  else if s.barSpan b = 2 then s.fld Reg.BAR_ROOT_SYS_ROOT
  else s.fld Reg.BAR_ROOT_PKG_MASTER

/-- This tile's die node counts at the root itself. -/
def State.holdsRoot (s : State) (b : Nat) : Bool := s.barRoot b == s.agentAddr 1

/-- Number of set bits. -/
def popcount (n : Nat) : Nat := ((List.range 16).filter n.testBit).length

/-- Node numbers: clusters 0..63, regions 64..71, the die 72, the root 73. -/
abbrev nRegion : Nat := 64
abbrev nDie : Nat := 72
abbrev nRoot : Nat := 73

def State.node (s : State) (b k : Nat) : Node := Store.get {} s.tile.nodes (b * 128 + k)
def State.modNode (s : State) (b k : Nat) (f : Node → Node) : State :=
  { s with tile := { s.tile with nodes := Store.upd {} s.tile.nodes (b * 128 + k) f } }

/-- The clusters of this tile with a marked slot. -/
def State.barSites (s : State) (b : Nat) : List Nat := s.liveSites.filter fun t => s.barMask t b != 0

/-- The tiles of this package that take part. -/
def State.barTiles (s : State) (b : Nat) : List Nat := ((List.range 8).filter (s.fld (Reg.BAR_EXPECT_TILES b)).testBit).map s.mate

/-- What a node counts up to (R230). -/
def State.expected (s : State) (b k : Nat) : Nat :=
  if k < nRegion then popcount (s.barMask k b)
  else if k < nDie then ((s.barSites b).filter fun t => t / 8 == k - nRegion).length
  else if k = nDie then ((List.range 8).filter fun r => (s.barSites b).any fun t => t / 8 == r).length
  else if s.barSpan b = 2 then s.fld (Reg.BAR_EXPECT_EXPECT b)
  else (s.barTiles b).length

/-- `BAR_GEN` and `BAR_CNT`. -/
def State.showBar (s : State) (b : Nat) : State :=
  let sum (f : Node → Nat) : Nat := ((s.barSites b).map fun t => f (s.node b t)).foldl (· + ·) 0
  ((s.setFld (Reg.BAR_GEN_GEN b) (s.node b nDie).gen).setFld (Reg.BAR_CNT_CUR b) (sum fun n => n.inCur.length)).setFld
    (Reg.BAR_CNT_NEXT b) (sum fun n => n.inNext.length)

/-- An arrival on its way to a node of this tile. -/
def State.pushArr (s : State) (a : BArr) : State := { s with tile := { s.tile with arrivals := s.tile.arrivals ++ [a] } }

/-- The tiles that hear what a root says: those of its own package and those it has counted. -/
def State.hearers (s : State) (b : Nat) (more : List Nat) : List Nat := (s.barTiles b ++ more ++ [s.me]).eraseDups

/-- Say the same to several tiles. -/
def State.tell (s : State) (l : List Nat) (sub bar gen v : Nat) : State :=
  l.foldl (fun s t => s.send (s.ctlMsg (agentOf t) sub bar gen v)) s

/-- The root's count is complete: it releases (R229, R234). -/
def State.rootRelease (s : State) (b : Nat) : State :=
  let n := s.node b nRoot
  let s1 := s.modNode b nRoot fun n => { n with sent := true, members := n.inCur }
  if s.barKind b = 0 then s1.tell ((s.barTiles b).filter (· != s.me)) cmDataRelease b n.gen 0
  else s1.tell (s.hearers b n.inCur) cmRelease b n.gen ((s.beatLow + s.fld (Reg.BAR_CFG_LAG b)) % 2 ^ 16)

/-- The step barrier with step repeat and swap available (R344, R345). -/
def State.stepBar (s : State) (b : Nat) : Bool := s.flag Reg.ERR_CFG_STEP_EN && s.fld Reg.ERR_CFG_STEP_BAR == b

/-- Some swap waits for the step boundary. -/
def State.swapPending (s : State) : Bool := s.liveSites.any fun t => s.flag (Reg.CL_RETIRED_SWAP_PENDING t)

/-- The traffic of a slot's blocks up to `blk` has completed (R232): that of cancelled transfers too, which still reach their destination
(R206). -/
def State.trafficDone (s : State) (site n blk : Nat) : Bool :=
  let c := s.cl site
  let out (d : Nat) : Bool := armKind d != 0
  let mine (a : Arm) : Bool := a.slot == n && decide (a.blk ≤ blk) && out a.desc && decide (a.next < armCount a.desc)
  !(c.sends.any fun r => r.slot == n && decide (r.blk ≤ blk))
    && !(s.clusters.any fun (p : Nat × Cluster) => p.2.hops.any fun h => h.src.1 == site && h.src.2.1 == n && decide (h.src.2.2 ≤ blk))
    && c.ctxs.all fun (p : Nat × Ctx) =>
      !(p.2.act.toList ++ p.2.shd.toList).any mine
        && !(p.2.xfers.any fun x => x.slot == n && decide (x.blk ≤ blk) && out x.desc)

/-- The earlier traffic of every slot that a cluster node has counted toward its generation has completed (R232). -/
def State.nodeDone (s : State) (b k : Nat) : Bool :=
  let n := s.node b k
  decide (nRegion ≤ k) || n.blks.all fun x => x.1 != n.gen || s.trafficDone k x.2.1 x.2.2

/-- A node whose count is complete forwards one arrival, or releases; the die node of the step barrier holds it while a swap is
pending (R349). -/
def State.nodeUp (s : State) (b k : Nat) : State :=
  let n := s.node b k
  if n.sent ∨ n.inCur = [] ∨ n.inCur.length < s.expected b k ∨ s.nodeDone b k = false then s
  else if k = nDie ∧ s.stepBar b = true ∧ s.swapPending = true then
    let s1 := { s with tile := { s.tile with swapping := true } }
    if s.ts = tsRunning then (s1.enter tsRecovering).setFld Reg.TILE_STATE_REASON 0 else s1
  else
    let s1 := s.modNode b k fun n => { n with sent := true }
    let up (node who : Nat) : State := s1.pushArr { bar := b, node := node, gen := n.gen, who := who }
    if k < nRegion then up (nRegion + k / 8) k
    else if k < nDie then up nDie (k - nRegion)
    else if k = nDie then
      if s.barKind b = 0 ∧ s.barSpan b = 0 then s1
      else if s.holdsRoot b then up nRoot s.me
      else s1.send (s.ctlMsg (s.barRoot b) cmArrive b n.gen 0)
    else s1.rootRelease b

/-- Show whether a slot waits for a release, and whether an arrival of it is held (R233, R240). -/
def State.showBarSlot (s : State) (site n : Nat) : State :=
  let held := s.tile.nodes.any fun (p : Nat × Node) => p.1 % 128 == site && p.2.ahead.any fun a => a.2 == n
  (s.setFlag (Reg.BAR_SLOT_HELD site n) (!(s.slot site n).holdBar.isEmpty)).setFlag (Reg.BAR_SLOT_OVERRUN site n) held

/-- A slot's arrival two generations ahead is held until the release that lets it count (R233). -/
def State.overrun (s : State) (b site n gen : Nat) : State :=
  let s1 := s.setFlag (Reg.BAR_GEN_OVERRUN b) true
  let s2 := s1.modSlot site n fun x => { x with holdBar := x.holdBar ++ [(b, (gen + 2 ^ 16 - 2) % 2 ^ 16)] }
  (s2.showBarSlot site n).log { cls := 0x23, slot := n, reason := 0x0804, source := s.unitAddr site 9, detail := b + site * 2 ^ 8 }

/-- The participants that a node counts: the root of package span, the tiles in TILES (R230). -/
def State.counts (s : State) (b k who : Nat) : Bool := k != nRoot || s.barSpan b == 2 || (s.barTiles b).contains who

/-- An arrival is counted at a node (R233); one toward a generation already released is dropped. -/
def State.countArrival (s : State) (a : BArr) : State :=
  let b := a.bar
  let k := a.node
  let d := (a.gen + 2 ^ 16 - (s.node b k).gen) % 2 ^ 16
  let note (n : Node) : Node := if k < nRegion then { n with blks := n.blks ++ [(a.gen, a.who, a.blk)] } else n
  let s1 :=
    if s.counts b k a.who = false then s
    else if d = 0 then s.modNode b k fun n => note { n with inCur := n.inCur ++ [a.who] }
    else if d = 1 then s.modNode b k fun n => note { n with inNext := n.inNext ++ [a.who] }
    else if d < 2 ^ 15 then
      let s2 := s.modNode b k fun n => note { n with ahead := n.ahead ++ [(a.gen, a.who)] }
      if k < nRegion then s2.overrun b k a.who a.gen else s2
    else s
  (s1.nodeUp b k).showBar b

/-- A node's number. -/
def BarNode.key : BarNode → Nat
  | .cluster t => t
  | .region r => nRegion + r
  | .die => nDie
  | .root => nRoot

/-- BARRIER_ARRIVAL: an arrival on its way to the node gets there, or, at the root, one that a CONTROL message brought; a cluster node whose
count was complete forwards once its slots' earlier traffic has completed. -/
def execBarrierArrival (b : BarId) (node : BarNode) (gen : BitVec 16) (s : State) : Host.Outcome State Fault Refusal :=
  let k := BarNode.key node
  let mine (a : BArr) : Bool := a.bar == b.val && a.node == k && a.gen == gen.toNat
  let msg (m : GMsg) : Bool := cmSub m == cmArrive && cmBar m == b.val && cmGen m == gen.toNat
  .next (if !s.fw || !s.flag (Reg.BAR_CFG_EN b) then s
    else
      match s.tile.arrivals.find? mine with
      | some a => ({ s with tile := { s.tile with arrivals := s.tile.arrivals.erase a } } : State).countArrival a
      | none =>
        if k = nRoot ∧ s.holdsRoot b = true then
          match s.ctlWaits msg with
          | some m => (s.takeCtlMsg m).countArrival { bar := b, node := k, gen := gen.toNat, who := cmFrom m }
          | none => s
        else if k < nRegion ∧ (s.node b k).gen = gen.toNat then (s.nodeUp b k).showBar b
        else s)

/-! ## Releases (R233, R234) -/

/-- The release of the node's generation reaches it: NEXT becomes CUR, and the held arrivals toward the new NEXT count there. -/
def Node.advance (n : Node) : Node :=
  let gen := (n.gen + 1) % 2 ^ 16
  let due (p : Nat × Nat) : Bool := p.1 == (gen + 1) % 2 ^ 16
  { gen := gen, inCur := n.inNext, inNext := (n.ahead.filter due).map (·.2), ahead := n.ahead.filter fun p => !due p
    blks := n.blks.filter fun x => x.1 != n.gen, members := n.members }

/-- A slot that the release of a generation frees. -/
def State.freeSlot (s : State) (site n b gen : Nat) : State :=
  (s.modSlot site n fun x => { x with holdBar := x.holdBar.filter (· != (b, gen)) }).showBarSlot site n

/-- The release of a generation reaches every node and slot of this tile. -/
def State.releaseNodes (s : State) (b gen : Nat) : State :=
  let keys := s.barSites b ++ (List.range 8).map (nRegion + ·) ++ [nDie, nRoot]
  let due := keys.filter fun k => (s.node b k).gen == gen
  let s1 := due.foldl (fun s k => s.modNode b k Node.advance) s
  let slots := ((s.barSites b).filter due.contains).flatMap fun t => (List.range 4).map fun n => (t, n)
  let s2 := slots.foldl (fun s (p : Nat × Nat) => s.freeSlot p.1 p.2 b gen) s1
  (due.foldl (fun s k => s.nodeUp b k) s2).showBar b

/-- DATA_BARRIER_RELEASE: the die node has completed a barrier of tile span; the package root stands here and has completed; or a CONTROL
message brings the root's release. -/
def execDataBarrierRelease (b : BarId) (gen : BitVec 16) (s : State) : Host.Outcome State Fault Refusal :=
  let g := gen.toNat
  let msg (m : GMsg) : Bool := cmSub m == cmDataRelease && cmBar m == b.val && cmGen m == g
  let at_ (k : Nat) : Bool := (s.node b k).gen == g && (s.node b k).sent
  .next (if s.fw && s.flag (Reg.BAR_CFG_EN b) && s.barKind b == 0 then
      if s.barSpan b = 0 then (if at_ nDie then s.releaseNodes b g else s)
      else if s.holdsRoot b then (if at_ nRoot then s.releaseNodes b g else s)
      else
        match s.ctlWaits msg with
        | some m => (s.takeCtlMsg m).releaseNodes b g
        | none => s
    else s)

/-! ## The realignment check (R237) -/

/-- Check one object of a cluster. What a drift reports does not fit one DETAIL: a second entry carries the tallies (log entry 37). -/
def State.realignObj (s : State) (site o : Nat) : State :=
  let v := s.fld (Reg.SYNC_VAL_VALUE site o)
  let e := s.fld (Reg.SYNC_EXPECT_EXPECT site o)
  let s1 :=
    if v = e then s
    else
      let r := Store.get {} (s.cl site).recs o
      let log (s : State) (d : Nat) : State := s.logEvent 0x23 0x0806 (s.unitAddr site 9) d
      let s2 := log (log (s.setFld64 (Reg.SYNC_DRIFT site) o 1 1) (o + v * 2 ^ 8 + e * 2 ^ 32)) (r.produced + r.consumed * 2 ^ 32)
      if s.flag (Reg.SYNC_EXPECT_ACT site o) then s2.setFld (Reg.SYNC_VAL_VALUE site o) e else s2
  s1.modCl site fun c => { c with recs := Store.upd {} c.recs o fun r => { r with produced := 0, consumed := 0 } }

/-- Check the marked objects of every participating cluster. -/
def State.realign (s : State) (b : Nat) : State :=
  (s.barSites b).foldl (fun s t =>
    ((List.range 48).filter (s.rd64 (Reg.SYNC_REALIGN t)).testBit).foldl (fun s o => s.realignObj t o) s) s

/-! ## Snapshots (R346) -/

/-- Words that a snapshot holds: SLOT_STATUS, SLOT_VL, SYNC_VAL and BAR_SLOT of the clusters, and TOBJ_VAL. -/
def inSnap (o : Nat) : Bool :=
  let c := o % 0x10000
  (decide (0x100000 ≤ o) && decide (o < 0x500000)
      && ((decide (0x100 ≤ c) && decide (c < 0x140) && c % 16 == 8) || (decide (0x2200 ≤ c) && decide (c < 0x2220))
        || (decide (0x8000 ≤ c) && decide (c < 0x80C0)) || (decide (0x8440 ≤ c) && decide (c < 0x8450))))
    || (decide (0x80000 ≤ o) && decide (o < 0x80400))

/-- Take the snapshot of a step. -/
def State.takeSnap (s : State) : State :=
  let slots := s.clusters.flatMap fun (p : Nat × Cluster) => p.2.slots.map fun (q : Nat × SlotSt) => (p.1, q.1, q.2)
  { s with tile := { s.tile with snap := some { regs := s.regs.filter fun e => inSnap e.1, slots := slots, nodes := s.tile.nodes } } }

/-- A pause armed for the next control-barrier release has its point (R320). -/
def State.pausePoint (s : State) : State :=
  if s.job.pauseAt = some 0 then { s with job := { s.job with pausing := true, pauseRel := true } } else s

/-- The state of a slot with a block in progress, as it shows when the slot is not LATE. -/
def SlotSt.shown (x : SlotSt) : Nat :=
  if x.ended then slCommit else if x.stallOn.isSome || x.wait.isSome then slStall else slRun

/-- A LATE slot whose next control-barrier arrival this release answers runs aligned from the next mark (R57). -/
def State.alignSlot (s : State) (site n b gen : Nat) : State :=
  if (s.slot site n).lateBar ≠ some (b, gen) then s
  else
    let s1 := s.modSlot site n fun x => { x with late := false, lateBar := none }
    if s.slotState site n = slLate then s1.setSlotState site n (s.slot site n).shown else s1

/-- The LATE slots of every cluster. -/
def State.endLate (s : State) (b gen : Nat) : State :=
  s.liveSites.foldl (fun s t => (List.range 4).foldl (fun s n => s.alignSlot t n b gen) s) s

/-- A control release applies (R234, R237, R346, R351); the release that restarts a repeated step lets the tile resume (R347). -/
def State.applyRelease (s : State) (b gen : Nat) : State :=
  if s.stepBar b && s.tile.rep.ready then
    ({ s with tile := { s.tile with rep := { s.tile.rep with resume := true } } } : State).pausePoint
  else
    let s1 := (s.releaseNodes b gen).endLate b gen
    let m := s.fld (Reg.BAR_CFG_REALIGN_EVERY b)
    let s2 := if m ≠ 0 ∧ gen % m = 0 then s1.realign b else s1
    let s3 := if s.stepBar b then
        (({ s2 with tile := { s2.tile with wdog := 0 } } : State).setFld Reg.ERR_STEP_ATTEMPT 0).takeSnap else s2
    s3.pausePoint

/-- Beats by which the mark of beat `beat` − 1 has passed; 2^15 and more where it lies ahead. -/
def State.passed (s : State) (beat : Nat) : Nat := (s.beatLow + 2 ^ 32 + 1 - beat) % 2 ^ 16

/-- CONTROL_RELEASE: a CONTROL message brings the root's release; it waits for its beat, or is applied at once where the mark of beat B − 1
has fired. -/
def execControlRelease (b : BarId) (gen beat : BitVec 16) (s : State) : Host.Outcome State Fault Refusal :=
  let msg (m : GMsg) : Bool := cmSub m == cmRelease && cmBar m == b.val && cmGen m == gen.toNat && cmVal m == beat.toNat
  .next (if s.fw && s.flag (Reg.BAR_CFG_EN b) && s.barKind b == 1 then
      match s.ctlWaits msg with
      | none => s
      | some m =>
        let s1 := s.takeCtlMsg m
        if s.passed beat.toNat < 2 ^ 15 then
          (s1.applyRelease b gen.toNat).logEvent 0x23 0x080A (s.agentAddr 1) (b.val + gen.toNat * 2 ^ 16 + beat.toNat * 2 ^ 32)
        else { s1 with tile := { s1.tile with rels := s1.tile.rels ++ [{ bar := b, gen := gen.toNat, beat := beat.toNat }] } }
    else s)

/-- Apply the waiting releases that a test names. -/
def State.applyDue (s : State) (p : Rel → Bool) : State :=
  let due := s.tile.rels.filter p
  let s1 := { s with tile := { s.tile with rels := s.tile.rels.filter fun r => !p r } }
  due.foldl (fun s r => s.applyRelease r.bar r.gen) s1

/-- RELEASE_APPLY: beat B − 1 ends. -/
def execReleaseApply (b : BarId) (s : State) : Host.Outcome State Fault Refusal :=
  .next (if s.fw then s.applyDue fun r => r.bar == b.val && s.passed r.beat == 0 else s)

/-! ## Asking for a step repeat (R341, R347) -/

/-- Ask the step barrier's root for a repeat of the step; requests of one attempt become one. With STEP_EN 0 the tile fails. -/
def State.requestRepeat (s : State) (reason : Nat) : State :=
  let r := s.tile.rep
  let b := s.fld Reg.ERR_CFG_STEP_BAR
  if !s.flag Reg.ERR_CFG_STEP_EN then s.fail 0x0217
  else
    let s1 := { s with tile := { s.tile with rep := { r with asked := true, reason := if reason = 0 then r.reason else reason } } }
    if r.asked || r.named.isSome then s1
    else s1.send (s.ctlMsg (s.barRoot b) cmRequest (b + s.fld Reg.ERR_STEP_ATTEMPT * 64) (s.node b nDie).gen (s.rd Reg.TILE_STEP).toNat)

end Sys2Proof.Machine
end

