-- ==== Sys2Proof/Machine/Reduction.lean ====
section
/-! DEFINITION. The reduction engine and the adding node (R241 to R267). -/

namespace Sys2Proof.Machine

/-! ## Lines and tags (R253, R257) -/

/-- A 64-bit word read as a signed integer. -/
def word64 (w : Nat) : Int := sext w 64

/-- The residue of eight words (R257). -/
def residue (ws : List Nat) : Nat := ((ws.map word64).foldl (· + ·) 0 % 255).toNat

/-- Tag kinds. -/
abbrev rkUp : Nat := 0
abbrev rkUpEnd : Nat := 1
abbrev rkDown : Nat := 2
abbrev rkDownEnd : Nat := 3

/-- Fields of a reduction message's tag. -/
def tagKind (m : GMsg) : Nat := bits m.aux.toNat 17 2
def tagBucket (m : GMsg) : Nat := bits m.aux.toNat 19 12
def tagLine (m : GMsg) : Nat := bits m.aux.toNat 31 21

/-- The eight words of a payload. -/
def payload (m : GMsg) : List Nat := (List.range 8).map fun j => leNat ((m.data.drop (8 * j)).take 8)

/-- A reduction message (R253, R387). Its DST names the sending tile's reduction engine: the tree, not DST, guides it (log entry 21). -/
def State.redMsg (s : State) (g kind i line : Nat) (ws : List Nat) (nan : Nat) (sat : Bool) : GMsg :=
  { vch := Fin.ofNat 16 g, ty := 8, dst := BitVec.ofNat 32 (s.agentAddr 2)
    aux := BitVec.ofNat 64 (residue ws + nan % 2 ^ 8 * 2 ^ 8 + sat.toNat * 2 ^ 16 + kind * 2 ^ 17 + i * 2 ^ 19 + line % 2 ^ 21 * 2 ^ 31
      + (s.rd Reg.TILE_STEP).toNat % 64 * 2 ^ 52 + s.fld (Reg.REDUCE_GST_ATTEMPT g) * 2 ^ 58)
    data := ws.flatMap (leBytes 8) }

/-- A line as a node holds it. -/
def lineOf (inp units : Nat) (m : GMsg) : RLine :=
  { inp := inp, units := units, words := payload m, nan := bits m.aux.toNat 8 8, sat := bits m.aux.toNat 16 1 == 1, res := bits m.aux.toNat 0 8 }

/-! ## Groups and descriptors (R242 to R246) -/

def State.redMask (s : State) (g : Nat) : Nat := s.fld (Reg.REDUCE_GRP0_IN_MASK g)
def State.redOut (s : State) (g : Nat) : Nat := s.fld (Reg.REDUCE_GRP0_OUT g)
def State.redRoot (s : State) (g : Nat) : Bool := s.flag (Reg.REDUCE_GRP0_ROOT g)
def State.redLocal (s : State) (g : Nat) : Bool := (s.redMask g).testBit 5
/-- Arrival mode (R266). -/
def State.redArrival (s : State) (g : Nat) : Bool := s.flag (Reg.REDUCE_GRP0_MODE g)
/-- The inputs of a node: N, E, S, W, vertical port, LOCAL. -/
def State.redInputs (s : State) (g : Nat) : List Nat := (List.range 6).filter (s.redMask g).testBit
/-- The group is in use and the engine enabled. -/
def State.redOn (s : State) (g : Nat) : Bool :=
  decide (1 ≤ g) && decide (g ≤ 12) && s.flag Reg.REDUCE_CTL_EN && s.flag (Reg.REDUCE_GRP0_EN g)

def State.bucket (s : State) (g i : Nat) : Bucket := Store.get {} s.tile.buckets (g * 4096 + i)
def State.modBucket (s : State) (g i : Nat) (f : Bucket → Bucket) : State :=
  { s with tile := { s.tile with buckets := Store.upd {} s.tile.buckets (g * 4096 + i) f } }
def State.grp (s : State) (g : Nat) : Grp := Store.get {} s.tile.grps g
def State.modGrp (s : State) (g : Nat) (f : Grp → Grp) : State :=
  { s with tile := { s.tile with grps := Store.upd {} s.tile.grps g f } }

/-- Lines that a node held go: their units are owed to the partners (R256, R388). -/
def State.freeLines (s : State) (g : Nat) (ls : List RLine) : State :=
  (ls.foldl (fun (s : State) l =>
    if l.units = 0 then s else s.modEdge l.inp fun x => { x with owed := Store.upd 0 x.owed g (· + l.units) }) s).showVcqs

/-- The lines that a bucket holds. -/
def Bucket.held (b : Bucket) : List RLine := b.lines.flatMap fun p => p.2

/-- `REDUCE_GST.INFLIGHT`: the buckets sealed and not DONE or ABANDONED, those in REPEAT among them. -/
def State.showRed (s : State) (g : Nat) : State :=
  s.setFld (Reg.REDUCE_GST_INFLIGHT g) ((s.tile.buckets.filter fun (p : Nat × Bucket) => p.1 / 4096 == g && p.2.mine).length)

/-- Address and words of a bucket descriptor. -/
def State.redAddr (s : State) (g i : Nat) : Nat := s.rd64 (Reg.REDUCE_GRP45 g) % 2 ^ 48 + 64 * i
def State.redDesc (s : State) (g i : Nat) : Nat := leNat (s.pkgRead (s.redAddr g i) 64)

/-- A number with some of its bits replaced. -/
def putBits (d lo w v : Nat) : Nat := d - bits d lo w * 2 ^ lo + v % 2 ^ w * 2 ^ lo

/-- Write fields of a descriptor: place, width, value. -/
def State.redWrite (s : State) (g i : Nat) (fs : List (Nat × Nat × Nat)) : State :=
  s.pkgWrite (s.redAddr g i) (leBytes 64 (fs.foldl (fun d f => putBits d f.1 f.2.1 f.2.2) (s.redDesc g i)))

def dElems (d : Nat) : Nat := bits d 128 25
def dExp (d : Nat) : Int := sext (bits d 320 9) 9
def dMargin (d : Nat) : Nat := bits d 329 5
def dState (d : Nat) : Nat := bits d 384 3
/-- Bytes of a source and of a result element. -/
def dInSize (d : Nat) : Nat := if bits d 153 2 = 0 then 4 else 2
def dOutSize (d : Nat) : Nat := if bits d 155 2 = 0 then 4 else if bits d 155 2 = 1 then 2 else 8

/-- Whether a descriptor passes the check at its seal (R246, R266). -/
def descOk (arrival : Bool) (d : Nat) : Bool :=
  bits d 48 16 == 0 && bits d 112 16 == 0 && bits d 157 19 == 0 && bits d 222 2 == 0 && bits d 240 16 == 0 && bits d 304 16 == 0
    && bits d 334 1 == 0 && bits d 360 24 == 0 && bits d 387 13 == 0 && bits d 496 16 == 0
    && bits d 0 6 == 0 && bits d 64 6 == 0
    && decide (16 ≤ dElems d) && decide (dElems d ≤ 16777216) && dElems d % 16 == 0
    && decide (bits d 153 2 ≤ 1) && decide (bits d 155 2 ≤ 2) && !(arrival && bits d 155 2 == 2)
    && ownOk (bits d 176 16) && bits d 190 2 == 1 && bits d 192 24 != 0
    && syncOk (bits d 256 16) && decide (dState d ≤ 5)

/-- Record a repeat, an abandonment or a refused descriptor in `REDUCE_LAST`. -/
def State.redLast (s : State) (g i reason missing : Nat) : State :=
  s.wr64 Reg.REDUCE_LAST (reason + g * 2 ^ 16 + i * 2 ^ 20 + (s.rd Reg.TILE_STEP).toNat % 2 ^ 16 * 2 ^ 32
    + s.fld (Reg.REDUCE_GST_ATTEMPT g) * 2 ^ 48 + missing * 2 ^ 50 + 2 ^ 56)

/-! ## Sealing (R247 to R251) -/

/-- Exponent and margin of a bucket at its seal (R250). -/
def State.chooseExp (s : State) (g d : Nat) : Int × Nat :=
  let m := max (dMargin d) (s.fld (Reg.REDUCE_GRP0_MARGIN_BASE g))
  if bits d 335 1 = 1 ∧ bits d 336 16 = (s.rd Reg.TILE_STEP).toNat % 2 ^ 16 then (dExp d, dMargin d)
  else
    let c := levels (s.fld (Reg.REDUCE_GRP1_PARTICIPANTS g))
    let h := bits d 288 8
    let e : Int := if h = 0 then sext (s.fld (Reg.REDUCE_GRP2_INIT_EXP g)) 9 else ((h : Int) - 127) - (61 - (c : Int) - (m : Int))
    (min (max e (-256)) 255, m)

/-- The engine watches a seal object: a tile object of its own tile, and a threshold. -/
def sealWatched (d : Nat) : Bool := ownOk (bits d 176 16) && bits d 190 2 == 1 && bits d 192 24 != 0

/-- The next bucket's seal object stands at its threshold. -/
def State.sealMet (s : State) (g : Nat) : Bool :=
  let d := s.redDesc g (s.fld (Reg.REDUCE_GST_NEXT g))
  sealWatched d && decide (bits d 192 24 ≤ s.fld (Reg.TOBJ_VAL_VALUE (bits d 176 8)))

/-- The next bucket can be sealed now: sealing is open and its last seal has ended (R247, R249). -/
def State.sealOpen (s : State) (g : Nat) : Bool :=
  s.redOn g && s.redLocal g && (s.grp g).sealing && !(s.bucket g (s.fld (Reg.REDUCE_GST_NEXT g))).mine

/-- A REDUCE_BUCKET that runs and names a bucket. -/
def sealNames (g i : Nat) (f : Flight) : Bool := f.opcode == 0x41 && f.phase == .running && f.p 0 4 == g && f.p 16 12 == i

/-- The replies at a seal (R327): each REDUCE_BUCKET that waited for it. -/
def State.sealReplies (s : State) (g i : Nat) : State :=
  let d := s.redDesc g i
  (s.flights.filter (sealNames g i)).foldl (fun s f => s.complete f stOk 0
    (bits d 320 9 + bits d 329 5 * 2 ^ 9 + s.fld (Reg.REDUCE_GST_ATTEMPT g) * 2 ^ 14 + (s.rd Reg.TILE_STEP).toNat * 2 ^ 16)) s

/-- Seal the next bucket of a group, once for all its triggers. -/
def State.doSeal (s : State) (g : Nat) : State :=
  let i := s.fld (Reg.REDUCE_GST_NEXT g)
  let d := s.redDesc g i
  let thr := bits d 192 24
  let s1 := if s.sealMet g then s.tobjAdd (bits d 176 8) (-(thr : Int)) (s.agentAddr 2) s.beatLow else s
  let since := if s.redRoot g then some 0 else none
  let s2 :=
    if descOk (s.redArrival g) d then
      let p := s.chooseExp g d
      let s3 := s1.redWrite g i [(320, 9, (p.1 % 512).toNat), (329, 5, p.2), (335, 1, 1), (336, 16, (s.rd Reg.TILE_STEP).toNat), (384, 3, 1),
        (400, 16, 0), (416, 32, 0), (448, 32, 0)]
      let n := dElems d * dInSize d
      let want := (bits d 0 48 + n - 1) / 512 + 1 - bits d 0 48 / 512
      s3.modBucket g i fun b => { b with mine := true, converting := true, want := want, since := since }
    else
      let s3 := (s1.redWrite g i [(384, 3, 5), (400, 16, 0x040B)]).redLast g i 0x040B 0
      let s4 := s3.logEvent 0x24 0x040B (s.agentAddr 2) (g + i * 2 ^ 4 + 0x040B * 2 ^ 16)
      (s4.modBucket g i fun b => { b with since := since }).modGrp g fun x => { x with aband := some 0x040B }
  let wrap := decide (s.fld (Reg.REDUCE_GRP2_NBUCKET g) ≤ i + 1)
  let s5 := s2.setFld (Reg.REDUCE_GST_NEXT g) (if wrap then 0 else i + 1)
  ((if wrap then s5.modGrp g fun x => { x with sealing := false } else s5).showRed g).sealReplies g i

/-- BUCKET_SEAL: the next bucket's seal object has reached its threshold. -/
def execBucketSeal (g : Fin 16) (s : State) : Host.Outcome State Fault Refusal :=
  .next (if s.fw && s.sealOpen g && s.sealMet g then s.doSeal g else s)

/-! ## Conversion (R252, R254, R266) -/

/-- The source code of element `x`. -/
def State.redElem (s : State) (d x : Nat) : Nat := leNat (s.pkgRead (bits d 0 48 + dInSize d * x) (dInSize d))

/-- Number of elements in an up line. -/
def upElems (arrival : Bool) : Nat := if arrival then 16 else 8

/-- One up line of the local contribution: words, NAN byte, and the record of the conversion. -/
def State.convertLine (s : State) (arrival : Bool) (d line : Nat) (r : Rec) : List Nat × Nat × Rec :=
  let fmt := if bits d 153 2 = 0 then 0x00 else 0x02
  let val (x : Nat) : Num := decodeElem fmt (s.redElem d x) 0 0
  if arrival then
    let code (x : Nat) : Nat := if fmt = 0 then s.redElem d x else s.redElem d x * 2 ^ 16
    ((List.range 8).map fun j => code (16 * line + 2 * j) + code (16 * line + 2 * j + 1) * 2 ^ 32, 0,
      (List.range 16).foldl (fun r k => r.see (val (16 * line + k))) r)
  else
    (List.range 8).foldl (fun (a : List Nat × Nat × Rec) j =>
      let q := readElem false fmt (s.redElem d (8 * line + j)) 0 0 a.2.2
      let p := toFx64 (dExp d) q.1 (q.2.see (val (8 * line + j)))
      if q.1.isNan then (a.1 ++ [0], a.2.1 + 2 ^ j, p.2) else (a.1 ++ [p.1], a.2.1, p.2)) ([], 0, r)

/-- Up trailer payload (R254): REPEAT, ABANDON and REASON are 0. -/
def upTrailer (count hint e m : Nat) (sat : Bool) : List Nat :=
  [min 0xFFFF count + hint * 2 ^ 16 + e * 2 ^ 32 + m * 2 ^ 41 + sat.toNat * 2 ^ 46, 0, 0, 0, 0, 0, 0, 0]

/-- The local contribution goes to the node: its lines, then its trailer. A contribution in arrival mode folds into the hint like any other
(log entry 70). -/
def State.convert (s : State) (g i : Nat) : State :=
  let d := s.redDesc g i
  let arr := s.redArrival g
  let step (p : State × Rec × Bool) (line : Nat) : State × Rec × Bool :=
    let c := s.convertLine arr d line p.2.1
    let sat := c.2.2.sat != p.2.1.sat
    ({ p.1 with inbox := p.1.inbox ++ [s.redMsg g rkUp i line c.1 c.2.1 sat] }, c.2.2, p.2.2 || sat)
  let p := (List.range (dElems d / upElems arr)).foldl step (s, {}, false)
  let tr := s.redMsg g rkUpEnd i 0 (upTrailer 1 p.2.1.hint (bits d 320 9) (dMargin d) p.2.2) 0 false
  let s1 := { p.1 with inbox := p.1.inbox ++ [tr] }
  ((s1.memRange (bits d 0 48) (dElems d * dInSize d)).redWrite g i [(272, 16, foldHint (bits d 272 16) p.2.1), (384, 3, 2), (416, 32, p.2.1.sat), (448, 32, p.2.1.flush)]).modBucket g i
    fun b => { b with converting := false }

/-- The engine takes grants of the read class for a bucket, one a turn, as far as it wants them (R210, R267). -/
def State.readPieces (s : State) (g i : Nat) : Nat → State
  | 0 => s
  | n + 1 =>
    if (s.bucket g i).want = 0 ∨ s.engineTurn 0 = false then s
    else State.readPieces ((s.takeGrants 0 64 1).modBucket g i fun b => { b with want := b.want - 1 }) g i n

/-- CONVERSION_DONE: the engine takes grants of the read class in its turns (R267); once it has had one for each piece of the oldest converting
bucket, the bucket is SENT. -/
def execConversionDone (g : Fin 16) (s : State) : Host.Outcome State Fault Refusal :=
  .next (match (if s.fw then s.tile.buckets.find? fun (p : Nat × Bucket) => p.1 / 4096 == g.val && p.2.converting else none) with
    | some p =>
      let i := p.1 % 4096
      let s1 := s.readPieces g i p.2.want
      if (s1.bucket g i).want = 0 then s1.convert g i else s1
    | none => s)

/-! ## The adding node (R255 to R258) -/

/-- The state without a message that waits as the first of its channel at an edge, or among the local lines; a vertical port's messages
come as facts. -/
def State.redTake (s : State) (i : Nat) (m : GMsg) : Option State :=
  if i < 4 then
    if (s.edge i).ingress.contains m then
      (if ((s.edge i).ingress.find? fun x => x.vch == m.vch) == some m then some (s.drain i m) else none)
    else some s
  else if i = 4 then some s
  else if (s.inbox.find? fun x => x.ty == 8 && x.vch == m.vch && (tagKind x < 2) == (tagKind m < 2)) == some m then
    some { s with inbox := s.inbox.erase m }
  else none

/-- The message is stale (R258). -/
def State.redStale (s : State) (m : GMsg) : Bool :=
  let g := m.vch.val
  !s.redOn g || (s.redLocal g && decide (s.fld (Reg.REDUCE_GRP2_NBUCKET g) ≤ tagBucket m))
    || bits m.aux.toNat 52 6 != (s.rd Reg.TILE_STEP).toNat % 64 || bits m.aux.toNat 58 2 != s.fld (Reg.REDUCE_GST_ATTEMPT g)

/-- Discard a stale message; the first of each bucket and step is logged. -/
def State.dropStale (s : State) (m : GMsg) : State :=
  let g := m.vch.val
  let s1 := s.count Reg.RED_STALE_COUNT 1
  if (s.grp g).stale.contains (tagBucket m) then s1
  else
    (s1.modGrp g fun x => { x with stale := x.stale ++ [tagBucket m] }).logEvent 0x24 0x0409 (s.agentAddr 2)
      (g + tagBucket m * 2 ^ 4 + tagLine m * 2 ^ 16)

/-- Send a reduction message out of a port of the tree. -/
def State.redSend (s : State) (port : Nat) (m : GMsg) : State :=
  if port < 4 then s.edgeSend port m
  else if port = 4 then { s with vpOut := s.vpOut ++ [m] }
  else s

/-- Send down: out of every input port but LOCAL. -/
def State.redSendDown (s : State) (g : Nat) (m : GMsg) : State :=
  ((s.redInputs g).filter (· < 5)).foldl (fun s p => s.redSend p m) s

/-- The router adder's self-test is pending: it takes no new operation (R337). -/
def State.adderBusy (s : State) : Bool := s.tile.errs.any fun e => e.unit == .adder

/-- A residue failure that recurs: the bucket is marked for repeat (R257, R333 class 0x0A). -/
def State.residueFail (s : State) (g i line : Nat) : State :=
  let s1 := (s.count Reg.RED_RESIDUE_COUNT 1).modBucket g i fun b => { b with marked := true }
  s1.raise { s1.perr 0x0A none .adder (s.agentAddr 2) with reason := 0x0405, detail := g + i * 2 ^ 4 + line * 2 ^ 16 }

/-- One word of an exact sum before saturation, with what a fault of the adder adds to it. -/
def sumWord (j : Nat) (up : List Int) (ls : List RLine) : Int :=
  (ls.filter fun l => !l.nan.testBit j).foldl (fun (a : Int) l => a + word64 (l.words.getD j 0)) (up.getD j 0)

/-- A sum outside ±(2^63 − 1) takes that bound: the word, and whether it saturated. -/
def satWord (v : Int) : Nat × Bool :=
  if (2 : Int) ^ 63 - 1 < v then (2 ^ 63 - 1, true)
  else if v < -((2 : Int) ^ 63 - 1) then (2 ^ 63 + 1, true)
  else ((v % 2 ^ 64).toNat, false)

/-- What an addition gives: the line, how many sums saturated, and whether it passes the adder's own check. -/
structure RSum where
  line : RLine
  sats : Nat
  good : Bool
deriving DecidableEq, Repr

/-- The exact sum of a line's inputs (R255), with the adder's check (R257): the residue of the sums before saturation is that of the
inputs' residues. -/
def addExact (up : List Int) (ls : List RLine) : RSum :=
  let nan := ls.foldl (fun a l => a ||| l.nan) 0
  let vs := (List.range 8).map fun j => sumWord j up ls
  let ws := vs.map satWord
  let words := ws.zipIdx.map fun p => if nan.testBit p.2 then 0 else p.1.1
  let sats := (ws.filter fun p => p.2).length
  { line := { inp := 6, words := words, nan := nan, sat := ls.any (fun l => l.sat) || sats != 0, res := residue words }
    sats := sats, good := vs.foldl (· + ·) 0 % 255 == (((ls.map fun l => l.res).foldl (· + ·) 0 % 255 : Nat) : Int) }

/-- One FP32 lane of an arrival-mode sum, in order of arrival (R266). -/
def addLane (cs : List Nat) (r : Rec) : Nat × Rec :=
  match cs with
  | [] => (0, r)
  | c :: t =>
    t.foldl (fun (a : Nat × Rec) d =>
      let q := flushOps false [fp32.decode a.1, fp32.decode d] a.2
      let v := fpAdd false (q.1.getD 0 Num.zero) (q.1.getD 1 Num.zero) q.2
      (fp32.encode v.1, v.2)) (c, r)

/-- The sum of a line's inputs in arrival mode, which has no adder check (R266). -/
def addArrival (ls : List RLine) : RSum :=
  let lane (k : Nat) : List Nat := ls.map fun l => bits (l.words.getD (k / 2) 0) (32 * (k % 2)) 32
  let p := (List.range 16).foldl (fun (a : List Nat × Rec) k => let q := addLane (lane k) a.2; (a.1 ++ [q.1], q.2)) ([], {})
  let words := (List.range 8).map fun j => p.1.getD (2 * j) 0 + p.1.getD (2 * j + 1) 0 * 2 ^ 32
  { line := { inp := 6, words := words, nan := 0, sat := ls.any (fun l => l.sat) || p.2.sat != 0, res := residue words }
    sats := p.2.sat, good := true }

/-! ## At the root (R259, R260) -/

/-- One result element of a summed up line, and the record of the conversion; a NaN is canonical, that of a single input too (R94). -/
def outElem (arrival : Bool) (d : Nat) (l : RLine) (k : Nat) (r : Rec) : Nat × Rec :=
  let fmt := if bits d 155 2 = 0 then 0x00 else 0x02
  if arrival then
    let c := bits (l.words.getD (k / 2) 0) (32 * (k % 2)) 32
    if fmt = 0 then (if (fp32.decode c).isNan then fp32.encode (.nan false) else c, r) else toElem fmt false 0 (fp32.decode c) r
  else
    let nan := l.nan.testBit k
    let w := l.words.getD k 0
    if bits d 155 2 = 2 then (if nan then 2 ^ 63 else w, r)
    else toElem fmt false 0 (if nan then .nan false else Num.ofInt (word64 w) (dExp d)) r

/-- Down line `l`: the bytes of its elements, and SAT, once every up line that covers them is summed. -/
def State.downLine (s : State) (g i d l : Nat) : Option (List Byte × Rec × Bool) :=
  let arr := s.redArrival g
  let u := upElems arr
  let e := 64 / dOutSize d
  let xs := (List.range e).map (· + e * l)
  let sums := (s.bucket g i).sums
  let have_ (x : Nat) : Bool := decide (dElems d ≤ x) || sums.any fun (p : Nat × RLine) => p.1 == x / u
  let line (x : Nat) : RLine := Store.get { inp := 6, words := [], nan := 0, sat := false, res := 0 } sums (x / u)
  if xs.all have_ then
    let p := xs.foldl (fun (a : List Byte × Rec) x =>
      if dElems d ≤ x then (a.1 ++ leBytes (dOutSize d) 0, a.2)
      else
        let q := outElem arr d (line x) (x % u) a.2
        (a.1 ++ leBytes (dOutSize d) q.1, q.2)) ([], {})
    some (p.1, p.2, p.2.sat != 0 || xs.any fun x => decide (x < dElems d) && (line x).sat)
  else none

/-- Number of down lines of a bucket. -/
def downCount (d : Nat) : Nat := (dElems d * dOutSize d + 63) / 64

/-- A result line needs a grant of the write class for each 512 B piece that it opens (R267). -/
def opensPiece (d l : Nat) : Bool := l == 0 || (bits d 64 48 + 64 * l) % 512 == 0

/-- Write the bytes of down line `l` that belong to the result. -/
def State.writeDown (s : State) (d l : Nat) (bs : List Byte) : State :=
  let n := dElems d * dOutSize d - 64 * l
  (s.pkgWrite (bits d 64 48 + 64 * l) (bs.take n)).memRange (bits d 64 48 + 64 * l) (min 64 n)

/-- Form the root's next down lines, in order, as far as sums, grants and the turns of the write class reach (R210, R267). -/
def State.formDown (s : State) (g i : Nat) : Nat → State
  | 0 => s
  | n + 1 =>
    let d := s.redDesc g i
    let b := s.bucket g i
    if downCount d ≤ b.down then s
    else
      match s.downLine g i d b.down with
      | none => s
      | some (bs, r, sat) =>
        if opensPiece d b.down && !s.engineTurn 1 then s.modBucket g i fun b => { b with asks := true } else
        let s1 := if opensPiece d b.down then s.takeGrants 1 64 1 else s
        let s2 := s1.writeDown d b.down bs
        let ws := (List.range 8).map fun j => leNat ((bs.drop (8 * j)).take 8)
        let s3 := if s.flag (Reg.REDUCE_GRP0_KIND g) then s2 else s2.redSendDown g (s.redMsg g rkDown i b.down ws 0 sat)
        let s4 := s3.redWrite g i [(416, 32, min 0xFFFFFFFF (bits d 416 32 + r.sat)), (448, 32, min 0xFFFFFFFF (bits d 448 32 + r.flush))]
        State.formDown (s4.modBucket g i fun b => { b with down := b.down + 1, asks := false }) g i n

/-! ## Trailers (R254, R261, R262) -/

/-- Fields of a trailer's payload. -/
def trCount (w : Nat) : Nat := bits w 0 16
def trHint (w : Nat) : Nat := bits w 16 16
def trExp (w : Nat) : Nat := bits w 32 9
def trMargin (w : Nat) : Nat := bits w 41 5
def trSat (w : Nat) : Bool := bits w 46 1 == 1

/-- Merge two hints. -/
def mergeHint (a b : Nat) : Nat := max (a % 256) (b % 256) + ((a ||| b) / 2 ^ 8 % 4) * 2 ^ 8

/-- The inputs' trailers as one: SAT, a failure marked at this node, a disagreement of its inputs on E or MARGIN. -/
structure Trailer where
  count  : Nat
  hint   : Nat
  exp    : Nat
  margin : Nat
  sat    : Bool
  marked : Bool
  split  : Bool
deriving DecidableEq, Repr

/-- Merge the inputs' trailers. -/
def mergeTrailers (l : List Nat) : Trailer :=
  let h := l.headD 0
  { count := (l.map trCount).foldl (· + ·) 0, hint := l.foldl (fun a w => mergeHint a (trHint w)) 0, exp := trExp h, margin := trMargin h
    sat := l.any trSat, marked := false
    split := l.any fun w => trExp w != trExp h || trMargin w != trMargin h }

/-- The trailer of a bucket at this node. -/
def Bucket.trailer (b : Bucket) : Trailer :=
  let t := mergeTrailers (b.trailers.map fun q => q.2)
  { t with sat := t.sat || b.sat, marked := t.marked || b.marked }

/-- Every input's trailer is there. -/
def State.trailersIn (s : State) (g i : Nat) : Bool :=
  (s.redInputs g).all fun p => (s.bucket g i).trailers.any fun (q : Nat × Nat) => q.1 == p

/-- Outcomes of a bucket. -/
inductive RedEnd where
  | complete
  | repeated (reason : Nat)
  | abandoned (reason : Nat)
deriving DecidableEq, Repr

/-- A repeat, or the abandonment it turns into (R261). DESIGN CHOICE (log entry 108): where both limits are reached, the reason is 0x0406. -/
def State.repeatOr (s : State) (g reason m : Nat) : RedEnd :=
  if s.fld (Reg.REDUCE_GST_ATTEMPT g) = s.fld (Reg.REDUCE_GRP0_REPEAT_MAX g) then .abandoned 0x0406
  else if 31 < m then .abandoned 0x040A
  else .repeated reason

/-- The first row of R261 that applies; rows 1, 4 and 5 are for exact mode only (R266). -/
def State.redDecide (s : State) (g i : Nat) : RedEnd :=
  let t := (s.bucket g i).trailer
  let exact := !s.redArrival g
  if exact && t.marked then s.repeatOr g 0x0405 0
  else if t.split then .abandoned 0x0408
  else if t.count ≠ s.fld (Reg.REDUCE_GRP1_PARTICIPANTS g) then .abandoned 0x0404
  else if exact && t.sat && t.hint.testBit 9 then .abandoned 0x0407
  else if exact && t.sat then s.repeatOr g 0x0402 (t.margin + 2)
  else .complete

/-- CLEAN and margin after a clean completion (R262). -/
def State.decay (s : State) (g i d : Nat) : Nat × Nat :=
  let clean := min 255 (bits d 352 8 + 1)
  let dec := s.fld (Reg.REDUCE_GRP0_DECAY g)
  let m := dMargin d
  if (s.grp g).counted.contains i then (bits d 352 8, m)
  else if dec ≠ 0 ∧ dec ≤ clean ∧ s.fld (Reg.REDUCE_GRP0_MARGIN_BASE g) < m then (0, m - 1)
  else (clean, m)

/-- The bucket goes no further at this node: what it holds goes. -/
def State.shut (s : State) (g i : Nat) (f : Bucket → Bucket) : State :=
  (s.modBucket g i fun b => { f b with closed := true, lines := [], trailers := [] }).freeLines g (s.bucket g i).held

/-- The root closes a bucket: the down trailer goes to every participant, itself included. -/
def State.closeBucket (s : State) (g i : Nat) (o : RedEnd) (missing : Nat) : State :=
  let t := (s.bucket g i).trailer
  let d := s.redDesc g i
  let bump := o = .repeated 0x0402
  let e : Nat := if bump then ((min 255 (dExp d + 2)) % 512).toNat else bits d 320 9
  let m := if bump then dMargin d + 2 else if o = .complete then (s.decay g i d).2 else dMargin d
  let tail : Nat := match o with
    | .complete => 0
    | .repeated r => 2 ^ 47 + r * 2 ^ 64
    | .abandoned r => 2 ^ 48 + r * 2 ^ 64
  let w := min 0xFFFF t.count + t.hint * 2 ^ 16 + e * 2 ^ 32 + m * 2 ^ 41 + t.sat.toNat * 2 ^ 46 + tail
  let msg := s.redMsg g rkDownEnd i 0 [w % 2 ^ 64, w / 2 ^ 64, 0, 0, 0, 0, 0, 0] 0 false
  let s1 := s.shut g i fun b => { b with since := none, sums := [], missing := missing }
  let s2 := s1.redSendDown g msg
  { s2 with inbox := s2.inbox ++ [msg] }

/-- DETAIL of class 0x0B. -/
def redDetail (g i reason : Nat) : Nat := g + i * 2 ^ 4 + reason * 2 ^ 16

/-- DETAIL of STEP_END (R322): the step, the highest attempt among the groups, the buckets DONE. -/
def State.stepDetail (s : State) : Nat :=
  let gs := (List.range 12).map (· + 1)
  (s.rd Reg.TILE_STEP).toNat + (gs.map fun g => s.fld (Reg.REDUCE_GST_ATTEMPT g)).foldl max 0 * 2 ^ 32
    + (gs.map fun g => (s.grp g).done.length).foldl (· + ·) 0 % 2 ^ 16 * 2 ^ 48

/-- A bucket's abandonment at a participant: STEP_END completes, then the tile fails (R263, R322, R333). -/
def State.bucketAbandon (s : State) (g i reason : Nat) : State :=
  let s1 := (s.redWrite g i [(384, 3, 5), (400, 16, reason)]).modBucket g i fun b => { b with mine := false, converting := false }
  let s2 := ((s1.count Reg.RED_ABANDON_COUNT 1).redLast g i reason (s.bucket g i).missing).showRed g
  let s3 := s2.modGrp g fun x => { x with aband := some reason }
  let s4 := if s.flag Reg.TILE_STATE_STEP_OPEN then
      (s3.flights.filter fun f => f.opcode == 0x15 && f.phase == .running).foldl (fun s f =>
        (s.complete f stFaultAbandoned reason s.stepDetail).setFlag Reg.TILE_STATE_STEP_OPEN false) s3
    else s3
  (s4.log { cls := 0x0B, action := 5, reason := reason, source := s.agentAddr 2, detail := redDetail g i reason }).fail 0x0217

/-- A node that is not the root finds its inputs disagreeing on E or MARGIN: it abandons the bucket (R251), at its tile as a participant, or where
the tile has no part in the bucket as an error of its node (log entry 45). -/
def State.nodeAbandon (s : State) (g i : Nat) : State :=
  if s.redLocal g then s.bucketAbandon g i 0x0408
  else (s.log { cls := 0x0B, action := 5, reason := 0x0408, source := s.agentAddr 2, detail := redDetail g i 0x0408 }).fail 0x0217

/-- A bucket at this node goes on: the root forms down lines and decides once every trailer is in; another node sends its trailer up. Of a
bucket that it has marked for repeat it sends none: its own error asks for the repeat (R257, R333 class 0x0A; log entry 45). -/
def State.redStep (s : State) (g i : Nat) : State :=
  if (s.bucket g i).closed then s
  else if s.redRoot g then
    let d := s.redDesc g i
    let s1 := if (s.bucket g i).marked then s else s.formDown g i (downCount d)
    if !s1.trailersIn g i then s1
    else
      let o := s1.redDecide g i
      if o = .complete ∧ (s1.bucket g i).down < downCount d then s1 else s1.closeBucket g i o 0
  else if !s.trailersIn g i then s
  else
    let t := (s.bucket g i).trailer
    let msg := s.redMsg g rkUpEnd i 0 (upTrailer t.count t.hint t.exp t.margin t.sat) 0 false
    let s1 := s.shut g i id
    if !s.redArrival g && t.marked then s1
    else if t.split then s1.nodeAbandon g i
    else s1.redSend (s.redOut g) msg

/-- One addition of a line's inputs (R255, R257): a damaged input or a damaged sum fails it. A fault of the adder is spent. -/
def State.addOnce (s : State) (g : Nat) (ls : List RLine) : State × RSum :=
  let damaged := ls.any fun l => residue l.words != l.res
  if s.redArrival g then
    let a := addArrival ls
    (s, { a with good := !damaged })
  else
    let a := addExact (s.tile.upsets.headD []) ls
    ({ s with tile := { s.tile with upsets := s.tile.upsets.drop 1 } }, { a with good := a.good && !damaged })

/-- A sum that passed: the root keeps it, another node sends it up. -/
def State.passSum (s : State) (g i line : Nat) (a : RSum) : State :=
  let s1 := (s.count Reg.RED_SAT_COUNT a.sats).modBucket g i fun b => { b with sat := b.sat || a.line.sat }
  if s.redRoot g then (s1.modBucket g i fun b => { b with sums := Store.put b.sums line a.line }).redStep g i
  else s1.redSend (s.redOut g) (s.redMsg g rkUp i line a.line.words a.line.nan a.line.sat)

/-- Every input has delivered a line: it is added and checked, once more from the held lines if that fails, and sent on; the lines go
(R256, R257). -/
def State.combine (s : State) (g i line : Nat) : State :=
  let ls := Store.get [] (s.bucket g i).lines line
  let s1 := (s.modBucket g i fun b => { b with lines := Store.drop b.lines line }).freeLines g ls
  let a := s1.addOnce g ls
  if a.2.good then a.1.passSum g i line a.2
  else
    let b := a.1.addOnce g ls
    if b.2.good then (b.1.count Reg.RED_RESIDUE_COUNT 1).passSum g i line b.2 else b.1.residueFail g i line

/-- REDUCTION_LINE_ARRIVAL: an up line arrives at this tile's node. -/
def execReductionLineArrival (i : RedIn) (m : GMsg) (s : State) : Host.Outcome State Fault Refusal :=
  let g := m.vch.val
  let k := tagBucket m
  .next (if !s.fw || m.ty != 8 || tagKind m != rkUp || s.adderBusy then s
    else
      match s.redTake i m with
      | none => s
      | some s1 =>
        if s.redStale m then s1.dropStale m
        else if !(s.redMask g).testBit i || (s1.bucket g k).closed then s1
        else
          let u := if i.val < 4 ∧ (s.edge i).ingress.contains m then msgUnits m else 0
          let s2 := s1.modBucket g k fun b => { b with lines := Store.upd [] b.lines (tagLine m) (· ++ [lineOf i u m]) }
          let s3 := if u = 0 then s2
            else (s2.modEdge i fun x => { x with owed := Store.upd 0 x.owed g (· - u) }).showVcq i
          let ls := Store.get [] (s3.bucket g k).lines (tagLine m)
          if (s.redInputs g).all fun p => ls.any fun l => l.inp == p then s3.combine g k (tagLine m) else s3)

/-- REDUCTION_TRAILER_ARRIVAL: an up trailer arrives at this tile's node. -/
def execReductionTrailerArrival (i : RedIn) (m : GMsg) (s : State) : Host.Outcome State Fault Refusal :=
  let g := m.vch.val
  let k := tagBucket m
  .next (if !s.fw || m.ty != 8 || tagKind m != rkUpEnd || s.adderBusy then s
    else
      match s.redTake i m with
      | none => s
      | some s1 =>
        if s.redStale m then s1.dropStale m
        else if !(s.redMask g).testBit i || (s1.bucket g k).closed then s1
        else
          let bad := residue (payload m) != bits m.aux.toNat 0 8
          let s2 := if bad then s1.residueFail g k 0 else s1
          if bad && s.redArrival g then s2
          else
            (s2.modBucket g k fun b => { b with
              trailers := b.trailers.filter (fun q => q.1 != i.val) ++ [(i.val, (payload m).headD 0)] }).redStep g k)

/-- REDUCTION_DEADLINE: DEADLINE beats have passed since the root's own seal of a bucket, and a trailer is missing (R261). -/
def execReductionDeadline (g : Fin 16) (s : State) : Host.Outcome State Fault Refusal :=
  let late (p : Nat × Bucket) : Bool :=
    p.1 / 4096 == g.val && !p.2.closed && (p.2.since.map fun n => decide (s.fld (Reg.REDUCE_GRP1_DEADLINE g) ≤ n)).getD false
      && !s.trailersIn g (p.1 % 4096)
  .next (match (if s.fw && s.redOn g && s.redRoot g then s.tile.buckets.find? late else none) with
    | some p =>
      let missing := ((s.redInputs g).filter fun q => !(p.2.trailers.any fun t => t.1 == q)).foldl (fun a q => a + 2 ^ q) 0
      s.closeBucket g (p.1 % 4096) (s.repeatOr g 0x0403 0) missing
    | none => s)

/-! ## At a participant (R260, R263) -/

/-- Where a down message comes from: the port toward the root, or the root's own decision. -/
def State.downTake (s : State) (m : GMsg) : Option State :=
  if s.redRoot m.vch.val then s.redTake 5 m else s.redTake (min 4 (s.redOut m.vch.val)) m

/-- DOWN_LINE_ARRIVAL: a result line is checked, written and sent on. -/
def execDownLineArrival (m : GMsg) (s : State) : Host.Outcome State Fault Refusal :=
  let g := m.vch.val
  let i := tagBucket m
  let d := s.redDesc g i
  let wr := s.redLocal g && descOk (s.redArrival g) d
  .next (if !s.fw || m.ty != 8 || tagKind m != rkDown || s.redRoot g then s
    else if s.redStale m then (match s.downTake m with | some s1 => s1.dropStale m | none => s)
    else if wr && opensPiece d (tagLine m) && !s.engineTurn 1 then s.modBucket g i fun b => { b with asks := true }
    else
      match s.downTake m with
      | none => s
      | some s1 =>
        let s2 := s1.redSendDown g m
        if residue (payload m) != bits m.aux.toNat 0 8 then s2.residueFail g i (tagLine m)
        else if wr then
          ((if opensPiece d (tagLine m) then s2.takeGrants 1 64 1 else s2).modBucket g i fun b => { b with asks := false }).writeDown d (tagLine m) m.data
        else s2)

/-- A bucket's repeat at a participant: STATE 4, sending stops, and a step repeat is asked for; after a missed deadline the lanes of
the edges that the root names in MISSING are tested first (R263, R333 class 0x0B). -/
def State.bucketRepeat (s : State) (g i w reason : Nat) : State :=
  let s1 := s.redWrite g i [(320, 9, trExp w), (329, 5, trMargin w), (352, 8, 0), (384, 3, 4), (400, 16, reason)]
  let s2 := { s1 with
    inbox := s1.inbox.filter fun x => !(x.ty == 8 && x.vch.val == g && decide (tagKind x < 2))
    tile := { s1.tile with buckets := s1.tile.buckets.map fun (p : Nat × Bucket) =>
      (p.1, if p.1 / 4096 = g then { p.2 with converting := false } else p.2) } }
  let missing := (s.bucket g i).missing
  let s3 := ((s2.count Reg.RED_REPEAT_COUNT 1).redLast g i reason missing).showRed g
  if reason = 0x0405 then s3.requestRepeat reason
  else
    match (List.range 4).filter missing.testBit with
    | [] =>
      (s3.log { cls := 0x0B, action := if s.flag Reg.ERR_CFG_STEP_EN then 3 else 5, reason := reason, source := s.agentAddr 2
                detail := redDetail g i reason }).requestRepeat reason
    | es => es.foldl (fun s e => s.raise { s.perr 0x0B none (.edge (Fin.ofNat 4 e)) (s.agentAddr 2) with
        reason := reason, detail := redDetail g i reason }) s3

/-- A clean bucket at a participant: its descriptor, then its completion signal; one that names an absent cluster is logged with the object's
address and the full reference (R221). -/
def State.bucketDone (s : State) (g i w : Nat) : State :=
  let d := s.redDesc g i
  let clean := if trMargin w < dMargin d then 0 else if (s.grp g).counted.contains i then bits d 352 8 else min 255 (bits d 352 8 + 1)
  let s1 := s.redWrite g i [(288, 16, trHint w), (329, 5, trMargin w), (352, 8, clean), (384, 3, 3), (400, 16, 0), (480, 16, trCount w)]
  let s2 := (s1.modBucket g i fun b => { b with mine := false }).modGrp g fun x => { x with
    done := x.done ++ [i], counted := if x.counted.contains i then x.counted else x.counted ++ [i] }
  let sig : Sig := { ref := bits d 256 16, inc := (bits d 224 16 : Nat), src := s.agentAddr 2 }
  let s3 := if bits d 270 2 = 0 ∧ !s.live (bits d 216 6) then s2.logEvent 0x21 0x0807 (s.agentAddr 2) (s.unitAddr (bits d 216 6) 9 + bits d 256 16 * 2 ^ 32)
    else s2.deliver (bits d 216 6) sig
  (s3.count Reg.RED_DONE_COUNT 1).showRed g

/-- DOWN_TRAILER_ARRIVAL: the participant completes, repeats or abandons the bucket. -/
def execDownTrailerArrival (m : GMsg) (s : State) : Host.Outcome State Fault Refusal :=
  let g := m.vch.val
  let i := tagBucket m
  let w := (payload m).headD 0
  let reason := (payload m).getD 1 0 % 2 ^ 16
  .next (if !s.fw || m.ty != 8 || tagKind m != rkDownEnd then s
    else
      match s.downTake m with
      | none => s
      | some s1 =>
        if s.redStale m then s1.dropStale m
        else
          let s2 := if s.redRoot g then s1 else s1.redSendDown g m
          if residue (payload m) != bits m.aux.toNat 0 8 then
            let d := s.redDesc g i
            let s3 := (s2.residueFail g i 0).shut g i id
            if s.redLocal g then s3.bucketRepeat g i (bits d 320 9 * 2 ^ 32 + dMargin d * 2 ^ 41) 0x0405 else s3
          else
            let s3 := s2.shut g i id
            if !s.redLocal g then s3
            else if bits w 48 1 = 1 then s3.bucketAbandon g i reason
            else if bits w 47 1 = 1 then s3.bucketRepeat g i w reason
            else if (s.bucket g i).marked then s3.bucketRepeat g i w 0x0405
            else s3.bucketDone g i w)

/-! ## Step boundaries (R265, R322) -/

/-- The lines that the buckets of every group hold go. -/
def State.freeAll (s : State) (bs : List (Nat × Bucket)) : State := bs.foldl (fun s p => s.freeLines (p.1 / 4096) p.2.held) s

/-- ATTEMPT of every group, and NEXT 0. -/
def State.redAttempt (s : State) (attempt : Nat) : State :=
  (List.range 12).foldl (fun s i =>
    ((s.setFld (Reg.REDUCE_GST_ATTEMPT (i + 1)) attempt).setFld (Reg.REDUCE_GST_NEXT (i + 1)) 0).showRed (i + 1)) s

/-- A step repeat discards every bucket that is not DONE or ABANDONED (R265); sealing stays closed until the restart. -/
def State.redRepeat (s : State) (attempt : Nat) : State :=
  let s1 := { s with
    inbox := s.inbox.filter fun m => m.ty != 8
    tile := { s.tile with
      buckets := []
      grps := s.tile.grps.map fun (p : Nat × Grp) => (p.1, { p.2 with sealing := false, done := [] }) } }
  (s1.freeAll s.tile.buckets).redAttempt attempt

/-- The restart of a step repeat opens sealing in every group (R247). -/
def State.redRestart (s : State) : State := (List.range 12).foldl (fun s i => s.modGrp (i + 1) fun x => { x with sealing := true }) s

/-- STEP_BEGIN opens a step for every group. -/
def State.redBegin (s : State) : State :=
  let keep := s.tile.buckets.filter fun (p : Nat × Bucket) => p.2.mine
  let s1 := { s with tile := { s.tile with buckets := keep, grps := (List.range 12).map fun i => (i + 1, { sealing := true }) } }
  (s1.freeAll (s.tile.buckets.filter fun (p : Nat × Bucket) => !p.2.mine)).redAttempt 0

/-- Every enabled group with a local contribution has every bucket of the step DONE. -/
def State.allDone (s : State) : Bool :=
  (List.range 12).all fun i =>
    let g := i + 1
    !(s.redOn g && s.redLocal g)
      || (List.range (s.fld (Reg.REDUCE_GRP2_NBUCKET g))).all fun k => (s.grp g).done.contains k

/-- The reason of an abandoned bucket of the step. -/
def State.abandoned (s : State) : Option Nat := (List.range 12).findSome? fun i => (s.grp (i + 1)).aband

end Sys2Proof.Machine
end

