-- ==== Sys2Proof/Machine/Recovery.lean ====
section
/-! DEFINITION. Self-tests and the escalation ladder (R341 to R344, R350), step repeat (R347, R348), cluster swap (R20, R21, R349). -/

namespace Sys2Proof.Machine

/-! ## Windows and levels (R338, R344) -/

/-- A cluster's window can close: its tests have ended and its own recovery action has completed (R338): a step repeat counts where the
window has reached that level. -/
def State.canClose (s : State) (site : Nat) : Bool :=
  let r := s.tile.rep
  !(s.tile.errs.any fun e => e.site == some site) && !((s.cl site).slots.any fun (p : Nat × SlotSt) => p.2.replay)
    && (decide (s.fld (Reg.CL_ERR_STATUS_LEVEL site) ≤ 1) || (!r.asked && r.named.isNone && !r.rewound))

/-- Close a cluster's window; linked windows close together (R338, R350). -/
def State.closeWindow (s : State) (site : Nat) : State :=
  let group := site :: (s.cl site).linked
  if group.all s.canClose then
    group.foldl (fun s t =>
      let s1 := (s.setFld (Reg.CL_ERR_STATUS_WINDOW t) 0).setFld (Reg.CL_ERR_STATUS_LEVEL t) 0
      if (s1.cl t).linked.isEmpty then s1 else s1.modCl t fun c => { c with linked := [] }) s
  else s

/-- A recovering block of the cluster, discarded or in replay, holds a signal to an object. -/
def State.holdsSignal (s : State) (site : Nat) (o : Nat × Nat) : Bool :=
  s.fld (Reg.CL_ERR_STATUS_WINDOW site) != 0 && (s.cl site).slots.any fun (p : Nat × SlotSt) =>
    (p.2.replay || s.slotState site p.1 == slFault) && (p.2.owes.contains o || (s.aims p.2.blk).contains o)

/-- The objects on which the replays of a cluster wait. -/
def State.replayWaits (s : State) (site : Nat) : List (Nat × Nat) :=
  ((s.cl site).slots.filter fun (p : Nat × SlotSt) => p.2.replay).filterMap fun (p : Nat × SlotSt) =>
    match p.2.wait with
    | some (.object r _ _, _) => some (if bits r 14 2 = 1 then (64, r % 256) else (site, r % 64))
    | _ => none

/-- The windows of two clusters, and those linked with them, become linked. -/
def State.linkWindows (s : State) (a b : Nat) : State :=
  let group := (a :: (s.cl a).linked) ++ (b :: (s.cl b).linked)
  group.foldl (fun s t => (s.setFld (Reg.CL_ERR_STATUS_WINDOW t) 2).modCl t fun c => { c with
    linked := (group.filter (· != t)).eraseDups }) s

/-- At a mark, windows are linked where a replay waits on a signal that another cluster's recovering block holds (R350). -/
def State.linkReplays (s : State) (site : Nat) : State :=
  (s.replayWaits site).foldl (fun s o =>
    (s.liveSites.filter fun t => t != site && !(s.cl site).linked.contains t && s.holdsSignal t o).foldl (fun s t => s.linkWindows site t) s) s

/-- A job runs, and no JOB_STOP has ended its recovery. -/
def State.recovers (s : State) : Bool := decide (tsRunning ≤ s.ts) && decide (s.ts ≤ tsRecovering) && !s.job.stopping

/-- The live array of next higher number modulo 4 (R343). -/
def State.nextArr (s : State) (site a : Nat) : Option Nat :=
  ([1, 2, 3].map fun k => (a + k) % 4).find? fun b => !(s.fld (Reg.CL_RETIRED_UNITS site)).testBit (b + 1)

/-- A lasting fault of an array whose accumulator banks are in service can be carried by another array: the block is replayed there. With
STEP_EN 0 the swap that goes with it is tile FAILED (R341). -/
def State.redirects (s : State) (e : PErr) : Option (Nat × Nat) :=
  match e.unit, e.site with
  | .unit c u, some site =>
    if c.val = site ∧ 1 ≤ u.val ∧ u.val ≤ 4 ∧ !isVector site ∧ s.canSwap site = true ∧ s.flag Reg.ERR_CFG_STEP_EN ∧ e.blk ≠ 0 ∧ e.level ≤ 1
        ∧ (s.fld (Reg.CL_REDIRECT_ACC_OK site)).testBit (u.val - 1) then
      (s.nextArr site (u.val - 1)).map fun b => (u.val - 1, b)
    else none
  | _, _ => none

/-- The level that a lasting fault calls for (R343; log entry 95). -/
def State.lastingLevel (s : State) (e : PErr) : Nat :=
  match e.site, e.unit with
  | some site, .unit _ _ => if !s.canSwap site then 4 else if (s.redirects e).isSome then 1 else 3
  | some site, .bank _ _ => if s.canSwap site then 3 else 4
  | _, _ => 4

/-- The level of the action for an error whose test has ended (R335, R341, R344). -/
def State.actLevel (s : State) (e : PErr) (failed : Bool) : Nat :=
  let l0 := if failed then max e.level (s.lastingLevel e) else e.level
  let l1 := if l0 = 1 ∧ e.cls ≠ 0x0C ∧ e.blk = 0 then 2 else l0
  if 3 ≤ l1 ∧ !(e.site.any s.canSwap) then 4
  else if (l1 = 2 ∨ l1 = 3) ∧ !s.flag Reg.ERR_CFG_STEP_EN then 4
  else l1

/-- ACTION of the log entry (R355). -/
def actionCode (cls lvl : Nat) : Nat :=
  if lvl = 0 then 1 else if lvl = 1 then (if cls = 0x0C then 6 else 2) else lvl + 1

/-! ## Actions -/

/-- A unit is retired (R343); an array shows it (R151). -/
def State.retireUnit (s : State) (u : TestUnit) : State :=
  match u with
  | .unit c n =>
    let s1 := s.setFld (Reg.CL_RETIRED_UNITS c) (s.fld (Reg.CL_RETIRED_UNITS c) ||| 2 ^ n.val)
    if 1 ≤ n.val ∧ n.val ≤ 4 then s1.setFld (Reg.ARR_STATUS_STATE c (n.val - 1)) 5 else s1
  | .bank c b => s.setFld (Reg.CL_BANK_RET_BANKS c) (s.fld (Reg.CL_BANK_RET_BANKS c) ||| 2 ^ b.val)
  | _ => s

/-- The accumulator banks of an array that has a lasting fault failed their march: they are out of service (R343, R356; log
entry 92). -/
def State.accFails (s : State) (u : TestUnit) : State :=
  match u with
  | .unit c n =>
    if 1 ≤ n.val ∧ n.val ≤ 4 then
      let v := s.fld (Reg.CL_REDIRECT_ACC_OK c)
      s.setFld (Reg.CL_REDIRECT_ACC_OK c) (if v.testBit (n.val - 1) then v - 2 ^ (n.val - 1) else v)
    else s
  | _ => s

/-- Operations of array `a`, and those already redirected to it, go to array `b`. -/
def State.redirect (s : State) (site a b : Nat) : State :=
  let m := s.fld (Reg.CL_REDIRECT_MAP site)
  let m' := (List.range 4).foldl (fun v k => v + (if bits m (2 * k) 2 = a then b else bits m (2 * k) 2) * 2 ^ (2 * k)) 0
  s.setFld (Reg.CL_REDIRECT_MAP site) m'

/-- The discarded block of a slot is to start again at the first mark (R340). -/
def State.replay (s : State) (site n : Nat) : State :=
  if s.slotState site n ≠ slFault then s
  else
    let s1 := (s.count Reg.ERR_REPLAYS_COUNT 1).setSlotState site n slWait
    (s1.copyEntry site n (s1.fld (Reg.SLOT_STATUS_ENTRY site n))).modSlot site n fun x => { x with replay := true }

/-- Carry out the action for an error, and log it (R343, R344, R355). A repeat that it asks for carries the bucket's reason where a reduction
caused it, else 0 (R348). -/
def State.act (s : State) (e : PErr) (pass : Option Bool) : State :=
  let failed := pass = some false
  let job := s.recovers
  let lvl := s.actLevel e failed
  let action := if job then actionCode e.cls lvl else if e.cls = 0x02 then 1 else 0
  let s1 := s.log
    { cls := e.cls, action := action, test := (pass.map fun p => if p then 1 else 2).getD 0, slot := e.slot, reason := e.reason
      source := e.source, block := e.blockId, context := e.context, landing := e.landing, detail := e.detail
      at_ := some (e.beat, e.step, e.attempt) }
  let s2 := match e.site, pass with
    | some c, some true => s1.count (Reg.CL_ERR_COUNT_TRANSIENT c) 1
    | some c, some false => s1.count (Reg.CL_ERR_COUNT_LASTING c) 1
    | _, _ => s1
  let red := if failed then s.redirects e else none
  let s3 := if failed then s2.retireUnit e.unit else s2
  let s4 := match e.site with
    | some c => if s3.fld (Reg.CL_ERR_STATUS_LEVEL c) < lvl then s3.setFld (Reg.CL_ERR_STATUS_LEVEL c) lvl else s3
    | none => s3
  let s5 := match e.site, red with
    | some c, some (a, b) => (s4.redirect c a b).setFlag (Reg.CL_RETIRED_SWAP_PENDING c) true
    | _, _ => s4
  if !job then (e.site.map s5.closeWindow).getD s5
  else
    match lvl, e.site with
    | 0, some c => s5.closeWindow c
    | 1, some c => s5.replay c e.slot
    | 2, _ => s5.requestRepeat (if e.cls = 0x0A ∨ e.cls = 0x0B then e.reason else 0)
    | 3, some c => (s5.setFlag (Reg.CL_RETIRED_SWAP_PENDING c) true).requestRepeat 0
    | 0, none | 1, none => s5
    | _, _ => s5.fail 0x0217

/-! ## Self-tests (R328, R342, R343) -/

/-- Zero one accumulator bank of an array. -/
def State.zeroBank (s : State) (site a bank : Nat) : State :=
  s.modCl site fun c => { c with acc := c.acc.filter fun p => p.1 / 65536 != 2 * a + bank }

/-- The scan of a control core refills the block buffers of its slots (R342): a block in progress keeps its code's place. The registers of the
block that failed were restored from the shadow when it was discarded (R340); those of the other slots stand (log entry 105). -/
def State.refill (s : State) (site u : Nat) : State :=
  ((List.range 4).filter fun n => coreUnit site n == u).foldl (fun s n =>
    let x := s.slot site n
    if x.blk.id = 0 then (if x.copied then s.copyEntry site n x.next else s)
    else
      let off := bits (leNat (s.sliceGet site (s.fld (Reg.SLOT_TAB_BASE site n) * 16 + 16 * s.fld (Reg.SLOT_STATUS_ENTRY site n)) 16)) 0 32
      s.modSlot site n fun y => { y with buf := s.sliceGet site off y.buf.length }) s

/-- State that a test leaves: `whole` where a SELFTEST command ran it. -/
def State.testLeaves (s : State) (u : TestUnit) (whole : Bool) : State :=
  match u with
  | .unit c n =>
    if 1 ≤ n.val ∧ n.val ≤ 4 then
      let a := n.val - 1
      let s1 := (s.modArr c a fun x => { x with cells := [], k := 0, n := 0 }).setFlag (Reg.ARR_STATUS_WVALID c a) false
      let s2 := s1.zeroBank c a (s1.workBank c a)
      let s3 := if whole then s2.zeroBank c a (1 - s1.workBank c a) else s2
      let s4 := if s3.fld (Reg.ARR_STATUS_STATE c a) = 6 then s3.setFld (Reg.ARR_STATUS_STATE c a) 0 else s3
      s4.arrRest c a
    else if n.val = 0 ∨ n.val = 11 then s.refill c n.val
    else if n.val = 5 ∨ n.val = 6 then
      (if s.fld (Reg.VE_STATUS_STATE c (n.val - 5)) = 6 then s.setFld (Reg.VE_STATUS_STATE c (n.val - 5)) 0 else s)
    else s
  | .bank c b =>
    if whole then s.modCl c fun x => { x with
      slice := x.slice.filter fun p => bankOf c p.1 != b.val
      ecc := x.ecc.filter fun p => bankOf c (8 * p.1) != b.val }
    else s.modCl c fun x => { x with ecc := x.ecc.filter fun p => bankOf c (8 * p.1) != b.val || p.2 != 1 }
  | .edge e => if (s.edge e).test = 0 then s else s.trainAgain e
  | .vport p =>
    if s.tile.portTest.getLsbD p then
      let s1 := { s with tile := { s.tile with portTest := s.tile.portTest &&& ~~~(1#8 <<< p.val) } }
      (if s1.fld (Reg.VPORT_STATUS_STATE p) = 2 then s1.setFld (Reg.VPORT_STATUS_STATE p) 1 else s1).showRemap
    else s
  | .adder => s

/-- What a test found wrong in an edge or a port, which is handled as at training (R391, R397, R401): a lane that fails is left to the
retraining; a pair with one good wire runs on it, and a pair with none takes its port DOWN. -/
def State.testFinds (s : State) (u : TestUnit) (r : TestEnd) : State :=
  match u, r with
  | .edge e, .lanes bad => s.modEdge e fun x => { x with train := { x.train with bad := x.train.bad ||| bad } }
  | .vport p, .pairs n dead =>
    let s1 := s.setFld (Reg.VPORT_STATUS_SINGLE p) (min 4352 (s.fld (Reg.VPORT_STATUS_SINGLE p) + n.toNat))
    if dead then
      ({ s1 with tile := { s1.tile with portTest := s1.tile.portTest &&& ~~~(1#8 <<< p.val) } }.setFld (Reg.VPORT_STATUS_STATE p) 0).showRemap
    else s1
  | _, _ => s

/-- The unit that a SELFTEST command names (R315). -/
def testOf (kind index unit : Nat) : Option TestUnit :=
  match kind with
  | 0 => some (.unit (Fin.ofNat 64 index) (Fin.ofNat 16 unit))
  | 1 => if unit < 4 then some (.edge (Fin.ofNat 4 unit)) else none
  | 2 => if unit < 8 then some (.vport (Fin.ofNat 8 unit)) else none
  | _ => none

/-- The unit that a SELFTEST command in flight names. -/
def Flight.unitTested (f : Flight) : Option TestUnit := testOf (f.p 10 2) (f.p 0 6) (f.p 6 4)

/-- The end of a SELFTEST command, or of the monitor's (R328, R437). -/
def State.testCommandEnd (s : State) (u : TestUnit) (pass : Bool) : State :=
  match s.flights.find? fun f => f.opcode == 0x51 && f.phase == .running && f.unitTested == some u with
  | some f =>
    let sig := (Config.testSignature (f.param % 2 ^ 12) s.free).toNat
    let s1 := { s.testLeaves u true with free := s.free + 1 }
    if pass then s1.complete f stOk 0 0 else s1.complete f stFaultAbandoned 0x0213 sig
  | none =>
    if s.mon.test = some u then
      let s1 := s.testLeaves u true
      let s2 := { s1 with mon := { s1.mon with test := none } }
      if pass then s2.sayOk else s2.sayErr 0x0213
    else s

/-- What waited for a unit under test goes on: the code of slots and the transposer's line. -/
def State.testGoesOn (s : State) (u : TestUnit) : State :=
  match u with
  | .bank c _ =>
    ((List.range 4).foldl (fun s n => if (s.slot c n).toCopy then s.copyEntry c n (s.slot c n).next else s) s).xlineRun c
  | .unit c n => if n.val = 8 then s.xlineRun c else s
  | _ => s

/-- The test of a unit ends: the errors that wait for it are acted on, and the command that asked for it completes. -/
def State.selftestDone (s : State) (u : TestUnit) (r : TestEnd) : State :=
  let pass := decide (r = .pass)
  let mine (e : PErr) : Bool := e.unit == u && e.ready
  let due := s.tile.errs.filter mine
  let s0 := s.testFinds u r
  let s1 := if due.isEmpty then s0
    else
      let s2 := { s0 with tile := { s0.tile with errs := s0.tile.errs.filter fun e => !mine e } }
      let s3 := s2.testLeaves u false
      (due.foldl (fun s e => s.act e (some pass)) (if r = .fail false then s3.accFails u else s3)).testGoesOn u
  s1.testCommandEnd u pass

/-! ## Step repeat at the root (R347, R348) -/

/-- The step barrier. -/
def State.stepBarrier (s : State) : Nat := s.fld Reg.ERR_CFG_STEP_BAR

/-- Low bits of the beat that a broadcast of the step barrier's root names. -/
def State.lagBeat (s : State) : Nat := (s.beatLow + s.fld (Reg.BAR_CFG_LAG s.stepBarrier)) % 2 ^ 16

/-- Every tile that shares the step barrier. -/
def State.sharers (s : State) : List Nat := s.hearers s.stepBarrier (s.node s.stepBarrier nRoot).members

/-- REPEAT_REQUEST: a request that a CONTROL message brought reaches the root. -/
def execRepeatRequest (step : Word) (attempt : Fin 4) (gen : BitVec 16) (s : State) : Host.Outcome State Fault Refusal :=
  let b := s.stepBarrier
  let msg (m : GMsg) : Bool := cmSub m == cmRequest && cmBar m == b + attempt.val * 64 && cmGen m == gen.toNat && cmVal m == step.toNat
  .next (if !s.fw || !s.flag Reg.ERR_CFG_STEP_EN || !s.holdsRoot b then s
    else
      match s.ctlWaits msg with
      | none => s
      | some m =>
      let who := cmFrom m
      let s1 := s.takeCtlMsg m
      let root := s.node b nRoot
      let d := (root.gen + 2 ^ 16 - gen.toNat) % 2 ^ 16
      let cur := match s.tile.rep.granted with
        | some (st, a) => if st = step.toNat then a else s.fld Reg.ERR_STEP_ATTEMPT
        | none => s.fld Reg.ERR_STEP_ATTEMPT
      if (d ≠ 0 ∧ d < 2 ^ 15) ∨ (d = 0 ∧ root.sent = true) then
        (s1.logEvent 0x23 0 (s.agentAddr 1) (b + gen.toNat * 2 ^ 16 + step.toNat * 2 ^ 32)).tell [who] cmAbandon b gen.toNat 0
      else if attempt.val < cur then s1
      else if s.fld Reg.ERR_CFG_REPEAT_MAX ≤ attempt.val then s1.tell s.sharers cmAbandon b gen.toNat 0
      else
        let s2 := s1.tell s.sharers cmRepeat b gen.toNat (s.lagBeat + (attempt.val + 1) * 2 ^ 16)
        { s2 with tile := { s2.tile with rep := { s2.tile.rep with granted := some (step.toNat, attempt.val + 1), arrived := [] } } })

/-- RESTART_ARRIVAL, which a CONTROL message brought: once every tile has arrived for the attempt that the root has granted last, it broadcasts
the release; an arrival of an attempt that a later repeat has ended counts for nothing. -/
def execRestartArrival (tile : Fin 8) (s : State) : Host.Outcome State Fault Refusal :=
  let b := s.stepBarrier
  let msg (m : GMsg) : Bool := cmSub m == cmRestart && cmBar m == b && cmFrom m % 8 == tile.val
  .next (if !s.fw || !s.flag Reg.ERR_CFG_STEP_EN || !s.holdsRoot b then s
    else
      match s.ctlWaits msg with
      | none => s
      | some m =>
      let who := cmFrom m
      let s1 := s.takeCtlMsg m
      let here := if s1.tile.rep.arrived.contains who then s1.tile.rep.arrived else s1.tile.rep.arrived ++ [who]
      let cur := (s1.tile.rep.granted.map (·.2)).getD (s1.fld Reg.ERR_STEP_ATTEMPT)
      let set_ (l : List Nat) (s : State) : State := { s with tile := { s.tile with rep := { s.tile.rep with arrived := l } } }
      if cmVal m ≠ cur then s1
      else if s.expected b nRoot ≤ here.length then
        (set_ [] s1).tell s.sharers cmRelease b (s.node b nRoot).gen s.lagBeat
      else set_ here s1)

/-! ## Step repeat at a tile (R347) -/

/-- REPEAT_RECEIPT: the repeat that a CONTROL message brought waits for its beat; in PAUSED it is held. -/
def execRepeatReceipt (beat : BitVec 16) (attempt : Fin 4) (s : State) : Host.Outcome State Fault Refusal :=
  let msg (m : GMsg) : Bool := cmSub m == cmRepeat && cmVal m == beat.toNat + attempt.val * 2 ^ 16
  .next (match (if s.fw && s.recovers then s.ctlWaits msg else none) with
    | none => s
    | some m =>
      let s1 := s.takeCtlMsg m
      { s1 with tile := { s1.tile with rep := { s1.tile.rep with named := some (beat.toNat, attempt.val) } } })

/-- An uncommitted block is discarded as one that fails its checks (R321): at once, or when its last operation ends. -/
def State.dropBlock (s : State) (site n : Nat) : State :=
  if (s.slot site n).blk.id = 0 then s
  else ((s.modBlk site n fun b => { b with failed := true }).setSlotState site n slFault).settle site n

/-- Discard every uncommitted block and cancel every stream context (R321, R347). -/
def State.dropWork (s : State) : State :=
  s.liveSites.foldl (fun s t =>
    let s1 := (List.range 4).foldl (fun s n => s.dropBlock t n) s
    ((s1.cl t).ctxs.map fun (p : Nat × Ctx) => p.1).foldl (fun s d => s.cancelCtx t d) s1) s

/-- Rewind (R347, step 3): what a tile does at once; an edge that is LOST trains again (R391). -/
def State.rewind (s : State) (attempt : Nat) : State :=
  let reason := s.tile.rep.reason
  let s1 := if s.ts = tsRunning ∨ s.ts = tsPaused then s.enter tsRecovering else s
  let s2 := (s1.setFld Reg.TILE_STATE_REASON reason).setFld Reg.ERR_STEP_ATTEMPT attempt
  let s3 := ((s2.setFlag Reg.ERR_STEP_REPEATING true).count Reg.ERR_STEP_REPEATS 1).redRepeat attempt
  let s4 := s3.dropWork
  let s5 := s4.liveSites.foldl (fun s t => (s.landClear t).modCl t fun c => { c with sends := [], hops := [] }) s4
  let s6 := ((List.range 4).filter fun e => s.fld (Reg.LINK_STATUS_STATE e) == 4).foldl (fun s e => s.trainStart e) s5
  let stale (m : GMsg) : Bool := m.ty == 7 && (cmSub m == cmArrive || cmSub m == cmDataRelease || cmSub m == cmRelease)
  ({ s6 with
    inbox := s6.inbox.filter fun m => !stale m
    job := { s6.job with repeatReason := reason }
    tile := { s6.tile with
      rels := [], arrivals := [], held := [], swapping := false
      rep := { s5.tile.rep with named := none, asked := false, rewound := true, ready := false, resume := false, reason := 0 } } } : State).showVcqs

/-- REPEAT_APPLY: the last ACLK cycle of beat B − 1. -/
def execRepeatApply (s : State) : Host.Outcome State Fault Refusal :=
  .next (match s.tile.rep.named with
    | some (beat, attempt) =>
      if s.fw && s.recovers && s.ts != tsPaused && decide (s.passed beat < 2 ^ 15) then s.rewind attempt else s
    | none => s)

/-- Every unit of a cluster is idle; a STORE that met an error never completes. -/
def Cluster.idle (c : Cluster) : Bool :=
  c.slots.all (fun p => p.2.blk.id == 0) && c.arrs.all (fun p => p.2.queue.isEmpty && p.2.runs.isEmpty && p.2.inits.isEmpty)
    && c.engs.all (fun p => p.2.queue.isEmpty && p.2.cur.isNone) && c.fills.isEmpty && c.xcopies.isEmpty
    && c.ctxs.all fun p => p.2.xfers.all fun x => x.bad

/-- Every unit of the tile's clusters is idle. -/
def State.unitsIdle (s : State) : Bool := s.liveSites.all fun t => (s.cl t).idle

/-- A slot of a snapshot: a block in progress starts again at its own entry. -/
def SlotSt.calm (x : SlotSt) : SlotSt :=
  let y := if x.blk.id = 0 then x else { x with x := x.shX, y := x.shY, late := false, lateBar := none }
  { y with blk := {}, wait := none, stallOn := none, ended := false, resv := none, replay := false }

/-- Restore one slot; its counter and what has been logged of it stand (R334, R346). -/
def State.restoreSlot (s : State) (site n : Nat) (x : SlotSt) : State :=
  let s1 := s.modSlot site n fun y => { x.calm with missLog := y.missLog, trips := y.trips, instret := y.instret }
  let st := s1.slotState site n
  let s2 := if x.blk.id = 0 then s1
    else
      ((s1.setFld (Reg.SLOT_STATUS_ENTRY site n) x.shEntry).setFld (Reg.SLOT_VL_VL site n 0) x.shVl.1).setFld
        (Reg.SLOT_VL_VL site n 1) x.shVl.2
  if st = slIdle ∨ st = slHalt then s2
  else
    let s3 := s2.setSlotState site n slWait
    s3.copyEntry site n (if st = slWait then (s3.slot site n).next else s3.fld (Reg.SLOT_STATUS_ENTRY site n))

/-- Restore the snapshot of the step. -/
def State.restoreSnap (s : State) : State :=
  match s.tile.snap with
  | none => s
  | some p =>
    let s1 := p.regs.foldl (fun s e => s.wr e.1 e.2) (s.resetWhere inSnap)
    let s2 := { s1 with
      clusters := s1.clusters.map fun (q : Nat × Cluster) => (q.1, { q.2 with slots := q.2.slots.map fun (x : Nat × SlotSt) =>
        (x.1, ({ missLog := x.2.missLog, trips := x.2.trips, instret := x.2.instret } : SlotSt)) })
      tile := { s1.tile with nodes := p.nodes } }
    let s3 := p.slots.foldl (fun s e => s.restoreSlot e.1 e.2.1 e.2.2) s2
    ((List.range 64).filter fun b => s3.flag (Reg.BAR_CFG_EN b)).foldl (fun s b => s.showBar b) s3

/-- The byte that the job image places at a control-space offset; of a section with FIXED its last word stays (R317). -/
def State.imageByte (s : State) (o : Nat) : Option Byte :=
  ((s.job.image.filter fun c => decide (c.dest ≤ o) && decide (o < c.dest + (if c.fixed then min 4 c.bytes else c.bytes))).getLast?).map fun c =>
    memGet s.pkgMem (c.src + (if c.fixed then c.bytes - 4 else 0) + (o - c.dest))

/-- The scratchpad window of a site (R31). -/
def window (site : Nat) : Nat := 0x10000000 + site * 0x1000000

/-- Restore the damaged words that the job image placed (R345, R347). -/
def State.mendCluster (s : State) (site : Nat) : State :=
  ((s.cl site).ecc.filter fun w => 2 ≤ w.2).foldl (fun s w =>
    let bs := (List.range 8).map fun i => s.imageByte (window site + 8 * w.1 + i)
    if bs.all Option.isSome then
      s.modCl site fun c => { c with slice := memWrite c.slice (8 * w.1) (bs.map fun b => b.getD 0), ecc := Store.drop c.ecc w.1 }
    else s) s

/-- RESTART_READY: every unit is idle, no swap is pending and no test runs: the tile restores its snapshot and sends its restart
arrival. -/
def execRestartReady (s : State) : Host.Outcome State Fault Refusal :=
  .next (if s.fw && s.recovers && s.tile.rep.rewound && !s.tile.rep.ready && s.unitsIdle && !s.swapPending && s.tile.errs.isEmpty then
      let s1 := s.liveSites.foldl (fun s t => (s.landClear t).mendCluster t) s
      let s2 := s1.restoreSnap.redRestart
      let s3 := { s2 with tile := { s2.tile with rep := { s2.tile.rep with ready := true } } }
      s3.send (s3.ctlMsg (s3.barRoot s.stepBarrier) cmRestart s.stepBarrier 0 (s3.fld Reg.ERR_STEP_ATTEMPT))
    else s)

/-- STEP_ABANDON: a CONTROL message brings the abandonment (R348). -/
def execStepAbandon (s : State) : Host.Outcome State Fault Refusal :=
  .next (match (if s.fw && s.recovers then s.ctlWaits fun m => cmSub m == cmAbandon else none) with
    | some m => (s.takeCtlMsg m).fail 0x0217
    | none => s)

/-! ## Cluster swap (R20, R21, R349) -/

/-- Bits of a word that a substitution carries to the spare: the RW fields of JOB and TILE scope, and what shows its slots. -/
def carried (o : Nat) : Nat :=
  if inSnap o then 2 ^ 32 - 1
  else match regInfo o with
    | some i => if i.scope = .job ∨ i.scope = .tile then i.acc.rw else 0
    | none => 0

/-- The offsets of a cluster block's JOB- and TILE-scope words. -/
def inBlock (site o : Nat) : Bool :=
  decide (clBlk site ≤ o) && decide (o < clBlk site + 0x10000) && (hasScope .job o || hasScope .tile o)

/-- The slice that the job image gives a site. -/
def State.imageSlice (s : State) (site : Nat) : List Host.Cell :=
  let in_ (c : Section) : Bool := decide (window site ≤ c.dest) && decide (c.dest < window site + 0x1000000)
  (s.job.image.filter in_).foldl (fun m c =>
    let last := if c.fixed then min 4 c.bytes else c.bytes
    memWrite m (c.dest - window site) (memRead s.pkgMem (c.src + (c.bytes - last)) last)) []

/-- `REGION_MAP` and `CL_INFO` of both sites change as one. -/
def State.remap (s : State) (site spare : Nat) : State :=
  let r := site / 8
  let cols := [Reg.REGION_MAP_MCOL0 r, Reg.REGION_MAP_MCOL1 r, Reg.REGION_MAP_MCOL2 r, Reg.REGION_MAP_MCOL3 r, Reg.REGION_MAP_MCOL4 r]
  let s1 := match cols.find? fun f => s.fld f == site % 8 with
    | some f => s.setFld f (spare % 8)
    | none => s
  let s2 := ((s1.setFld (Reg.REGION_MAP_OUT_COL r) (site % 8)).setFlag (Reg.REGION_MAP_SWAPPED r) true).setFlag (Reg.REGION_MAP_NO_SPARE r) true
  let s3 := (s2.setFld (Reg.CL_INFO_LOGICAL spare) (s.fld (Reg.CL_INFO_LOGICAL site))).setFlag (Reg.CL_INFO_ACTIVE spare) true
  (s3.setFlag (Reg.CL_INFO_ACTIVE site) false).setFlag (Reg.CL_INFO_RETIRED site) true

/-- A barrier node's key and participants after a substitution. -/
def moveNode (site spare : Nat) (p : Nat × Node) : Nat × Node :=
  let m (l : List Nat) : List Nat := l.map fun w => if w = site then spare else w
  if p.1 % 128 = site then (p.1 / 128 * 128 + spare, p.2)
  else if p.1 % 128 = nRegion + site / 8 then
    (p.1, { p.2 with inCur := m p.2.inCur, inNext := m p.2.inNext, ahead := p.2.ahead.map fun a => (a.1, if a.2 = site then spare else a.2) })
  else p

/-- The barrier nodes after a substitution, in order of key. -/
def moveNodes (site spare : Nat) (l : Store Node) : Store Node :=
  (l.map (moveNode site spare)).foldl (fun m p => Store.put m p.1 p.2) []

/-- A word's offset after a substitution. -/
def moveOff (site spare o : Nat) : Nat :=
  if clBlk site ≤ o ∧ o < clBlk site + 0x10000 then o - clBlk site + clBlk spare else o

/-- A snapshot after a substitution. -/
def Snap.moved (p : Snap) (site spare : Nat) : Snap :=
  { regs := (p.regs.map fun e => (moveOff site spare e.1, e.2)).foldl (fun m e => Store.put m e.1 e.2) []
    slots := p.slots.map fun e => (if e.1 = site then spare else e.1, e.2)
    nodes := moveNodes site spare p.nodes }

/-- Substitute the spare of the region for a site (R20, R349). -/
def State.swapSite (s : State) (site : Nat) : State :=
  let spare := site / 8 * 8 + s.fld (Reg.REGION_MAP_OUT_COL (site / 8))
  let words := (s.regs.filter fun e => inBlock site e.1).map fun e => (moveOff site spare e.1, e.2 &&& BitVec.ofNat 32 (carried e.1))
  let old := s.cl site
  let s1 := ((s.setFlag (Reg.CL_RETIRED_SWAP_PENDING site) false).resetWhere fun o => inBlock spare o || inBlock site o).remap site spare
  let s2 := words.foldl (fun s e =>
    s.wr e.1 ((resetWord s.dev e.1 &&& ~~~(BitVec.ofNat 32 (carried e.1))) ||| e.2)) s1
  let fresh : Cluster := { slice := s.imageSlice site, pstore := old.pstore, recs := old.recs, nextOp := old.nextOp, nextBlk := old.nextBlk }
  let s3 := (s2.setCl site { slice := [] }).setCl spare fresh
  let s4 := { s3 with tile := { s3.tile with
    nodes := moveNodes site spare s3.tile.nodes, snap := s3.tile.snap.map fun p => p.moved site spare
    arrivals := s3.tile.arrivals.map fun a => { a with
      node := if a.node = site then spare else a.node
      who := if a.node = nRegion + site / 8 ∧ a.who = site then spare else a.who } } }
  old.slots.foldl (fun s (p : Nat × SlotSt) => s.restoreSlot spare p.1 p.2) s4

/-- CLUSTER_SWAP: at the step boundary, or in a rewound tile whose cluster is idle. -/
def execClusterSwap (s : State) : Host.Outcome State Fault Refusal :=
  let due (t : Nat) : Bool := s.flag (Reg.CL_RETIRED_SWAP_PENDING t)
    && (s.tile.swapping || (s.tile.rep.rewound && (s.cl t).idle && !(s.tile.errs.any fun e => e.site == some t)))
  .next (match (if s.fw && s.recovers then s.liveSites.find? due else none) with
    | none => s
    | some t =>
      if !s.canSwap t then s.fail 0x0217
      else
        let s1 := s.swapSite t
        if s1.tile.swapping && !s1.swapPending then
          let s2 := { s1 with tile := { s1.tile with swapping := false } }
          let s3 := if s2.ts = tsRecovering ∧ !s2.tile.rep.rewound then s2.enter tsRunning else s2
          (s3.nodeUp s.stepBarrier nDie).showBar s.stepBarrier
        else s1)

end Sys2Proof.Machine
end

