-- ==== Sys2Proof/Machine/Beat.lean ====
section
/-! DEFINITION. Marks (R36 to R41, R336), the local mark and what it counts (R56, R57, R226, R351), block starts and commits (R44 to
R48, R57, R231), the watchdogs (R235, R351), and what the clock counts when no command waits. -/

namespace Sys2Proof.Machine

/-! ## Marks (R37 to R40, R336) -/

/-- A mark symbol on its way down the tree: KIND 1, the beat's number and stretch (layout: log entry 21). -/
def markSym (num stretch : Nat) : Word := BitVec.ofNat 32 (1 + num % 2 ^ 16 * 4 + stretch % 16 * 2 ^ 18)

/-- A mark goes before every other symbol that waits (R384). -/
def markFirst (v : Word) (l : List Word) : List Word :=
  let mark (w : Word) : Bool := w.toNat % 4 == 1
  l.takeWhile mark ++ [v] ++ l.dropWhile mark

/-- Send a mark on every edge of `LINK_BEAT.DOWN` (R38). -/
def State.relay (s : State) (v : Word) : State :=
  ((List.range 4).filter (s.fld Reg.LINK_BEAT_DOWN).testBit).foldl (fun s e => s.modEdge e fun x => { x with lsym := markFirst v x.lsym }) s

/-- The tile takes part in the beat: a job runs, or its first mark has been named. -/
def State.marked (s : State) : Bool :=
  s.alive && ((s.ts == tsJobLoaded && s.job.starting) || (decide (tsRunning ≤ s.ts) && decide (s.ts ≤ tsRecovering) && s.beat.started))

/-- MARK_ISSUE: the beat master's period has passed. The mark carries the largest stretch request that came early enough (R364). -/
def execMarkIssue (s : State) : Host.Outcome State Fault Refusal :=
  let n := (s.beatLow + 1) % 2 ^ 16
  .next (if s.marked && s.flag Reg.BEAT_CFG_MASTER && s.beat.armed.isNone && !s.beat.lost then
      ({ s with beat := { s.beat with armed := some (n, s.markStretch) } } : State).relay (markSym n s.markStretch)
    else s)

/-- A beat-loss error (R40): no local mark fires until the resynchronisation. -/
def State.loseBeat (s : State) (got : Option Nat) : State :=
  let up := s.fld Reg.LINK_BEAT_UP
  let detail := (s.beatLow + 1) % 2 ^ 16 + (got.getD 0) * 2 ^ 16 + got.isNone.toNat * 2 ^ 32
  let s1 := { s with beat := { s.beat with lost := true, armed := none, cand := none } }
  s1.raise { s1.perr 0x0C none (.edge (Fin.ofNat 4 up)) (s.agentAddr (0x10 + up % 4)) with detail := detail }

/-- MARK_RECEIPT: the mark is relayed; it arms the local mark, raises a beat loss, or resynchronises. -/
def execMarkReceipt (num : BitVec 16) (st : Fin 16) (onTime : Bool) (s : State) : Host.Outcome State Fault Refusal :=
  let arm (s : State) : State := { s with beat := { s.beat with armed := some (num.toNat, st.val), lost := false, cand := none } }
  let waits := s.ts == tsJobLoaded && s.flights.any fun f => f.opcode == 0x11 && f.phase == .running
  .next (if !s.fw || s.flag Reg.BEAT_CFG_MASTER then s
    else
      let sym := markSym num.toNat st.val
      let s1 := (s.takeSym (s.fld Reg.LINK_BEAT_UP) fun v => v == sym).relay sym
      if waits then (if num = 1 then { arm s1 with job := { s1.job with starting := true } } else s1)
      else if !s1.marked then s1
      else if s1.beat.lost then
        let pair := s1.beat.cand == some num.toNat
        if !onTime then { s1 with beat := { s1.beat with cand := none } }
        else if pair then arm s1
        else { s1 with beat := { s1.beat with cand := some num.toNat } }
      else if onTime && num.toNat == (s1.beatLow + 1) % 2 ^ 16 then arm s1
      else s1.loseBeat (some num.toNat))

/-- BEAT_LOSS: no mark within 64 ACLK cycles of the expected time. -/
def execBeatLoss (s : State) : Host.Outcome State Fault Refusal :=
  .next (if s.marked && s.beat.started && !s.flag Reg.BEAT_CFG_MASTER && s.beat.armed.isNone && !s.beat.lost then s.loseBeat none else s)

/-- RESYNC_TIMEOUT (R336). -/
def execResyncTimeout (s : State) : Host.Outcome State Fault Refusal :=
  .next (if s.alive && s.beat.lost then s.fail 0x0217 else s)

/-! ## What a mark counts -/

/-- A feed's stall has lasted one more mark. -/
def aged (x : Option (Nat × Nat)) : Option (Nat × Nat) := x.map fun p => (p.1, p.2 + 1)

/-- A context's waits have lasted one more mark (R226). -/
def State.ageCtx (s : State) (site d : Nat) (c : Ctx) : Ctx :=
  { c with
    act := c.act.map fun a => if a.marks.isEmpty then a else { a with waited := a.waited + 1 }
    stall := match s.ctxWaits site d with
      | some l => if (c.stall.map fun p => p.1 == l).getD false then aged c.stall else some (l, 1)
      | none => none }

/-- Every wait of a cluster's units has lasted one more mark (R226). -/
def State.ageCluster (s : State) (site : Nat) : State :=
  s.modCl site fun c => { c with
    slots := c.slots.map fun (p : Nat × SlotSt) => (p.1, { p.2 with wait := p.2.wait.map fun w => (w.1, w.2 + 1) })
    arrs := c.arrs.map fun (p : Nat × Arr) => (p.1, { p.2 with stall := aged p.2.stall })
    engs := c.engs.map fun (p : Nat × Eng) => (p.1, { p.2 with stall := aged p.2.stall })
    ctxs := c.ctxs.map fun (p : Nat × Ctx) => (p.1, s.ageCtx site p.1 p.2) }

/-- The waits of every unit and of every arrival held at a link. -/
def State.ageWaits (s : State) : State :=
  let s1 := s.liveSites.foldl (fun s t => s.ageCluster t) s
  { s1 with tile := { s1.tile with held := s1.tile.held.map fun h => { h with marks := h.marks + 1 } } }

/-- Beats that draining banks have waited (R215). -/
def State.ageBanks (s : State) (site : Nat) : State :=
  ((List.range (bankCount site)).filter fun b => s.fld (Reg.BANK_STATE_POWER site b) == 1).foldl
    (fun s b => s.count (Reg.BANK_STATE_WAITED site b) 1) s

/-- Beats that partial batches have waited (R69). -/
def State.ageBatches (s : State) (site : Nat) : State :=
  ((List.range 4).filter fun a => !(s.arr site a).batch.isEmpty).foldl (fun s a => s.count (Reg.BATCH_STATUS_WAITED site a) 1) s

/-- The cluster watchdog's count (R351). -/
def State.ageWdog (s : State) (site : Nat) : State :=
  s.modCl site fun c =>
    let held := c.slots.any fun (p : Nat × SlotSt) => !p.2.holdBar.isEmpty
    { c with wdog := if held && !c.committed then c.wdog + 1 else 0, committed := false }

/-- Read, write and forward shares of a pattern (R210). -/
def shares (p : Nat) : List Nat :=
  match p with
  | 0 => [7, 7, 2] | 1 => [8, 6, 2] | 2 => [6, 8, 2] | 3 => [8, 8, 0] | 4 => [8, 4, 4] | 5 => [4, 4, 8] | 6 => [6, 4, 6] | _ => [5, 5, 6]

/-- The grants of a new beat. -/
def State.newGrants (s : State) : State :=
  let g := s.fld Reg.MEM_SPLIT_GRANTS
  { s with tile := { s.tile with grants := (shares (s.fld Reg.MEM_SPLIT_PATTERN)).zipIdx.map fun p => (p.2, p.1 * g / 16) } }

/-! ## Misses (R56, R57) -/

/-- A block that has not committed at a mark. -/
def State.uncommitted (s : State) (site n : Nat) : Bool :=
  let st := s.slotState site n
  (s.slot site n).blk.id != 0 && (st == slRun || st == slStall || st == slCommit || st == slLate || st == slHalt)

/-- A slot's block has not committed at the mark: a miss in real-time mode, but of a replay (R340), LATE in throughput mode. The entry's beat
number is that of the beat that ends (log entry 82); a slot halted for the debugger shows HALTED. -/
def State.missed (s : State) (site n : Nat) : State :=
  let x := s.slot site n
  if !s.uncommitted site n || s.ts == tsPaused then s
  else if s.flag Reg.BEAT_CFG_MODE then
    let s1 := s.modSlot site n fun x => { x with late := true }
    if s.slotState site n = slHalt then s1 else s1.setSlotState site n slLate
  else if x.replay || x.blk.missed then s
  else
    let s1 := (s.count Reg.BEAT_MISS_COUNT_MISSES 1).count (Reg.SLOT_MISSES_MISSES site n) 1
    let s2 := s1.wr64 Reg.BEAT_MISS_LAST (site + n * 2 ^ 6 + 2 ^ 8 + x.blk.blockId % 2 ^ 32 * 2 ^ 32)
    let s3 := s2.modSlot site n fun x => { x with blk := { x.blk with missed := true }, missLog := true }
    if x.missLog then s3
    else s3.log { cls := 0x22, slot := n, source := s.unitAddr site (coreUnit site n), block := x.blk.blockId, detail := s.beatLow }

/-! ## Starting a block (R44 to R46, R57) -/

/-- Start the block whose code stands in a slot's buffer. -/
def State.startBlock (s : State) (site n : Nat) : State :=
  let x := s.slot site n
  let id := (s.cl site).nextBlk
  let vl := (s.fld (Reg.SLOT_VL_VL site n 0), s.fld (Reg.SLOT_VL_VL site n 1))
  let s1 := ((s.leave site n).modCl site fun c => { c with nextBlk := id + 1 }).modSlot site n fun y => { y with
    pc := 0, copied := false, wait := none, stallOn := none, ended := false, shX := x.x, shY := x.y, shVl := vl, shEntry := x.next
    blk := { id := id, blockId := x.entId, last := x.entLast } }
  let s2 := ((s1.setFld (Reg.SLOT_STATUS_ENTRY site n) x.next).setFld (Reg.SLOT_STATUS_TRAP site n) 0).showSlot site n slRun
  if x.entTrap = 0 then s2 else s2.trap site n x.entTrap

/-- The tile starts blocks: it runs, and no pause, stop, step repeat or beat loss holds them. -/
def State.startsBlocks (s : State) : Bool :=
  s.alive && s.ts == tsRunning && !s.job.pausing && !s.job.stopping && !s.tile.rep.asked && !s.tile.rep.rewound && !s.beat.lost

/-- The slot takes part in the job (R55). -/
def State.slotUsed (s : State) (site n : Nat) : Bool := s.flag (Reg.SLOT_CFG_EN site n) && s.fld (Reg.SLOT_CFG_ENTRIES site n) != 0

/-- The slot waits for a mark with its code in the buffer, and no barrier holds it. -/
def State.waitsMark (s : State) (site n : Nat) : Bool :=
  s.live site && s.slotUsed site n && s.slotState site n == slWait && (s.slot site n).copied && (s.slot site n).holdBar.isEmpty

/-- LATE_BLOCK_START. -/
def execLateBlockStart (site : Site) (n : SlotId) (s : State) : Host.Outcome State Fault Refusal :=
  .next (if s.startsBlocks && s.waitsMark site n && (s.slot site n).late then s.startBlock site n else s)

/-! ## The local mark (R39) -/

/-- `BEAT_COUNT` after the mark of beat `num`: one more, or its low 16 bits replaced after a loss (R336). -/
def beatAfter (bc num : Nat) : Nat := bc - bc % 2 ^ 16 + num + (if num < bc % 2 ^ 16 then 2 ^ 16 else 0)

/-- A command of an opcode in progress completes. -/
def State.completeOp (s : State) (op status reason : Nat) (detail : Nat) : State :=
  (s.flights.filter fun f => f.opcode == op && f.phase == .running).foldl (fun s f => s.complete f status reason detail) s

/-- The mark enters RUNNING: the job's first mark, a resumed job, or the restart of a step (R319, R320, R347). -/
def State.markEnters (s : State) : State :=
  let r := s.tile.rep
  if s.job.starting then
    let s1 := (s.enter tsRunning).setFlag Reg.TILE_STATE_PAUSED_AT_STEP false
    let s2 := { s1 with job := { s1.job with starting := false, ready := [], pausing := false, pauseRel := false, pauseAt := none } }
    if s.ts = tsJobLoaded then
      let s3 := { s2 with beat := { s2.beat with started := true }, clk := { s2.clk with aclk := 0 } }
      if s.flag Reg.ERR_CFG_STEP_EN then s3.takeSnap else s3
    else
      match r.named with
      | some (beat, attempt) => if s2.passed beat < 2 ^ 15 then s2.rewind attempt else s2
      | none => s2
  else if r.resume then
    let s1 := (s.enter tsRunning).setFlag Reg.ERR_STEP_REPEATING false
    let hold := s.job.pauseAt.isSome
    let s2 := { s1 with
      job := { s1.job with pausing := s1.job.pausing || hold, pauseRel := s1.job.pauseRel || s.job.pauseAt == some 0 }
      tile := { s1.tile with wdog := 0, rep := { granted := r.granted, arrived := r.arrived } } }
    s2.liveSites.foldl (fun s t => s.closeWindow t) s2
  else s

/-- What a mark of the running job counts in the tile's own units. -/
def State.markCounts (s : State) (old : Nat) : State :=
  let run := old = tsRunning
  let s1 := if old = tsPaused then s else s.ageWaits
  let unit (s : State) (t : Nat) : State :=
    let s1 := (if old = tsPaused then s else s.ageWdog t).syncParity t |>.linkReplays t
    (if run ∨ old = tsPaused then s1.ageBanks t else s1).ageBatches t
  let s2 := s1.liveSites.foldl unit s1
  let s3 := s2.newGrants
  { s3 with
    clk := { s3.clk with idle := 0 }
    pwr := { s3.pwr with dwell := s3.pwr.dwell + 1 }
    flights := s3.flights.map fun f => if f.opcode = 0x15 ∧ f.phase = .running ∧ run then { f with beats := f.beats + 1 } else f
    tile := { s3.tile with
      wdog := if run ∨ old = tsRecovering then s3.tile.wdog + 1 else s3.tile.wdog
      buckets := s3.tile.buckets.map fun (p : Nat × Bucket) =>
        (p.1, if run then { p.2 with since := p.2.since.map (· + 1) } else p.2) } }

/-- Barrier nodes whose slots' traffic has completed forward (R232), and the copies of landing states are refreshed (R193). -/
def State.markNodes (s : State) : State :=
  let s1 := (s.tile.nodes.filter fun (p : Nat × Node) => decide (p.1 % 128 < nRegion)).foldl
    (fun s (p : Nat × Node) => s.nodeUp (p.1 / 128) (p.1 % 128)) s
  s1.liveSites.foldl (fun s t => s.refreshCopies t) s1

/-- A beat with a stretch begins (R377). -/
def State.stretched (s : State) (n : Nat) : State :=
  if n = 0 then s else (s.count Reg.PWR_STRETCH_BEATS 1).count Reg.PWR_STRETCH_SUM n

/-- LOCAL_MARK: releases and repeats of the beat that ends apply; the beat opens; waiting slots start. -/
def State.mark (s : State) (num stretch : Nat) : State :=
  let old := s.ts
  let s1 := s.applyDue fun r => decide (s.passed r.beat < 2 ^ 15)
  let s2 := match s1.tile.rep.named with
    | some (beat, attempt) => if s1.recovers && s1.ts != tsPaused && decide (s1.passed beat < 2 ^ 15) then s1.rewind attempt else s1
    | none => s1
  let slots := s2.liveSites.flatMap fun t => (List.range 4).map fun n => (t, n)
  let s3 := slots.foldl (fun s (p : Nat × Nat) => s.missed p.1 p.2) s2
  let s4 := s3.markCounts old
  let bc := min (2 ^ 64 - 1) (beatAfter (s4.rd64 Reg.BEAT_COUNT) num)
  let s5 := ((s4.wr64 Reg.BEAT_COUNT bc).setFld Reg.BEAT_CFG_STRETCH stretch).stretched stretch
  let s6 := { s5 with beat := { s5.beat with armed := none } }
  let s7 := s6.markEnters
  let s8 := if s.job.starting then s7.completeOp 0x11 stOk 0 bc else s7
  let s9 := match s8.job.pauseAt with
    | some k => if k ≠ 0 ∧ k = bc % 2 ^ 32 then { s8 with job := { s8.job with pausing := true } } else s8
    | none => s8
  let s10 := (if bc % 64 = 0 then s9.forwardStretch true else s9).markNodes
  let s11 := ((s10.tile.buckets.filter fun (p : Nat × Bucket) => !p.2.closed).map fun (p : Nat × Bucket) => p.1).foldl
    (fun s k => if s.redRoot (k / 4096) then s.redStep (k / 4096) (k % 4096) else s) s10
  if s11.startsBlocks then
    slots.foldl (fun s (p : Nat × Nat) =>
      if s.waitsMark p.1 p.2 && !(s.slot p.1 p.2).late then s.startBlock p.1 p.2 else s) s11
  else s11

def execLocalMark (s : State) : Host.Outcome State Fault Refusal :=
  .next (match s.beat.armed with
    | some (num, st) => if s.marked && !s.beat.lost then s.mark num st else s
    | none => s)

/-! ## Committing a block (R46, R48, R67, R223, R231) -/

/-- An arrival of the block at a barrier. -/
def State.commitBar (s : State) (site n blk : Nat) (p : Nat × Bool × Option Nat) : State :=
  let b := p.1
  match p.2.2 with
  | none => s.raiseAt 0x08 site 10 n 0 0x0808 (0x0808 + b * 2 ^ 16)
  | some g =>
    let s1 := (s.setFld (Reg.BAR_SLOT_BARRIER site n) b).setFld (Reg.BAR_SLOT_GEN site n) g
    let s2 := s1.modSlot site n fun x => { x with
      arrived := Store.upd 0 x.arrived b (· + 1)
      holdBar := if p.2.1 then x.holdBar ++ [(b, g)] else x.holdBar
      lateBar := if x.late && s.barKind b == 1 && x.lateBar.isNone then some (b, g) else x.lateBar }
    (s2.countArrival { bar := b, node := site, gen := g, who := n, blk := blk }).showBarSlot site n

/-- The changes that a block's commit makes to objects of its tile in one cycle (R48, R222): its pending deltas, and the signals held or
issued by BZ.SIG. -/
def State.commitSums (s : State) (site : Nat) (b : Blk) (src : Nat) : State :=
  let sigs := b.held ++ b.sigs
  let mine := sigs.filter fun g => bits g.ref 14 2 == 0
  let tile := sigs.filter fun g => bits g.ref 14 2 == 1 && bits g.ref 11 1 == 0
  let changes := (b.deltas.filter fun p => p.2 != 0) ++ mine.map fun g => (g.ref % 64, g.inc)
  let s1 := ((changes.map (·.1)).eraseDups).foldl (fun s o =>
    s.objSum site o ((changes.filter fun p => p.1 == o).map (·.2)) src s.beatLow) s
  ((tile.map fun g => g.ref % 256).eraseDups).foldl (fun s o =>
    s.tobjSum o ((tile.filter fun g => g.ref % 256 == o).map fun g => g.inc) src s.beatLow) s1

/-- A committed send joins those that wait, in the order of issue (R61). -/
def addSend (r : SendRec) : List SendRec → List SendRec
  | [] => [r]
  | x :: t => if r.seq < x.seq then r :: x :: t else x :: addSend r t

/-- Every effect of a commit, in one cycle. -/
def State.commit (s : State) (site n : Nat) : State :=
  let x := s.slot site n
  let b := x.blk
  let src := s.unitAddr site (coreUnit site n)
  let s1 := (maskOf b.swaps).foldl (fun s a =>
    s.setFld (Reg.ARR_STATUS_CBANK site a) (1 - s.fld (Reg.ARR_STATUS_CBANK site a))) s
  let s2 := b.fills.foldl (fun s l => s.landFill site l) s1
  let s3 := b.drains.foldl (fun s l => s.setFlag (Reg.LAND_STATE_HOLD site l) false) s2
  let sure (a : Arm) : Arm := if a.slot = n ∧ a.blk = b.id then { a with sure := true } else a
  let s4 := s3.modCl site fun c => { c with
    committed := true
    sends := b.sends.foldl (fun l r => addSend { r with since := s.rd64 Reg.BEAT_COUNT, slot := n, blk := b.id } l) c.sends
    ctxs := c.ctxs.map fun (p : Nat × Ctx) => (p.1, { p.2 with act := p.2.act.map sure, shd := p.2.shd.map sure }) }
  let s5 := s4.modSlot site n fun y => { y with blk := {}, replay := false, ended := false, owes := [] }
  let s6 := (s5.setSlotState site n (if b.last then slIdle else slWait))
  let s7 := if b.last then s6 else s6.setFld (Reg.SLOT_STATUS_ENTRY site n) x.next
  let s8 := s7.commitSums site b src
  let away := (b.held ++ b.sigs).filter fun g => bits g.ref 14 2 != 0 && !(bits g.ref 14 2 == 1 && bits g.ref 11 1 == 0)
  let s10 := away.foldl (fun s g => s.deliver site { g with src := src }) s8
  let s11 := b.bars.foldl (fun s p => s.commitBar site n b.id p) s10
  if x.replay then s11.closeWindow site else s11

/-- BLOCK_COMMIT: every operation of a COMMITTING block has completed and passed its checks; a sync block whose test is pending takes no
release (R337). -/
def execBlockCommit (site : Site) (n : SlotId) (s : State) : Host.Outcome State Fault Refusal :=
  let b := (s.slot site n).blk
  .next (if s.alive && s.live site && !s.testing site 9 && s.committing site n && b.id != 0 && !b.failed && !(s.cl site).opsLeft n b.id then
      s.commit site n
    else s)

/-! ## Watchdogs (R235, R351) -/

/-- CL_WDOG: the report names the barrier, the generation awaited, and CUR of the cluster node and of the die node. -/
def execClWdog (site : Site) (s : State) : Host.Outcome State Fault Refusal :=
  let c := s.cl site
  .next (if s.inBeat && s.live site && decide (s.fld (Reg.CL_WDOG_BEATS site) ≤ c.wdog) then
      match c.slots.findSome? fun (p : Nat × SlotSt) => p.2.holdBar.head?.map fun h => (p.1, h) with
      | some (n, b, g) =>
        let cur (k : Nat) : Nat := (s.node b k).inCur.length
        let s1 := s.modCl site fun c => { c with wdog := 0 }
        s1.raise { s1.clErr 0x0D site 9 with
          slot := n, reason := 0x0805, detail := b + g * 2 ^ 8 + cur site * 2 ^ 24 + cur nDie * 2 ^ 40 }
      | none => s
    else s)

/-- TILE_WDOG. -/
def execTileWdog (s : State) : Host.Outcome State Fault Refusal :=
  .next (if s.alive && (s.ts == tsRunning || s.ts == tsRecovering) && decide (s.fld Reg.TILE_WDOG_BEATS ≤ s.tile.wdog) then
      (s.log { cls := 0x0E, action := 5, source := s.agentAddr 0, detail := s.tile.wdog }).fail 0x0217
    else s)

/-! ## When no command waits -/

/-- Outside RUNNING and PAUSED, each 2^K ACLK cycles count as a beat of the draining banks (R215). -/
def State.bankTick (s : State) (cycles : Nat) : State :=
  if s.ts = tsRunning ∨ s.ts = tsPaused then { s with clk := { s.clk with bank := 0 } }
  else
    let c := s.clk.bank + cycles
    let beat := 2 ^ s.fld Reg.BEAT_CFG_K
    let s1 := { s with clk := { s.clk with bank := c % beat } }
    (List.range (c / beat)).foldl (fun s _ => s.liveSites.foldl (fun s t => s.ageBanks t) s) s1

/-- One tick of the clock: REFCLK counts (R373), and while no marks fire each 2^K ACLK cycles count as one mark (R226). -/
def State.clockTick (s : State) : State :=
  let beats := (s.clk.idle + s.tickCycles.1) / 2 ^ s.fld Reg.BEAT_CFG_K
  let s1 := s.tick
  if !s.awake || !s.clk.refclk then s1
  else (if s.beat.lost && decide (0 < beats) && s.ts != tsPaused then s1.ageWaits else s1).bankTick s.tickCycles.1

end Sys2Proof.Machine
end

