-- ==== Sys2Proof/Machine/Crypto.lean ====
section
/-! DEFINITION. The published algorithms that R420 to R433 name: SHA-384 of FIPS 180-4, ECDSA on P-384 of FIPS 186-5, and CRC-32 of IEEE
802.3 (R379, R420). PRESUMED from those standards, log entry 10. -/

namespace Sys2Proof.Machine

/-! ## CRC-32 -/

/-- One bit of reflected CRC-32. -/
def crc32Bit (c : BitVec 32) : BitVec 32 :=
  if c.getLsbD 0 then (c >>> 1) ^^^ 0xEDB88320#32 else c >>> 1

/-- One byte of reflected CRC-32. -/
def crc32Byte (c : BitVec 32) (b : Byte) : BitVec 32 :=
  (List.range 8).foldl (fun c _ => crc32Bit c) (c ^^^ b.zeroExtend 32)

/-- CRC-32 of a byte string. -/
def crc32 (l : List Byte) : BitVec 32 := ~~~(l.foldl crc32Byte 0xFFFFFFFF#32)

/-! ## SHA-384 -/

/-- Trial division. -/
def isPrimeTo (n : Nat) : Nat → Bool
  | 0 => true
  | 1 => true
  | d + 1 => n % (d + 1) != 0 && isPrimeTo n d

/-- The primes below 420, in order: the first 80 and one more. -/
def smallPrimes : List Nat := (List.range 420).filter fun n => 2 ≤ n && isPrimeTo n (n - 1)

/-- Largest `r` below `2 ^ b` more than a given start with `r ^ k ≤ n`, bit by bit. -/
def rootBits (k n : Nat) : Nat → Nat → Nat
  | 0, r => r
  | b + 1, r => rootBits k n b (if (r + 2 ^ b) ^ k ≤ n then r + 2 ^ b else r)

/-- First 64 bits of the fractional part of a cube root: the round constants of SHA-384. -/
def shaK (i : Nat) : BitVec 64 :=
  BitVec.ofNat 64 (rootBits 3 (smallPrimes.getD i 0 * 2 ^ 192) 67 0)

/-- First 64 bits of the fractional part of a square root: the initial hash value of SHA-384, from the ninth to the
sixteenth primes. -/
def shaInit (i : Nat) : BitVec 64 :=
  BitVec.ofNat 64 (rootBits 2 (smallPrimes.getD (8 + i) 0 * 2 ^ 128) 70 0)

/-- Padding of a message. -/
def shaPad (l : List Byte) : List Byte :=
  l ++ [0x80#8] ++ List.replicate ((239 - l.length % 128) % 128) 0#8 ++ beBytes 16 (8 * l.length)

/-- The eight working words. -/
structure Sha where
  a : BitVec 64
  b : BitVec 64
  c : BitVec 64
  d : BitVec 64
  e : BitVec 64
  f : BitVec 64
  g : BitVec 64
  h : BitVec 64
deriving DecidableEq, Repr

/-- One round. -/
def Sha.round (x : Sha) (k w : BitVec 64) : Sha :=
  let s1 := x.e.rotateRight 14 ^^^ x.e.rotateRight 18 ^^^ x.e.rotateRight 41
  let ch := (x.e &&& x.f) ^^^ (~~~x.e &&& x.g)
  let t1 := x.h + s1 + ch + k + w
  let s0 := x.a.rotateRight 28 ^^^ x.a.rotateRight 34 ^^^ x.a.rotateRight 39
  let maj := (x.a &&& x.b) ^^^ (x.a &&& x.c) ^^^ (x.b &&& x.c)
  ⟨t1 + (s0 + maj), x.a, x.b, x.c, x.d + t1, x.e, x.f, x.g⟩

/-- The schedule of a block, latest word first, from its sixteen words. -/
def shaSchedule : Nat → List (BitVec 64) → List (BitVec 64)
  | 0, l => l
  | n + 1, l =>
    let w2 := l.getD 1 0
    let w7 := l.getD 6 0
    let w15 := l.getD 14 0
    let w16 := l.getD 15 0
    let s0 := w15.rotateRight 1 ^^^ w15.rotateRight 8 ^^^ (w15 >>> 7)
    let s1 := w2.rotateRight 19 ^^^ w2.rotateRight 61 ^^^ (w2 >>> 6)
    shaSchedule n ((s1 + w7 + s0 + w16) :: l)

/-- Doublewords of a byte string, first byte most significant. -/
def beWords : Nat → List Byte → List (BitVec 64)
  | 0, _ => []
  | n + 1, l => BitVec.ofNat 64 (beNat (l.take 8)) :: beWords n (l.drop 8)

/-- One block. -/
def Sha.block (x : Sha) (l : List Byte) : Sha :=
  let ws := (shaSchedule 64 (beWords 16 l).reverse).reverse
  let y := (ws.zip ((List.range 80).map shaK)).foldl (fun x p => x.round p.2 p.1) x
  ⟨x.a + y.a, x.b + y.b, x.c + y.c, x.d + y.d, x.e + y.e, x.f + y.f, x.g + y.g, x.h + y.h⟩

/-- The blocks of a padded message. -/
def Sha.blocks : Nat → Sha → List Byte → Sha
  | 0, x, _ => x
  | n + 1, x, l => Sha.blocks n (x.block (l.take 128)) (l.drop 128)

/-- SHA-384 of a byte string, as a number whose first byte is most significant (R421). -/
def sha384 (l : List Byte) : Nat :=
  let p := shaPad l
  let x := Sha.blocks (p.length / 128)
    ⟨shaInit 0, shaInit 1, shaInit 2, shaInit 3, shaInit 4, shaInit 5, shaInit 6, shaInit 7⟩ p
  ([x.a, x.b, x.c, x.d, x.e, x.f].foldl (fun n w => n * 2 ^ 64 + w.toNat) 0)

/-! ## P-384 -/

/-- The field prime, the curve's b, the base point, its order. -/
def ecP : Nat := 2 ^ 384 - 2 ^ 128 - 2 ^ 96 + 2 ^ 32 - 1
def ecB : Nat := 0xB3312FA7E23EE7E4988E056BE3F82D19181D9C6EFE8141120314088F5013875AC656398D8A2ED19D2A85C8EDD3EC2AEF
def ecN : Nat := 0xFFFFFFFFFFFFFFFFFFFFFFFFFFFFFFFFFFFFFFFFFFFFFFFFC7634D81F4372DDF581A0DB248B0A77AECEC196ACCC52973
def ecGx : Nat := 0xAA87CA22BE8B05378EB1C71EF320AD746E1D3B628BA79B9859F741E082542A385502F25DBF55296C3A545E3872760AB7
def ecGy : Nat := 0x3617DE4A96262C6F5D9E98BF9292DC29F8F41DBD289A147CE9DA3113B5F0B8C00A60B1CE1D7E819D7A431D7C90EA0E5F

/-- `b ^ e mod m`, by the `n` low bits of the exponent. -/
def powMod (m : Nat) : Nat → Nat → Nat → Nat
  | 0, _, _ => 1 % m
  | n + 1, b, e =>
    let r := powMod m n (b * b % m) (e / 2)
    if e % 2 = 1 then r * b % m else r

/-- Inverse modulo a prime below `2 ^ 384`. -/
def invMod (m a : Nat) : Nat := powMod m 384 (a % m) (m - 2)

/-- A point: none is the point at infinity. -/
abbrev EcPoint := Option (Nat × Nat)

/-- Point addition. -/
def ecAdd : EcPoint → EcPoint → EcPoint
  | none, q => q
  | p, none => p
  | some (x1, y1), some (x2, y2) =>
    if x1 = x2 ∧ (y1 + y2) % ecP = 0 then none
    else
      let l := if x1 = x2 then (3 * x1 * x1 + (ecP - 3)) * invMod ecP (2 * y1) % ecP
        else (y2 + ecP - y1) * invMod ecP (x2 + ecP - x1) % ecP
      let x3 := (l * l + 2 * ecP - x1 - x2) % ecP
      some (x3, (l * (x1 + ecP - x3) + ecP - y1) % ecP)

/-- Scalar multiplication by the `n` low bits of `k`. -/
def ecMul : Nat → Nat → EcPoint → EcPoint
  | 0, _, _ => none
  | n + 1, k, p =>
    let r := ecMul n (k / 2) (ecAdd p p)
    if k % 2 = 1 then ecAdd r p else r

/-- Whether coordinates are those of a point of the curve. -/
def onCurve (x y : Nat) : Bool :=
  x < ecP && y < ecP && y * y % ecP == (x * x * x + (ecP - 3) * x + ecB) % ecP

/-- ECDSA verification of a digest under a public key `x ‖ y`, signature `r ‖ s` (R421). -/
def ecdsaVerify (key digest sig : Nat) : Bool :=
  let x := key / 2 ^ 384 % 2 ^ 384
  let y := key % 2 ^ 384
  let r := sig / 2 ^ 384 % 2 ^ 384
  let s := sig % 2 ^ 384
  if r = 0 ∨ ecN ≤ r ∨ s = 0 ∨ ecN ≤ s ∨ !onCurve x y then false
  else
    let w := invMod ecN s
    match ecAdd (ecMul 384 (digest * w % ecN) (some (ecGx, ecGy))) (ecMul 384 (r * w % ecN) (some (x, y))) with
    | none => false
    | some (px, _) => px % ecN == r

/-- ECDSA signature of a digest with a private key and a per-signature secret. -/
def ecdsaSign (key digest secret : Nat) : Nat :=
  let k := secret % (ecN - 1) + 1
  match ecMul 384 k (some (ecGx, ecGy)) with
  | none => 0
  | some (x, _) =>
    let r := x % ecN
    let s := invMod ecN k * (digest + r * key) % ecN
    r * 2 ^ 384 + s

end Sys2Proof.Machine
end

