-- ==== Sys2Proof/Machine/Sideband.lean ====
section
/-! DEFINITION. The package sideband (R405 to R418), the release of tiles (R422 to R424), and what firmware does with the package
controller's values (R429). -/

namespace Sys2Proof.Machine

/-! ## Addresses and claims (R411, R412) -/

/-- The tile holds an address. -/
def State.sbHeld (s : State) : Bool := s.fld Reg.SB_ADDR_STATE == 2

/-- The ADDR_CLAIM frame of this tile. -/
def State.claimFrame (s : State) (claim : Bool) : TxFrame :=
  { prio := 0, ty := 0x01, dst := 0xFF, payload := leBytes 8 (s.rd64 Reg.SB_UID), claim := claim }

/-- Take the next candidate, or FAILED where none is left (R412). -/
def State.nextCandidate (s : State) : State :=
  match s.sb.cands with
  | [] => (s.setFld Reg.SB_ADDR_STATE 3).setFld Reg.SB_ADDR_ADDR 0xFF
  | c :: t =>
    let s1 := (s.setFld Reg.SB_ADDR_STATE 1).setFld Reg.SB_ADDR_ADDR c
    ({ s1 with sb := { s1.sb with cands := t, window := false } }).sbQueue (s1.claimFrame true)

/-- The candidate fails (R412); a primary that loses 0x08 is no beat master (R36). -/
def State.claimFail (s : State) : State :=
  let s1 := { s with sb := { s.sb with window := false, txq := s.sb.txq.filter fun f => !f.claim } }
  let s2 :=
    if s.fld Reg.SB_ADDR_ADDR = 0x08 ∧ s.flag Reg.TILE_ID_PRIMARY then
      (s1.setFlag Reg.SB_ADDR_PRIMARY_LOST true).setFlag Reg.BEAT_CFG_MASTER false
    else s1
  s2.nextCandidate

/-- Defend the address held (R412). -/
def State.defend (s : State) : State := (s.sbQueue (s.claimFrame false)).count Reg.SB_CONTEST_COUNT 1

/-! ## The release of the other tiles (R424) -/

/-- A primary that kept its address (R422). -/
def State.leads (s : State) : Bool := s.flag Reg.TILE_ID_PRIMARY && !s.flag Reg.SB_ADDR_PRIMARY_LOST

/-- Entries of RST_LOG in use. -/
def State.rstCount (s : State) : Nat := ((List.range 8).filter fun i => s.fld (Reg.RST_LOG_ADDR i) != 0).length

/-- Record the outcome for a tile: a new entry, or the entry it has. -/
def State.rstRecord (s : State) (addr result : Nat) : State :=
  let i := ((List.range 8).find? fun i => s.fld (Reg.RST_LOG_ADDR i) == addr).getD s.rstCount
  if 8 ≤ i then s else (s.setFld (Reg.RST_LOG_ADDR i) addr).setFld (Reg.RST_LOG_RESULT i) result

/-- Go to the next marked tile: HEALTH_QUERY to it (R424, step 2). -/
def State.relNext (s : State) (left : List Nat) : State :=
  match left with
  | [] => { s with sb := { s.sb with phase := .idle } }
  | a :: t =>
    ({ s with sb := { s.sb with phase := .health a t } }).sbQueue
      { prio := 3, ty := 0x41, dst := BitVec.ofNat 8 a, payload := [] }

/-- Ask the next drop for its capabilities, or take the marked tiles in ascending order (R424, step 1). -/
def State.relAsk (s : State) (left marked : List Nat) : State :=
  match left with
  | [] => s.relNext (marked.mergeSort (· ≤ ·))
  | a :: t =>
    ({ s with sb := { s.sb with phase := .asking a t marked } }).sbQueue
      { prio := 3, ty := 0x02, dst := BitVec.ofNat 8 a, payload := [] }

/-- The `BOOT_PEER` addresses in 0x10..0xF7, in order of first arrival. -/
def State.bootPeers (s : State) : List Nat :=
  ((List.range 32).filter fun i => s.flag (Reg.BOOT_PEER_VALID i)).map (fun i => s.fld (Reg.BOOT_PEER_ADDR i))
    |>.filter fun a => decide (0x10 ≤ a) && decide (a ≤ 0xF7)

/-- The primary's firmware begins to release the other tiles. -/
def State.relStart (s : State) : State := if s.leads then s.relAsk s.bootPeers [] else s

/-! ## Firmware on FW_READY (R303, R429) -/

/-- GRANTS for a memory rate at a point (R211), held at the field's largest value. -/
def State.grantsFor (s : State) (rate point : Nat) : Nat :=
  min (2 ^ 20 - 1) (rate * 10 ^ 9 * 2 ^ s.fld Reg.BEAT_CFG_K / (s.vfFreq point * 10 ^ 6 * 512))

/-- A word of `SB_ASSIGN`'s 256 bits. -/
def State.assign (s : State) (lo w : Nat) : Nat := bits (s.rdWide Reg.SB_ASSIGN 8) lo w

/-- Set bits of `SB_ASSIGN`. -/
def State.setAssign (s : State) (lo w v : Nat) : State :=
  let x := s.rdWide Reg.SB_ASSIGN 8
  s.wrWide Reg.SB_ASSIGN 8 (x % 2 ^ lo + v % 2 ^ w * 2 ^ lo + x / 2 ^ (lo + w) * 2 ^ (lo + w))

/-- Package number (R429, R32). -/
def State.usePkg (s : State) : State :=
  if s.assign 12 1 = 1 then s.setFld Reg.PKG_ID_PKG (s.assign 0 12) else s

/-- Memory configuration, operating point and memory rate (R429). -/
def State.useConfig (s : State) : State :=
  if s.assign 242 1 = 1 then
    let point := s.assign 192 4
    let s1 := (s.setFld Reg.MEM_CFG_NSTACK (s.assign 200 5)).setFld Reg.MEM_CFG_STACK_LOG2 (s.assign 208 6)
    let s2 := if (s.pwr.move.map fun m => m.target).getD (s.fld Reg.PWR_OP_CUR) = point then s1 else s1.opStart point none
    s2.setFld Reg.MEM_SPLIT_GRANTS (s.grantsFor (s.assign 216 16) point)
  else s

/-- Enable the bootstrap queue (R303). -/
def State.useQueue0 (s : State) : State :=
  if s.assign 13 1 = 1 ∧ s.assign 242 1 = 1 ∧ s.fld (Reg.QUEUE_STATE_STATE 0) = 0 then
    let sq := s.assign 64 48
    let cq := s.assign 128 48
    let s1 := (s.wr (Reg.SQ_BASE_LO 0) (BitVec.ofNat 32 (sq / 4096 * 4096))).wr (Reg.CQ_BASE_LO 0) (BitVec.ofNat 32 (cq / 4096 * 4096))
    let s2 := s1.wr (Reg.QBASE_HI 0) (BitVec.ofNat 32 (sq / 2 ^ 32 % 2 ^ 16 + cq / 2 ^ 32 % 2 ^ 16 * 2 ^ 16))
    let s3 := (s2.setFld (Reg.QUEUE_CTL_LOG2_SQ 0) (s.assign 16 4 + 6)).setFld (Reg.QUEUE_CTL_LOG2_CQ 0) (s.assign 20 4 + 6)
    let s4 := (s3.setFld (Reg.QUEUE_CTL_LIMIT 0) (s.assign 232 7)).setFld (Reg.QUEUE_CTL_PRIO 0) (s.assign 240 2)
    (s4.setFld (Reg.QUEUE_SEQ_SEQ0 0) (s.assign 32 16)).queueEnable 0 none
  else s

/-- Firmware uses the values it holds (R429). -/
def State.useAssign (s : State) : State := ((s.usePkg).useConfig).useQueue0

/-- What goes with an entry to FW_READY: BOOT_STATUS (R413), and the firmware uses the values it holds (R429). -/
def State.readyAgain (s : State) : State := s.sendBootStatus.useAssign

/-- Whether firmware is in FW_READY to use a value at once. -/
def State.fwReady (s : State) : Bool := s.alive && s.ts == tsFwReady && s.sleep == 0

/-- A value of `SB_ASSIGN` has come: firmware in FW_READY uses it at once, and after a sleep when it wakes (R429). -/
def State.assigned (s : State) (use : State → State) : State :=
  if s.fwReady then use s else { s with sb := { s.sb with owed := s.sb.owed || s.ts == tsFwReady } }

/-- WAKE_DONE (R372): once the rails are back, the saved fields, and the edges that were in service train again; with their end the tile is
awake, and uses what the sideband brought meanwhile. -/
def execWakeDone (s : State) : Host.Outcome State Fault Refusal :=
  .next (if s.powered && s.sleep == 3 && s.pwr.move.isNone then
      let s1 := if s.pwr.restored then s else s.sleptEdges.foldl (fun s e => s.trainStart e) s.wakeFields
      if (List.range 4).any fun e => s1.fld (Reg.LINK_STATUS_STATE e) == 1 then s1
      else if s.sb.owed then ({ s1.wakeEnd with sb := { s1.sb with owed := false } } : State).useAssign
      else s1.wakeEnd
    else s)

/-! ## Receiving (R408, R413, R414) -/

/-- What every intact frame does before its type acts: the address defence of R412, comparator 3, the count of
frames accepted. -/
def State.sbHear (s : State) (ty : Nat) (f : Frame) : State :=
  let own := s.sbHeld && f.dst.toNat == s.fld Reg.SB_ADDR_ADDR
  let s1 := if s.sbHeld && f.src.toNat == s.fld Reg.SB_ADDR_ADDR && ty != 0x01 then s.defend else s
  let s2 := if own || f.dst.toNat == 0xFF then s1.count Reg.SB_RX_OK_COUNT 1 else s1
  if own || (ty == 0x30 && f.dst.toNat == 0xFF) then s2.cmpFire 3 else s2

/-- The sideband moves frames: the island has power and `SB_CLK` runs (R405). -/
def State.sbOn (s : State) : Bool := s.ts != tsOff && s.dev.sbClk

/-- A frame of a known type: ignored and counted where its length or reset source is wrong (R413). -/
def State.sbFrame (s : State) (ty len : Nat) (ok : Bool) (f : Frame) (act : State → State) : State :=
  if !s.sbOn then s
  else
    let s1 := s.sbHear ty f
    if !((s.sbHeld && f.dst.toNat == s.fld Reg.SB_ADDR_ADDR) || f.dst.toNat == 0xFF) then s1
    else if f.payload.length = len ∧ ok then act s1
    else s1.count Reg.SB_UNKNOWN_COUNT 1

/-- A source that may reset the tile (R413). -/
def resetSource (f : Frame) : Bool := f.src == 0x00 || f.src == 0x08

/-- Record a claimed address in `BOOT_PEER`, once, in order of first arrival (R424). -/
def State.peerRecord (s : State) (a : Nat) : State :=
  if (List.range 32).any fun i => s.flag (Reg.BOOT_PEER_VALID i) && s.fld (Reg.BOOT_PEER_ADDR i) == a then s
  else
    match (List.range 32).find? fun i => !s.flag (Reg.BOOT_PEER_VALID i) with
    | some i => (s.setFld (Reg.BOOT_PEER_ADDR i) a).setFlag (Reg.BOOT_PEER_VALID i) true
    | none => s

/-- Another ID claims the address held, or the candidate (R412). -/
def State.claimSeen (s : State) (f : Frame) : State :=
  if f.src.toNat = s.fld Reg.SB_ADDR_ADDR ∧ leNat f.payload ≠ s.rd64 Reg.SB_UID then
    if s.sbHeld then s.defend else if s.sb.window then s.claimFail else s
  else s

/-- ADDR_CLAIM (R412, R424). -/
def State.onClaim (s : State) (f : Frame) : State := (s.peerRecord f.src.toNat).claimSeen f

/-- ADDR_CLAIM: one sent to another drop alone is no claim to record, but another ID's claim all the same. -/
def execAddrClaim (f : Frame) (s : State) : Host.Outcome State Fault Refusal :=
  let mine := (s.sbHeld && f.dst.toNat == s.fld Reg.SB_ADDR_ADDR) || f.dst.toNat == 0xFF
  .next (if s.sbOn && !mine && f.payload.length == 8 then (s.sbHear 0x01 f).claimSeen f
    else s.sbFrame 0x01 8 true f fun s => s.onClaim f)

/-- SB_CLAIM_WINDOW_END (R412): the address is held. -/
def execSbClaimWindowEnd (s : State) : Host.Outcome State Fault Refusal :=
  .next (if s.sbOn && s.sb.window then
      ({ s with sb := { s.sb with window := false } }).setFld Reg.SB_ADDR_STATE 2
    else s)

/-- The reply to CAP_QUERY (R413). -/
def State.capReplyFrame (s : State) (dst : Byte) : TxFrame :=
  { prio := 3, ty := 0x03, dst := dst
    payload := leBytes 2 0x1B5A ++ [0x00#8] ++ leBytes 2 (s.fld Reg.TILE_ID_PART)
      ++ [BitVec.ofNat 8 (s.fld Reg.TILE_ID_STEPPING), BitVec.ofNat 8 (s.fld Reg.TILE_ID_GRADE), 0x01#8,
          0x0E#8, 0x07#8, 0x07#8, 0x03#8, 0x07#8, 0x07#8, 0x00#8, 0x00#8] }

def execCapQuery (f : Frame) (s : State) : Host.Outcome State Fault Refusal :=
  .next (s.sbFrame 0x02 0 true f fun s => s.sbQueue (s.capReplyFrame f.src))

/-- CAP_REPLY (R424, step 1): a tile is marked by VENDOR, KIND and PART. -/
def State.onCapReply (s : State) (f : Frame) : State :=
  match s.sb.phase with
  | .asking a left marked =>
    if f.src.toNat ≠ a then s
    else
      let isTile := leNat (f.payload.take 2) == 0x1B5A && f.payload.getD 2 0 == 0 && leNat ((f.payload.drop 3).take 2) == 0x160
      s.relAsk left (if isTile then marked ++ [a] else marked)
  | _ => s

def execCapReply (f : Frame) (s : State) : Host.Outcome State Fault Refusal :=
  .next (s.sbFrame 0x03 16 true f fun s => if s.fw then s.onCapReply f else s)

/-- RESET_HOLD (R423): TILE reset in any state; the tile stays in AON. -/
def execResetHold (f : Frame) (s : State) : Host.Outcome State Fault Refusal :=
  .next (s.sbFrame 0x10 0 (resetSource f) f fun s =>
    let s1 := s.tileReset
    { s1 with sb := { s1.sb with held := s1.sb.held || (f.src == 0x00 && !s1.sb.released) } })

/-- Release from AON into BOOT_ROM (R310, R426): boot step 1, at flash offset 0, on management core 0. -/
def State.release (s : State) : State :=
  let s1 := (s.enter tsBootRom).setFld Reg.BOOT_STATUS_STEP 1
  { s1 with sb := { s1.sb with released := true }, boot := { mgmt := [{ on := true }, {}, {}, {}] } }

/-- RESET_RELEASE (R423): a primary that leads takes it from 0x00 alone (R422); without `AONCLK` the tile is never released (R2). -/
def execResetRelease (f : Frame) (s : State) : Host.Outcome State Fault Refusal :=
  .next (s.sbFrame 0x11 0 (if s.leads then f.src == 0x00 else resetSource f) f fun s =>
    if s.ts ≠ tsAon then s.count Reg.SB_UNKNOWN_COUNT 1 else if s.dev.aonClk then s.release else s)

/-- SELF_RELEASE (R2, R422, R455): without `AONCLK` never, and outside stand-alone test mode only with the sideband, since the claim
of 0x08 needs it. -/
def execSelfRelease (s : State) : Host.Outcome State Fault Refusal :=
  .next (if s.ts = tsAon ∧ s.sb.released = false ∧ s.dev.aonClk = true ∧
      (s.dev.testMode ∨ (s.leads ∧ s.sbHeld ∧ s.fld Reg.SB_ADDR_ADDR = 0x08 ∧ s.sb.held = false)) then s.release
    else s)

/-- RESULT of a reported state (R441). -/
def resultOf (st : Nat) : Nat := if st = tsFwReady then 1 else if st = tsMonitor then 2 else if st = tsFailed then 3 else 0

/-- BOOT_STATUS (R424): the tile waited for reports, or a late report updates its entry. -/
def State.onBootStatus (s : State) (f : Frame) : State :=
  let a := f.src.toNat
  let r := resultOf (leNat f.payload)
  match s.sb.phase with
  | .waiting w left =>
    if a = w then (s.rstRecord a r).relNext left
    else if (List.range 8).any fun i => s.fld (Reg.RST_LOG_ADDR i) == a then s.rstRecord a r else s
  | _ => if (List.range 8).any fun i => s.fld (Reg.RST_LOG_ADDR i) == a then s.rstRecord a r else s

def execBootStatus (f : Frame) (s : State) : Host.Outcome State Fault Refusal :=
  .next (s.sbFrame 0x12 1 true f fun s => if s.fw && s.leads then s.onBootStatus f else s)

/-- FOLLOWER_REPORT_TIMEOUT (R424): RESULT 4, and the next tile. Where the sequence waits for another reply than a
BOOT_STATUS, its wait lapses in the same way without an entry. -/
def execFollowerReportTimeout (s : State) : Host.Outcome State Fault Refusal :=
  .next (if s.fw then
      match s.sb.phase with
      | .waiting a left => (s.rstRecord a 4).relNext left
      | .health _ left => s.relNext left
      | .asking _ left marked => s.relAsk left marked
      | .idle => s
    else s)

/-- HEALTH_REPLY (R424, step 2). -/
def State.onHealthReply (s : State) (f : Frame) : State :=
  match s.sb.phase with
  | .health a left =>
    if f.src.toNat ≠ a then s
    else if f.payload.getD 0 0 = 1 then
      (({ s with sb := { s.sb with phase := .waiting a left } }).rstRecord a 0).sbQueue
        { prio := 0, ty := 0x11, dst := f.src, payload := [] }
    else (s.rstRecord a 5).relNext left
  | _ => s

def execHealthReply (f : Frame) (s : State) : Host.Outcome State Fault Refusal :=
  .next (s.sbFrame 0x42 8 true f fun s => if s.fw then s.onHealthReply f else s)

/-- The reply to HEALTH_QUERY (R413). -/
def State.healthFrame (s : State) (dst : Byte) : TxFrame :=
  { prio := 3, ty := 0x42, dst := dst
    payload := [BitVec.ofNat 8 s.ts, BitVec.ofNat 8 (s.fld Reg.TEMP_TJ_MAX)] ++ leBytes 2 (s.fld Reg.PWR_NOW_SLOW)
      ++ leBytes 2 (s.fld Reg.PWR_STATUS_REASON)
      ++ [BitVec.ofNat 8 (s.fld Reg.ERR_STATUS_LAST_CLASS), BitVec.ofNat 8 s.sleep] }

def execHealthQuery (f : Frame) (s : State) : Host.Outcome State Fault Refusal :=
  .next (s.sbFrame 0x41 0 true f fun s => s.sbQueue (s.healthFrame f.src))

/-- BEAT_REPLY (R413): 0 accept, 1 refuse. -/
def State.beatReply (s : State) (refuse : Nat) : State :=
  s.sbQueue { prio := 1, ty := 0x21, dst := 0x00, payload := leBytes 1 refuse }

/-- Whether an appointment may take effect (R36, R416). -/
def State.outsideRun (s : State) : Bool := s.ts != tsRunning && s.ts != tsPaused

/-- BEAT_APPOINT (R416). -/
def execBeatAppoint (f : Frame) (s : State) : Host.Outcome State Fault Refusal :=
  .next (s.sbFrame 0x20 4 true f fun s =>
    if s.outsideRun then
      ({ s with sb := { s.sb with appoint := some (BitVec.ofNat 32 (leNat f.payload)) } }).beatReply 0
    else s.beatReply 1)

/-- BEAT_APPOINT_EXPIRY (R416). -/
def execBeatAppointExpiry (s : State) : Host.Outcome State Fault Refusal :=
  .next { s with sb := { s.sb with appoint := none } }

/-- Whether a Gulto address names this tile (R25). -/
def State.namesMe (s : State) (a : Nat) : Bool :=
  bits a 26 1 == 0 && bits a 10 3 == s.fld Reg.TILE_ID_TILE_NUM && bits a 13 12 == s.fld Reg.PKG_ID_PKG

/-- BEAT_COMMIT (R416, R457); `LOCAL_LAT` is 0 on the beat master (R43). The appointment stays held for its window. -/
def State.onCommit (s : State) (a : Nat) : State :=
  if s.sb.appoint = some (BitVec.ofNat 32 a) ∧ s.outsideRun then
    let s0 := s.setFlag Reg.BEAT_CFG_MASTER (s.namesMe a)
    let s1 := if s.namesMe a then s0.setFld Reg.BEAT_ALIGN_LOCAL_LAT 0 else s0
    s1.wr Reg.BAR_ROOT (BitVec.ofNat 32 (a / 2 ^ 26 * 2 ^ 26 + 2 ^ 25 + bits a 10 15 * 2 ^ 10 + 1))
  else s.beatReply 1

def execBeatCommit (f : Frame) (s : State) : Host.Outcome State Fault Refusal :=
  .next (s.sbFrame 0x22 4 true f fun s => s.onCommit (leNat f.payload))

/-- WAKE (R414): nothing beyond comparator 3, which fires as the frame is heard. -/
def execWake (f : Frame) (s : State) : Host.Outcome State Fault Refusal :=
  .next (s.sbFrame 0x30 0 true f fun s => s)

/-- States in which `TIME_NOW` may be written (R373). -/
def State.timeOpen (s : State) : Bool := s.ts == tsBootRom || s.ts == tsMonitor || s.ts == tsFwReady

/-- TIME_SET (R417). -/
def execTimeSet (f : Frame) (s : State) : Host.Outcome State Fault Refusal :=
  .next (s.sbFrame 0x31 8 true f fun s =>
    if s.timeOpen then s.setTime (leNat f.payload) else s.count Reg.SB_UNKNOWN_COUNT 1)

/-- PKG_ASSIGN (R413, R429). -/
def execPkgAssign (f : Frame) (s : State) : Host.Outcome State Fault Refusal :=
  .next (s.sbFrame 0x50 2 true f fun s =>
    let s1 := (s.setAssign 0 12 (leNat f.payload)).setAssign 12 1 1
    s1.assigned State.usePkg)

/-- QUEUE0_CFG (R413, R429). -/
def execQueue0Cfg (f : Frame) (s : State) : Host.Outcome State Fault Refusal :=
  .next (s.sbFrame 0x51 15 true f fun s =>
    let p := f.payload
    let s1 := (s.setAssign 64 48 (leNat (p.take 6))).setAssign 128 48 (leNat ((p.drop 6).take 6))
    let s2 := (s1.setAssign 16 8 (leNat ((p.drop 12).take 1))).setAssign 32 16 (leNat (p.drop 13))
    let s3 := s2.setAssign 13 1 1
    s3.assigned State.useQueue0)

/-- Whether the fields of a PKG_CONFIG are in range (R413). -/
def State.configOk (s : State) (p : List Byte) : Bool :=
  let b (i : Nat) : Nat := (p.getD i 0).toNat
  s.vfValid (b 0 % 16) && decide (1 ≤ b 1 % 32 ∧ b 1 % 32 ≤ 24) && decide (30 ≤ b 2 % 64 ∧ b 2 % 64 ≤ 43)
    && decide (1 ≤ b 5 % 128 ∧ b 5 % 128 ≤ 64)

/-- PKG_CONFIG (R413, R429). -/
def execPkgConfig (f : Frame) (s : State) : Host.Outcome State Fault Refusal :=
  .next (s.sbFrame 0x52 8 true f fun s =>
    if s.configOk f.payload then
      let b (i : Nat) : Nat := (f.payload.getD i 0).toNat
      let s1 := ((s.setAssign 192 4 (b 0)).setAssign 200 5 (b 1)).setAssign 208 6 (b 2)
      let s2 := ((s1.setAssign 216 16 (b 3 + 256 * b 4)).setAssign 232 7 (b 5)).setAssign 240 2 (b 6)
      let s3 := s2.setAssign 242 1 1
      s3.assigned fun s => s.useConfig.useQueue0
    else s.count Reg.SB_UNKNOWN_COUNT 1)

/-- The types and lengths of R413. -/
def sbTypes : List (Nat × Nat) :=
  [(0x01, 8), (0x02, 0), (0x03, 16), (0x10, 0), (0x11, 0), (0x12, 1), (0x20, 4), (0x21, 1), (0x22, 4), (0x30, 0), (0x31, 8),
   (0x40, 4), (0x41, 0), (0x42, 8), (0x50, 2), (0x51, 15), (0x52, 8)]

/-- SB_UNKNOWN_FRAME (R413, R414): an unlisted type, or a listed one of another length. -/
def execSbUnknownFrame (ty : Byte) (f : Frame) (s : State) : Host.Outcome State Fault Refusal :=
  .next (s.sbFrame ty.toNat f.payload.length (sbTypes.contains (ty.toNat, f.payload.length)) f fun s => s)

/-- SB_FRAME_DISCARD (R408). -/
def execSbFrameDiscard (_why : SbFault) (s : State) : Host.Outcome State Fault Refusal :=
  .next (if s.sbOn then s.count Reg.SB_BAD_COUNT 1 else s)

/-! ## Sending (R407, R409, R410) -/

/-- The frame sent first: the highest priority, and among equals the oldest. -/
def firstFrame : List TxFrame → Option TxFrame
  | [] => none
  | f :: t => match firstFrame t with
    | some g => if g.prio < f.prio then some g else some f
    | none => some f

/-- The queue without its first frame equal to one. -/
def dropFrame (q : List TxFrame) (f : TxFrame) : List TxFrame := q.erase f

/-- A retry of a frame: of equal frames the first, which was sent. -/
def retryFrame (f : TxFrame) : List TxFrame → List TxFrame
  | [] => []
  | g :: t => if g = f then { f with retries := f.retries + 1 } :: t else g :: retryFrame f t

/-- SRC of a frame (R406, R412): a claim carries the address that it claims, another frame the address held. -/
def State.frameSrc (s : State) (f : TxFrame) : Byte :=
  if f.ty = 0x01 ∨ s.sbHeld = true then BitVec.ofNat 8 (s.fld Reg.SB_ADDR_ADDR) else 0xFF

/-- The end of an attempt (R407, R409). -/
def State.attempt (s : State) (f : TxFrame) (o : SendEnd) : State :=
  let rest := dropFrame s.sb.txq f
  match o with
  | .acked =>
    let s1 := { s with sb := { s.sb with txq := rest, sent := s.sb.sent ++ [{ f with src := s.frameSrc f }], window := s.sb.window || f.claim } }
    s1
  | .arbLost same =>
    let s1 := s.count Reg.SB_ARB_LOST_COUNT 1
    if f.claim && same then s1.claimFail else s1
  | _ =>
    if 8 ≤ f.retries then
      let s1 := ({ s with sb := { s.sb with txq := rest } }).count Reg.SB_TX_FAIL_COUNT 1
      if f.claim then s1.claimFail else s1
    else
      ({ s with sb := { s.sb with txq := retryFrame f s.sb.txq } }).count Reg.SB_RETRY_COUNT 1

/-- A candidate's claim that found the queue full is queued once there is room (R410, R412). -/
def State.claimAgain (s : State) : State :=
  if s.fld Reg.SB_ADDR_STATE = 1 ∧ s.sb.window = false ∧ (s.sb.txq.any fun f => f.claim) = false ∧ s.sb.txq.length < 4 then
    s.sbQueue (s.claimFrame true)
  else s

/-- SB_FRAME_SEND (R407, R412): an unaddressed tile begins its claim. -/
def execSbFrameSend (o : SendEnd) (s : State) : Host.Outcome State Fault Refusal :=
  .next (if !s.sbOn then s
    else
      let s1 := if s.fld Reg.SB_ADDR_STATE = 0 ∧ !s.sb.cands.isEmpty then s.nextCandidate else s.claimAgain
      match firstFrame s1.sb.txq with
      | none => s1
      | some f => s1.attempt f o)

end Sys2Proof.Machine
end

