-- ==== Sys2Proof/Machine/Boot.lean ====
section
/-! DEFINITION. The boot ROM (R425 to R429, R455), debug unlock (R432 to R434) and attestation's report (R431). -/

namespace Sys2Proof.Machine

/-! ## Fuses (R420) -/

/-- The fuses in the order of R420, the identity key and FUSE_CRC apart. -/
def Dev.fuses (d : Dev) : List Nat :=
  [d.lifecycle.toNat, d.keyHash0.toNat, d.keyHash1.toNat, d.revoke.toNat, d.minSvn.toNat, d.dbgPubkey.toNat, d.idPubkey.toNat,
   d.idCert.toNat, d.uid.toNat, d.spareGood.toNat] ++ d.spareCol ++ d.vf.map (·.toNat)

/-- FUSE_CRC matches the fuse array (R420, R426 step 1). -/
def Dev.fuseOk (d : Dev) : Bool := crc32 (Config.fuseArray d.fuses (some d.idKey.toNat)) == d.fuseCrc

/-- FUSE_DIGEST (R431): every fuse but the identity key. -/
def Dev.fuseDigest (d : Dev) : Nat := sha384 (Config.fuseArray (d.fuses ++ [d.fuseCrc.toNat]) none)

/-! ## Boot steps (R426) -/

/-- `BOOT_STATUS.STEP`. -/
def State.bootStep (s : State) : Nat := s.fld Reg.BOOT_STATUS_STEP

/-- A flash read of `n` bytes at a flash offset (R425). -/
def State.flashRead (s : State) (off n : Nat) : State :=
  s.send { vch := 0, ty := 2, dst := 0x04000000#32, aux := BitVec.ofNat 64 (off % 2 ^ 48 + (n - 1) * 2 ^ 48), data := [] }

/-- Enter a boot step: what the ROM sets going at its start. -/
def State.bootEnter (s : State) (n : Nat) : State :=
  let s1 := s.setFld Reg.BOOT_STATUS_STEP n
  if n = 2 then s1.opStart 0 none
  else if n = 4 then s1.checkStart (.link s.dev.bootEdge.toNat) none
  else if n = 5 then ({ s1 with boot := { s1.boot with header := [], body := [] } }).flashRead s.boot.flashOff 4096
  else if n = 7 then s1.flashRead (s.boot.flashOff + 256) 4096
  else s1

/-- A failure that enters MONITOR: management-core memory is cleared and BOOT_STATUS sent. -/
def State.toMonitor (s : State) (reason : Nat) : State :=
  let s1 := (s.setFld Reg.BOOT_STATUS_REASON reason).enter tsMonitor
  ({ s1 with boot := { s1.boot with header := [], body := [], retry := false } }).sendBootStatus

/-- Fields of the image header (R427). -/
def hdr (h : List Byte) (i n : Nat) : Nat := leNat ((h.drop i).take n)

/-- The reason with which the header check fails, 0 where it passes (R427). -/
def headerCheck (h : List Byte) : Nat :=
  let len := hdr h 16 4
  let entry := hdr h 20 4
  if hdr h 0 4 ≠ 0x31465A42 ∨ hdr h 15 1 ≠ 0 ∨ hdr h 24 40 ≠ 0 ∨ 1 < hdr h 14 1 then 0x0704
  else if len < 64 ∨ 8388352 < len ∨ len % 64 ≠ 0 ∨ entry % 4 ≠ 0 ∨ len ≤ entry then 0x0705
  else 0

/-- Step 6: the key's hash, its revocation, the security version (R426). -/
def State.keyCheck (s : State) (h : List Byte) : Nat :=
  let slot := hdr h 14 1
  let want := if slot = 0 then s.dev.keyHash0.toNat else s.dev.keyHash1.toNat
  if sha384 ((h.drop 64).take 96) ≠ want then 0x0706
  else if s.dev.revoke.getLsbD slot then 0x0707
  else if hdr h 12 2 < s.dev.minSvn.toNat then 0x0708
  else 0

/-- The digest that is signed and reported (R427). -/
def imageDigest (h body : List Byte) : Nat := sha384 (h.take 160 ++ body)

/-! ## Management cores (R308, R426) -/

/-- The cores start at ENTRY, in machine mode: core 0 leaves the boot ROM, the others leave reset. -/
def State.startCores (s : State) (entry : Nat) : State :=
  { s with boot := { s.boot with mgmt := s.boot.mgmt.map fun c => { c with on := true, priv := .machine, pc := BitVec.ofNat 64 entry } } }

/-- The bytes that PMP entry `i` covers, from its first to the end: off, top of range, four bytes, or a naturally aligned power of two. -/
def MgmtCore.pmpRange (c : MgmtCore) (i : Nat) : Option (Nat × Nat) :=
  let e := c.pmp.getD i (0, 0)
  let a := e.2.toNat % 2 ^ 54
  match bits e.1.toNat 3 2 with
  | 0 => none
  | 1 => some (4 * (if i = 0 then 0 else (c.pmp.getD (i - 1) (0, 0)).2.toNat % 2 ^ 54), 4 * a)
  | 2 => some (4 * a, 4 * a + 4)
  | _ =>
    let k := ((List.range 54).takeWhile a.testBit).length
    some (4 * (a / 2 ^ (k + 1) * 2 ^ (k + 1)), 4 * (a / 2 ^ (k + 1) * 2 ^ (k + 1)) + 2 ^ (k + 3))

/-- What physical memory protection lets a core do with `n` bytes at an address (R308; log entry 87): kind 0 reads, 1 writes, 2 fetches.
The first entry that covers a byte decides and must cover all; a machine-mode access is held to locked entries only, and a user-mode
access needs an entry. -/
def MgmtCore.allows (c : MgmtCore) (kind a n : Nat) : Bool :=
  let hit := (List.range c.pmp.length).findSome? fun i =>
    match c.pmpRange i with
    | some (lo, hi) => if lo < a + n ∧ a < hi then some ((c.pmp.getD i (0, 0)).1, decide (lo ≤ a ∧ a + n ≤ hi)) else none
    | none => none
  match hit with
  | none => c.priv == .machine
  | some (cfg, whole) => whole && ((c.priv == .machine && !cfg.getLsbD 7) || cfg.getLsbD kind)

/-- Step 9: identity registers, FW_READY, BOOT_STATUS, firmware started; firmware uses what the sideband brought and, on a
primary, releases the other tiles (R424, R426, R429). -/
def State.bootDone (s : State) : State :=
  let h := s.boot.header
  let d := imageDigest h s.boot.body
  let s1 := s.wrWide Reg.FW_ID 3 (hdr h 4 4 + hdr h 8 4 * 2 ^ 32 + hdr h 12 2 * 2 ^ 64 + hdr h 14 1 * 2 ^ 80)
  let s2 := (s1.wrString Reg.FW_DIGEST 12 d).wr Reg.BOOT_STATUS 9
  let s3 := ((s2.enter tsFwReady).sendBootStatus)
  (({ s3 with boot := { s3.boot with running := true } } : State).startCores (hdr h 20 4)).useAssign.relStart

/-- The vertical ports found at step 3, and their pairs on one wire (R397, R398); none is under test. -/
def State.setPorts (s : State) (up : Byte) (single : List (BitVec 13)) : State :=
  let s1 := { s with tile := { s.tile with portTest := 0 } }
  ((List.range 8).foldl (fun s p =>
    (s.setFld (Reg.VPORT_STATUS_STATE p) (up.getLsbD p).toNat).setFld (Reg.VPORT_STATUS_SINGLE p) (single.getD p 0).toNat) s1).showRemap

/-- Step 3 in stand-alone test mode (R455): near-end loop-back on every port, its results recorded, every edge in loop-back; MONITOR. -/
def State.testModeBoot (s : State) (good : Byte) : State :=
  let s1 := (List.range 8).foldl (fun s p =>
    let s := ((s.setFld (Reg.VPORT_LOOP_MODE p) 1).setFlag (Reg.VPORT_LOOP_DONE p) true)
    if good.getLsbD p then s.setFld (Reg.VPORT_LOOP_FAILED p) 0
    else s.setFld (Reg.VPORT_LOOP_FAILED p) (1 + (Config.word (s.free + p)).toNat % 4352)) s
  let s2 := (List.range 4).foldl (fun s e => (s.setFld (Reg.LINK_STATUS_STATE e) 5).setFld (Reg.LINK_LOOP_MODE e) 1) { s1 with free := s.free + 8 }
  s2.toMonitor 0x070E

/-- What a flash read of the body returned (R426, step 7). -/
def State.bodyData (s : State) (bytes : List Byte) : State :=
  let len := hdr s.boot.header 16 4
  let body := (s.boot.body ++ bytes).take len
  let s1 := { s with boot := { s.boot with body := body } }
  if body.length < len then s1.flashRead (s.boot.flashOff + 256 + body.length) 4096 else s1.bootEnter 8

/-- The MEM_DATA that answers a flash read, at the head of its channel (R425). -/
def State.flashReply (s : State) : Option GMsg := s.waitingMsgs.find? fun m => m.ty == 3

/-- A line of a MEM_DATA is poisoned (R386): bits of its AUX, and of the unit before each further KiB. -/
def memPoison (m : GMsg) : Bool :=
  bits m.aux.toNat 48 16 != 0
    || (List.range ((m.data.length + 15) / 1040)).any fun k => leNat ((m.data.drop (1024 + 1040 * k)).take 2) != 0

/-- What a flash read returned is taken off the edge; a poisoned line of it fails the step (R426, step 7; log entry 93). -/
def State.flashTake (s : State) (act : State → State) : State :=
  match s.flashReply with
  | some m => if memPoison m then (s.takeMsg m).toMonitor 0x070A else act (s.takeMsg m)
  | none => act s

/-- One step of the ROM (R426). -/
def State.bootRun (s : State) (b : BootIn) : State :=
  let h := s.boot.header
  match s.bootStep with
  | 1 => if s.dev.fuseOk then s.bootEnter 2 else s.setFld Reg.BOOT_STATUS_REASON 0x070C
  | 2 =>
    if b = .fail then s.bootRetryLater 0x070B
    else if s.pwr.move.isNone then s.bootEnter 3 else s
  | 3 =>
    match b with
    | .ports up single =>
      if s.dev.testMode then s.testModeBoot up
      else if up = 0 then (s.setPorts up single).bootRetryLater 0x070D
      else (s.setPorts up single).bootEnter 4
    | .fail => if s.dev.testMode then s.testModeBoot 0 else s.bootRetryLater 0x070D
    | _ => s
  | 4 =>
    let e := s.dev.bootEdge.toNat
    if s.flag (Reg.LINK_CTL_EN e) then s.bootEnter 5
    else if s.checks.isEmpty then s.bootRetryLater 0x070D
    else s
  | 5 =>
    match b with
    | .data bytes => s.flashTake fun s =>
      if bytes.length < 256 then s.toMonitor 0x070A
      else
        let s1 := { s with boot := { s.boot with header := bytes.take 256 } }
        let r := headerCheck (bytes.take 256)
        if r = 0 then s1.bootEnter 6 else s1.toMonitor r
    | .fail => s.toMonitor 0x070A
    | _ => s
  | 6 => if s.keyCheck h = 0 then s.bootEnter 7 else s.toMonitor (s.keyCheck h)
  | 7 =>
    match b with
    | .data bytes => s.flashTake fun s => s.bodyData bytes
    | .fail => s.toMonitor 0x070A
    | _ => s
  | 8 =>
    if ecdsaVerify (beNat ((h.drop 64).take 96)) (imageDigest h s.boot.body) (beNat ((h.drop 160).take 96)) then s.bootEnter 9
    else s.toMonitor 0x0709
  | 9 => s.bootDone
  | _ => s

/-- BOOT_ROM_STEP (R426): a step that waits for its retry timer, or that failed for good, does not run. -/
def execBootRomStep (b : BootIn) (s : State) : Host.Outcome State Fault Refusal :=
  .next (if s.alive && s.ts == tsBootRom && !s.boot.retry
      && !(s.bootStep == 1 && s.fld Reg.BOOT_STATUS_REASON == 0x070C) then s.bootRun b
    else s)

/-- BOOT_RETRY (R426): the step runs again. -/
def execBootRetry (s : State) : Host.Outcome State Fault Refusal :=
  .next (if s.alive && s.ts == tsBootRom && s.boot.retry then
      ({ s with boot := { s.boot with retry := false } }).bootEnter s.bootStep
    else s)

/-! ## Debug (R432 to R434) -/

/-- `DBG_STATE.UNLOCKED`. -/
def State.unlocked (s : State) : Bool := s.flag Reg.DBG_STATE_UNLOCKED

/-- A request (R433): a new challenge replaces any earlier one. -/
def State.newChallenge (s : State) : State :=
  let c := leBytes 8 (Config.random s.free).toNat ++ leBytes 8 (s.rd64 Reg.SB_UID)
  ({ s with free := s.free + 1, boot := { s.boot with challenge := some c, challengeAt := s.rd64 Reg.TIME_NOW } }).setFlag
    Reg.DBG_STATE_CHALLENGE true

/-- The challenge is spent or lapses. -/
def State.dropChallenge (s : State) : State :=
  ({ s with boot := { s.boot with challenge := none } }).setFlag Reg.DBG_STATE_CHALLENGE false

/-- Whether a signature answers a challenge (R433). -/
def State.answerOk (s : State) (c : List Byte) (sig : Nat) : Bool :=
  ecdsaVerify s.dev.dbgPubkey.toNat (sha384 c) sig

/-- The challenge outstanding has lapsed (R433): 60 s by `TIME_NOW`. -/
def State.challengeOld (s : State) : Bool := decide (s.boot.challengeAt + 60 * 10 ^ 9 ≤ s.rd64 Reg.TIME_NOW)

/-- An answer (R433): 0 where it unlocks, else the reason. The challenge is spent either way. -/
def State.answer (s : State) (sig : Nat) : Nat × State :=
  match s.boot.challenge with
  | none => (0x0702, s)
  | some c =>
    if s.challengeOld then (0x0702, s.dropChallenge)
    else if s.answerOk c sig then (0, s.dropChallenge.setFlag Reg.DBG_STATE_UNLOCKED true)
    else (0x0701, s.dropChallenge.count Reg.DBG_STATE_FAILS 1)

/-- Lock debug (R432, R434): in DEVELOPMENT it stays unlocked. -/
def State.lock (s : State) : State := if s.dev.lifecycle then s.setFlag Reg.DBG_STATE_UNLOCKED false else s

/-- CHALLENGE_LAPSE (R433): 60 s by `TIME_NOW`. -/
def execChallengeLapse (s : State) : Host.Outcome State Fault Refusal :=
  .next (if s.boot.challenge.isSome && s.challengeOld then s.dropChallenge else s)

/-! ## Attestation (R431) -/

/-- Bytes 0 to 223 of the report. -/
def State.reportBody (s : State) (nonce : List Byte) : List Byte :=
  leBytes 4 0x31415A42 ++ leBytes 2 320 ++ leBytes 2 0 ++ leBytes 8 (s.rd64 Reg.SB_UID)
    ++ leBytes 4 (s.rd Reg.TILE_ID).toNat ++ leBytes 4 (s.rd Reg.TILE_STATE).toNat ++ leBytes 4 (s.rd Reg.TILE_CTL).toNat
    ++ leBytes 4 ((s.rd Reg.FUSE_SEC).toNat % 2 ^ 16 + s.unlocked.toNat * 2 ^ 16
        + bits (s.rdWide Reg.FW_ID 3) 80 1 * 2 ^ 17)
    ++ leBytes 12 (s.rdWide Reg.FW_ID 3 % 2 ^ 80) ++ leBytes 4 0
    ++ (List.range 12).flatMap (fun i => leBytes 4 (s.rd (Reg.FW_DIGEST + 4 * i)).toNat)
    ++ beBytes 48 s.dev.fuseDigest
    ++ (List.range 8).flatMap (fun r => leBytes 4 (s.rd (Reg.REGION_MAP r)).toNat)
    ++ leBytes 8 (s.rd64 Reg.TIME_NOW) ++ leBytes 8 0 ++ nonce

/-- The signed report of 320 B. -/
def State.report (s : State) (nonce : List Byte) : List Byte :=
  let b := s.reportBody nonce
  b ++ beBytes 96 (ecdsaSign s.dev.idKey.toNat (sha384 b) (Config.signSecret s.free))

end Sys2Proof.Machine
end

