-- ==== Sys2Proof/Machine/Control.lean ====
section
/-! DEFINITION. Accesses to the control space (R7 to R12, R28 to R35, R238, R456): what a read returns and clears, which writes a
register refuses, what a write starts; and doorbells (R288 to R290). -/

namespace Sys2Proof.Machine

/-! ## Who asks (R11, R12) -/

/-- Number of a requester's holding registers. -/
def portKey : Requester → Nat
  | .host => 0
  | .monitor => 1
  | .jtag => 2
  | .core n => 3 + n.val

/-- Whether a requester's accesses reach the port (R11, R311, R435, R438). -/
def State.portOpen (s : State) (q : Requester) : Bool :=
  match q with
  | .host => s.fw
  | .monitor => s.awake
  | .jtag => s.alive
  | .core _ => s.awake

/-! ## Offsets that are no register -/

/-- A cluster-block register of a site without a cluster, or of a region without power (R30, R371). -/
def State.absent (s : State) (o : Nat) : Bool :=
  decide (0x100000 ≤ o) && decide (o < 0x500000) && o % 0x10000 != 0 && !s.live ((o - 0x100000) / 0x10000)

/-- The slice byte under a scratchpad window (R31). -/
def State.windowAt (s : State) (o : Nat) : Option (Nat × Nat) :=
  if 0x10000000 ≤ o ∧ o < 0x50000000 then
    let site := (o - 0x10000000) / 0x1000000
    let a := o % 0x1000000
    if s.live site ∧ a < sliceSize site then some (site, a) else none
  else none

/-- The 256 bits of an object's record (R238). -/
def objBits (val : Nat) (ovf udf : Bool) (waiters : Nat) (fe : Bool) (r : ObjRec) : Nat :=
  val + ovf.toNat * 2 ^ 24 + udf.toNat * 2 ^ 25 + waiters * 2 ^ 32 + fe.toNat * 2 ^ 36 + r.src % 2 ^ 32 * 2 ^ 64
    + r.beat % 2 ^ 32 * 2 ^ 96 + r.produced * 2 ^ 128 + r.consumed * 2 ^ 160

/-- A head marker of the cluster's fetch engine waits on an object. -/
def Cluster.feWaits (c : Cluster) (ref : Nat) : Bool :=
  c.ctxs.any fun (p : Nat × Ctx) => (p.2.act.bind fun a => a.marks.head?.map fun m => sameObj m.ref == sameObj ref).getD false

/-- The task slots that wait on a cluster object, one bit per slot. -/
def Cluster.waiters (c : Cluster) (ref : Nat) : Nat :=
  (c.slots.map fun (p : Nat × SlotSt) =>
    match p.2.wait with
    | some (.object r _ _, _) => if r = ref then 2 ^ p.1 else 0
    | _ => 0).foldl (· + ·) 0

/-- The record of cluster object `n`. -/
def State.objRecord (s : State) (site n : Nat) : Nat :=
  let c := s.cl site
  objBits (s.fld (Reg.SYNC_VAL_VALUE site n)) (s.fld64 (Reg.SYNC_OVF site) n 1 == 1) (s.fld64 (Reg.SYNC_UDF site) n 1 == 1)
    (c.waiters n) (c.feWaits n) (Store.get {} c.recs n)

/-- The record of tile object `n`. -/
def State.tobjRecord (s : State) (n : Nat) : Nat :=
  let f := (s.rd (Reg.TOBJ_FLAG (n / 16))).toNat
  objBits (s.fld (Reg.TOBJ_VAL_VALUE n)) (f.testBit (n % 16)) (f.testBit (n % 16 + 16)) 0
    (s.clusters.any fun (p : Nat × Cluster) => p.2.feWaits (n + 2 ^ 14)) (Store.get {} s.tile.recs n)

/-- A word of the debug region's records, none elsewhere. -/
def State.debugWord (s : State) (o : Nat) : Option Nat :=
  if 0x600000 ≤ o ∧ o < 0x620000 then
    let site := (o - 0x600000) / 0x800
    let n := o % 0x800 / 32
    some (if n < 48 ∧ s.live site = true then bits (s.objRecord site n) (8 * (o % 32)) 32 else 0)
  else if 0x620000 ≤ o ∧ o < 0x622000 then some (bits (s.tobjRecord ((o - 0x620000) / 32)) (8 * (o % 32)) 32)
  else none

/-! ## The element-program stores (R181) -/

/-- An offset of `VE_PSTORE_DATA`, with its site. -/
def pstoreSite (o : Nat) : Option Nat :=
  if 0x100000 ≤ o ∧ o < 0x500000 ∧ o % 0x10000 = 0x2804 then some ((o - 0x100000) / 0x10000) else none

/-- The word of the store that `VE_PSTORE_ADDR` names; engine 1 of a matrix site has none. -/
def State.pstoreKey (s : State) (site : Nat) : Option Nat :=
  let e := s.fld (Reg.VE_PSTORE_ADDR_ENG site)
  if e = 1 ∧ !isVector site then none
  else some (e * 2048 + s.fld (Reg.VE_PSTORE_ADDR_PROG site) * 32 + s.fld (Reg.VE_PSTORE_ADDR_WORD site))

/-- WORD advances and carries into PROG. -/
def State.pstoreNext (s : State) (site : Nat) : State :=
  let a := (s.rd (Reg.VE_PSTORE_ADDR site)).toNat
  s.wr (Reg.VE_PSTORE_ADDR site) (BitVec.ofNat 32 (a / 2048 * 2048 + (a + 1) % 2048))

def State.pstoreRead (s : State) (site : Nat) : Word × State :=
  (((s.pstoreKey site).map fun k => Store.get 0 (s.cl site).pstore k).getD 0, s.pstoreNext site)

def State.pstoreWrite (s : State) (site : Nat) (v : Word) : State :=
  (match s.pstoreKey site with
    | some k => s.modCl site fun c => { c with pstore := Store.putD 0 c.pstore k v }
    | none => s).pstoreNext site

/-! ## Reads (R7, R9, R10, R12) -/

/-- Clear the RC bits of a word. -/
def State.clearRc (s : State) (o : Nat) : State :=
  match regInfo o with
  | some i => if i.acc.rc = 0 then s else s.wr o (s.rd o &&& ~~~(BitVec.ofNat 32 i.acc.rc))
  | none => s

/-- Control accesses to a slice are charged to no block. -/
def portWho : Who := { unit := 10 }

/-- An access that is narrow, wide or misaligned is not performed and is logged (R10). -/
def State.badAccess (s : State) (o : Nat) : State := s.logEvent 0x20 0 (s.agentAddr 0) o

/-- An access through a window to a bank that wakes stalls until the bank is ON (R216): the wake ends first. -/
def State.windowReady (s : State) (site a : Nat) : State := if s.waking site a 4 then s.bankWake site (bankOf site a) else s

/-- Read one word. -/
def State.ctlRead (s : State) (q : Requester) (o : Nat) : Word × State :=
  if o % 4 ≠ 0 then (0, s.badAccess o)
  else
    match s.windowAt o, s.debugWord o, regInfo o with
    | some (site, a), _, _ =>
      let s1 := s.windowReady site a
      (BitVec.ofNat 32 (leNat (s1.sliceGet site a 4)), (s1.touchRead site a 4 portWho).1)
    | none, some w, _ => (BitVec.ofNat 32 w, s)
    | none, none, none => (0, s)
    | none, none, some i =>
      if s.absent o then (0, s)
      else
        match pstoreSite o with
        | some site => s.pstoreRead site
        | none =>
          if !i.pair then (s.rd o, s.clearRc o)
          else if i.idx = 0 then
            let s1 := { s with rdHold := Store.put s.rdHold (portKey q) { tag := o, val := s.rd (o + 4) } }
            (s.rd o, (s1.clearRc o).clearRc (o + 4))
          else
            match s.rdHold.find? fun p => p.1 == portKey q && p.2.tag == o - 4 with
            | some p => (p.2.val, s)
            | none => (s.rd o, s.clearRc o)

/-! ## Writes that a register refuses -/

/-- States in which a register can be written, where its rule names some (R42, R151, R181, R211, R218, R240, R270, R356, R361, R371,
R372, R373, R395, R404). -/
def writeStates (o : Nat) : Option (List Nat) :=
  let two := some [tsFwReady, tsJobLoaded]
  let three := some [tsFwReady, tsJobLoaded, tsPaused]
  if 0x100000 ≤ o ∧ o < 0x500000 then
    let c := o % 0x10000
    if (0x1000 ≤ c ∧ c < 0x1400 ∧ c % 0x100 = 0x28) ∨ c = 0x200C ∨ c = 0x210C ∨ c = 0x2804 ∨ c = 0x7000 ∨ c = 0x7008 ∨ c = 0x8100
        ∨ (0x8400 ≤ c ∧ c < 0x8420) ∨ c = 0xA028 then two
    else if (0x8000 ≤ c ∧ c < 0x80C0) ∨ c = 0x8110 ∨ c = 0x8114 ∨ (0x8200 ≤ c ∧ c < 0x82C0) then three
    else none
  else if o = Reg.BEAT_CFG ∨ o = Reg.BEAT_ALIGN ∨ o = Reg.MEM_SPLIT ∨ o = Reg.BAR_ROOT ∨ o = Reg.BAR_ROOT + 4
      ∨ (0x81000 ≤ o ∧ o < 0x81400 ∧ o % 16 < 8) ∨ (0x90120 ≤ o ∧ o < 0x902A0 ∧ o % 32 < 24) ∨ o = Reg.ERR_CFG ∨ o = Reg.TILE_WDOG
      ∨ o = Reg.LINK_ROUTE ∨ o = Reg.LINK_ROUTE + 4 ∨ o = Reg.LINK_BEAT ∨ o = Reg.PWR_OP then two
  else if 0x80000 ≤ o ∧ o < 0x80400 then three
  else if o = Reg.PWR_REGION ∨ o = Reg.PWR_SLEEP then some [tsFwReady]
  else if o = Reg.TIME_NOW ∨ o = Reg.TIME_NOW + 4 ∨ o = Reg.MEM_CFG then some [tsBootRom, tsMonitor, tsFwReady]
  else none

/-- A register that the running check examines (R305). -/
def State.examined (s : State) (o : Nat) : Bool :=
  let c := o % 0x10000
  match (s.checks.head?.map fun (c : Check) => c.what : Option Enable) with
  | some (.queue _) => o == Reg.MEM_CFG
  | some .job =>
    o == Reg.BEAT_CFG || o == Reg.BEAT_ALIGN || o == Reg.MEM_SPLIT || o == Reg.BAR_ROOT || o == Reg.BAR_ROOT + 4 || o == Reg.ERR_CFG
      || (decide (0x81000 ≤ o) && decide (o < 0x81400) && decide (o % 16 < 8))
      || (decide (0x100000 ≤ o) && decide (o < 0x500000)
          && ((decide (0x100 ≤ c) && decide (c < 0x140) && decide (c % 16 < 8)) || c == 0x180 || c == 0x7000 || c == 0x7004
              || (decide (0x8400 ≤ c) && decide (c < 0x8420))))
  | some (.link e) => decide (Reg.LINK_VCQ e 0 ≤ o) && decide (o < Reg.LINK_VCQ e 16)
  | some .reduce => decide (0x90120 ≤ o) && decide (o < 0x902A0)
  | none => false

/-- The queue register of a queue that is not DISABLED refuses (R301): `QUEUE_CTL` where a field other than EN changes, the bases and
`QUEUE_SEQ` always; and `QUEUE_CTL` with EN = 1 while the check that examines it runs (R305). -/
def State.queueRefuses (s : State) (o v : Nat) : Bool :=
  let q := (o - 0x40000) / 32
  let st := s.fld (Reg.QUEUE_STATE_STATE q)
  if o % 32 = 0 then
    (st != 0 && (s.rd o).toNat / 2 != v % 2 ^ 20 / 2) || (st == 3 && v.testBit 0)
      || (v.testBit 0 && (s.checks.head?.map fun (c : Check) => c.what) == some (Enable.queue q))
  else (o % 32 == 8 || o % 32 == 12 || o % 32 == 16 || o % 32 == 28) && st != 0

/-- The edge registers' own rules (R395, R400, R402, R404): 0, or the reason of the refusal. A discarded LANE_ERR_MAX of 0 is no
change (R456). -/
def State.edgeRefuses (s : State) (o v : Nat) : Nat :=
  let e := (o - 0x500000) / 0x1000
  let r := o % 0x1000
  let en := s.flag (Reg.LINK_CTL_EN e)
  if r = 0 then
    (if (en && bits v 8 8 != 0 && s.fld (Reg.LINK_CTL_LANE_ERR_MAX e) != bits v 8 8) || (v.testBit 0 && decide (s.ts < tsBootRom)) then 0x0110 else 0)
  else if 0x100 ≤ r ∧ r < 0x140 then (if en then 0x0110 else 0)
  else if r = 0x200 then
    (if en && !s.dev.testMode then 0x0110
    else if bits v 0 3 = 6 ∧ !s.peerBit e 51 then 0x0305 else 0)
  else 0

/-- Whether a write of `LINK_BEAT` is accepted (R395). -/
def State.beatTreeOk (s : State) (v : Nat) : Bool :=
  (List.range 4).all fun e => !(bits v 0 3 == e || (bits v 3 4).testBit e) || (s.edgeUp e && s.peerBit e 50)

/-- The refusal of a write: status and reason, OK and 0 where the register takes it. -/
def State.writeRefusal (s : State) (o v : Nat) : Nat × Nat :=
  let no := (stRefusedState, 0x0110)
  let closed := match writeStates o with
    | some l => !l.contains s.ts && (o != Reg.PWR_SLEEP || v.testBit 0)
    | none => false
  if 0x5C0000 ≤ o ∧ o < 0x600000 ∧ !s.unlocked then (stRefusedConfig, 0x0703)
  else if (regInfo o).isNone || s.absent o then (stOk, 0)
  else if closed || s.examined o then no
  else if o = Reg.PWR_OP ∧ !s.vfValid (v % 16) then (stRefusedConfig, 0x0507)
  else if o = Reg.LINK_BEAT ∧ !s.beatTreeOk v then (stRefusedConfig, 0x0305)
  else if o = Reg.TILE_CTL ∧ !v.testBit 0 ∧ tsRunning ≤ s.ts ∧ s.ts ≤ tsRecovering then no
  else if 0x40000 ≤ o ∧ o < 0x80000 ∧ s.queueRefuses o v then no
  else if 0x500000 ≤ o ∧ o < 0x504000 ∧ s.edgeRefuses o v ≠ 0 then
    (if s.edgeRefuses o v = 0x0305 then (stRefusedConfig, 0x0305) else no)
  else if 0x508000 ≤ o ∧ o < 0x508800 ∧ o % 256 = 8 ∧ s.fld (Reg.VPORT_STATUS_STATE ((o - 0x508000) / 256)) ≠ 0 ∧ !s.dev.testMode then no
  else (stOk, 0)

/-! ## Doorbells (R288 to R290) -/

/-- A doorbell message reaches the sequencer. -/
def State.ring (s : State) (v : Nat) : State :=
  let q := bits v 0 13
  let cq := bits v 13 1 = 1
  let i := bits v 16 16
  let st := s.fld (Reg.QUEUE_STATE_STATE q)
  let log (s : State) (r : Nat) : State := s.logEvent 0x25 r (s.agentAddr 0) v
  if bits v 14 2 ≠ 0 ∨ 2 ^ 32 ≤ v then log (s.count Reg.QDB_DROP_COUNT 1) 0x0101
  else if st < 2 ∨ (!cq ∧ st ≠ 2) then s.count Reg.QDB_DROP_COUNT 1
  else if cq then
    let n := s.cqEntries q
    let t := s.fld (Reg.CQ_PTR_TAIL q)
    if n ≤ i ∨ (t + n - s.fld (Reg.CQ_PTR_HEAD q)) % n < (t + n - i) % n then log (s.doorbellError q 0x0106) 0x0106
    else s.setFld (Reg.CQ_PTR_HEAD q) i
  else if s.sqEntries q ≤ i then log (s.doorbellError q 0x0105) 0x0105
  else s.setFld (Reg.SQ_PTR_TAIL q) i

/-- DOORBELL: a message to agent 0x000 (log entry 21). Before FW_READY every queue is DISABLED, and R290 counts the doorbell. -/
def execDoorbell (v : DWord) (s : State) : Host.Outcome State Fault Refusal :=
  .next (if s.awake then (s.takeCtl fun m => cmSub m == 1 && leNat (m.data.take 8) == v.toNat).ring v.toNat else s)

/-! ## Writes that are accepted -/

/-- Fields that a write leaves alone because its value lies outside their range (R456). -/
def rangeKept (o v : Nat) : Nat :=
  let c := if 0x100000 ≤ o ∧ o < 0x500000 then o % 0x10000 else 0
  if o = Reg.BEAT_CFG then (if bits v 0 5 < 10 ∨ 16 < bits v 0 5 then 0x1F else 0)
  else if o = Reg.ERR_CFG then (if bits v 16 8 = 0 then 0xFF0000 else 0)
  else if o = Reg.PWR_CAP then (if bits v 0 11 < 400 ∨ 1650 < bits v 0 11 then 0x7FF else 0)
  else if o = Reg.PWR_LIM then (if bits v 8 8 = 0 then 0xFF00 else 0)
  else if o = Reg.TILE_WDOG ∨ c = 0xA028 then (if bits v 0 24 = 0 then 0xFFFFFF else 0)
  else if c = 0x8100 then (if bits v 0 16 = 0 then 0xFFFF else 0)
  else if c = 0x7004 then (if 1024 < bits v 0 11 then 0x7FF else 0)
  else if 0x500000 ≤ o ∧ o < 0x504000 ∧ o % 0x1000 = 0 then (if bits v 8 8 = 0 then 0xFF00 else 0)
  else 0

/-- Set the RW fields of a word but those of a mask, and clear its W1C flags where the write has a 1 (R7, R8, R35). -/
def State.storeWord (s : State) (o : Nat) (v : Word) (keep : Nat) : State :=
  match regInfo o with
  | some i =>
    let m := BitVec.ofNat 32 i.acc.rw &&& ~~~(BitVec.ofNat 32 keep) &&& ~~~(BitVec.ofNat 32 (rangeKept o v.toNat))
    s.wr o (((s.rd o &&& ~~~m) ||| (v &&& m)) &&& ~~~(v &&& BitVec.ofNat 32 i.acc.w1c))
  | none => s

/-- An edge goes out of service (R392, R402): what its replay buffer and its queue hold is discarded. -/
def State.edgeOut (s : State) (e st : Nat) : State :=
  (s.setFld (Reg.LINK_STATUS_STATE e) st).modEdge e fun x => { ingress := x.ingress }

/-- EN of an edge is written 0 (R402). -/
def State.linkOff (s : State) (e : Nat) : State :=
  if !s.flag (Reg.LINK_CTL_EN e) then s
  else
    let s1 := (s.setFlag (Reg.LINK_CTL_EN e) false).modEdge e fun x => { x with leaving := true }
    if (s.edge e).replay.isEmpty then s1.edgeOut e 0 else s1

/-- An enable bit other than a queue's is written (R304): a check starts where the bit is 0 and none is under way. -/
def State.enable (s : State) (w : Enable) (en : Fld) (on : Bool) (off : State → State) (starter : Option (Nat × Nat)) : State :=
  if !on then off s
  else if s.flag en || s.checks.any (fun c => decide (c.what = w)) then s
  else s.checkStart w starter

/-- A write of `LINK_BEAT` (R395). -/
def State.linkBeat (s : State) (v : Nat) : State :=
  let s1 := s.storeWord Reg.LINK_BEAT (BitVec.ofNat 32 v) 0
  let up := bits v 0 3
  let s1 := { s1 with
    beat := { s1.beat with probes := if up < 4 then s1.beat.probes ++ [none] else [] }
    pwr := { s1.pwr with child := s1.pwr.child.filter fun p => (s1.fld Reg.LINK_BEAT_DOWN).testBit p.1 } }
  if up < 4 then s1.modEdge up fun x => { x with lsym := x.lsym ++ [7#32] }
  else if s1.flag Reg.BEAT_CFG_MASTER then s1.setFld Reg.BEAT_ALIGN_LOCAL_LAT 0
  else s1

/-- Start a loop-back run on an edge (R400). -/
def State.linkLoop (s : State) (e : Nat) (v : Nat) : State :=
  let s1 := s.setFld (Reg.LINK_LOOP_MODE e) (bits v 0 2)
  if v.testBit 2 ∧ (bits v 0 2 = 1 ∨ bits v 0 2 = 2) then
    ((s1.setFlag (Reg.LINK_LOOP_DONE e) false).setFld (Reg.LINK_STATUS_STATE e) 5).modEdge e fun x => { x with loop := true }
  else s1

/-- Start a loop-back run on a vertical port (R400). -/
def State.vportLoop (s : State) (p : Nat) (v : Nat) : State :=
  let s1 := s.setFld (Reg.VPORT_LOOP_MODE p) (bits v 0 2)
  if v.testBit 2 ∧ (bits v 0 2 = 1 ∨ bits v 0 2 = 2) then
    ((s1.setFlag (Reg.VPORT_LOOP_DONE p) false).setFld (Reg.VPORT_STATUS_STATE p) 2).showRemap
  else s1

/-- A write of `PWR_OP` (R361). -/
def State.opWrite (s : State) (v : Nat) (starter : Option (Nat × Nat)) : State := s.opStart (v % 16) starter

/-- What a write to a cluster block does (R181, R215, R216, R218). -/
def State.writeCluster (s : State) (o : Nat) (v : Word) : State :=
  let site := (o - 0x100000) / 0x10000
  let c := o % 0x10000
  if c = 0x2804 then s.pstoreWrite site v
  else if c = 0x9100 then s.bankOffReq site v.toNat
  else if c = 0x9104 then s.bankOnReq site v.toNat
  else if c = 0x7008 then (if v.getLsbD 0 then s.landClear site else s)
  else s.storeWord o v 0

/-- What a write to the edges' and ports' range does. -/
def State.writeEdge (s : State) (o : Nat) (v : Word) (starter : Option (Nat × Nat)) : State :=
  let e := (o - 0x500000) / 0x1000
  if o < 0x504000 then
    (if o % 0x1000 = 0 then
      (s.storeWord o v 1).enable (.link e) (Reg.LINK_CTL_EN e) (v.getLsbD 0) (fun s => s.linkOff e) starter
    else if o % 0x1000 = 0x200 then s.linkLoop e v.toNat
    else s.storeWord o v 0)
  else if 0x508000 ≤ o ∧ o < 0x508800 ∧ o % 256 = 8 then s.vportLoop ((o - 0x508000) / 256) v.toNat
  else if o = Reg.LINK_BEAT then s.linkBeat v.toNat
  else s.storeWord o v 0

/-- A write of `AON_CMP[n]`: a comparator that it arms fires where its condition holds (R374). -/
def State.cmpWrite (s : State) (n : Nat) (v : Word) : State :=
  let s1 := s.storeWord (Reg.AON_CMP n) v 0
  if !s.flag (Reg.AON_CMP_EN n) && s.flag (Reg.AON_CMP_COND n) then s1.cmpFire n else s1

/-- What the accepted write of one word does; one of `PKG_ID` outside FW_READY is discarded (R32). -/
def State.writeWord (s : State) (o : Nat) (v : Word) (starter : Option (Nat × Nat)) : State :=
  if 0x100000 ≤ o ∧ o < 0x500000 then s.writeCluster o v
  else if 0x500000 ≤ o ∧ o < 0x580000 then s.writeEdge o v starter
  else if 0x40000 ≤ o ∧ o < 0x80000 ∧ o % 32 = 0 then
    let q := (o - 0x40000) / 32
    let s1 := s.storeWord o v 1
    if v.getLsbD 0 then s1.queueEnable q starter else s1.queueDisable q
  else if o = Reg.TILE_CTL then
    s.enable .job Reg.TILE_CTL_JOB_EN (v.getLsbD 0) (fun s => s.setFlag Reg.TILE_CTL_JOB_EN false) starter
  else if o = Reg.REDUCE_CTL then
    s.enable .reduce Reg.REDUCE_CTL_EN (v.getLsbD 0) (fun s => s.setFlag Reg.REDUCE_CTL_EN false) starter
  else if o = Reg.QDB then s.ring v.toNat
  else if o = Reg.PWR_OP then s.opWrite v.toNat starter
  else if o = Reg.PWR_REGION then s.regionWrite (v.toNat % 256)
  else if o = Reg.PWR_SLEEP then (if v.getLsbD 0 && s.sleep == 0 then s.setFld Reg.PWR_SLEEP_STATE 1 else s)
  else if o = Reg.DBG_STATE then (if v.getLsbD 2 then s.lock else s)
  else if o = Reg.PKG_ID ∧ s.ts ≠ tsFwReady then s
  else
    match (List.range 4).find? fun n => Reg.AON_CMP n == o with
    | some n => s.cmpWrite n v
    | none => s.storeWord o v 0

/-- What the accepted write of a 64-bit register does: both halves, or the high half alone (R12). The bits of a comparator's value
that it does not use are reserved (R8, R374). -/
def State.writePair (s : State) (o : Nat) (lo : Option Word) (hi : Word) : State :=
  let s1 := match lo with
    | some l => s.storeWord o l 0
    | none => s
  let s2 := s1.storeWord (o + 4) hi 0
  if o = Reg.TIME_NOW then s2.setTime (s2.rd64 Reg.TIME_NOW)
  else if o = Reg.AON_CMP_VAL 3 then s2.wr64 o 0
  else if o = Reg.AON_CMP_VAL 1 then (s2.wr64 o (s2.rd64 o % 2 ^ 10)).cmpSee 1
  else if o = Reg.AON_CMP_VAL 0 then (s2.wr64 o (s2.rd64 o % 2 ^ 8)).cmpSee 0
  else if o = Reg.AON_CMP_VAL 2 then s2.cmpSee 2
  else s2

/-- Write one word that no rule refuses (R7 to R12, R31). -/
def State.ctlPut (s : State) (q : Requester) (o : Nat) (v : Word) (starter : Option (Nat × Nat)) : State :=
  match s.windowAt o, regInfo o with
  | some (site, a), _ => (s.windowReady site a).sliceWrite site a (leBytes 4 v.toNat) portWho
  | none, none => s
  | none, some i =>
    if s.absent o then s
    else if !i.pair then s.writeWord o v starter
    else if i.idx = 0 then { s with wrHold := Store.put s.wrHold (portKey q) { tag := o, val := v } }
    else
      match s.wrHold.find? fun p => p.1 == portKey q && p.2.tag == o - 4 with
      | some p => ({ s with wrHold := Store.drop s.wrHold (portKey q) }).writePair (o - 4) (some p.2.val) v
      | none => s.writePair (o - 4) none v

/-- One write access: misaligned, refused, or performed. -/
def State.ctlWrite (s : State) (q : Requester) (o : Nat) (v : Word) : State :=
  if !s.portOpen q then s
  else if o % 4 ≠ 0 then s.badAccess o
  else if (s.writeRefusal o v.toNat).1 ≠ stOk then s
  else s.ctlPut q o v none

/-- Read words in ascending order: their values as one number, low word first. -/
def State.readWords (s : State) (q : Requester) (o : Nat) : Nat → Nat × State
  | 0 => (0, s)
  | n + 1 =>
    let r := s.ctlRead q o
    let t := State.readWords r.2 q (o + 4) n
    (r.1.toNat + t.1 * 2 ^ 32, t.2)

end Sys2Proof.Machine
end

