-- ==== Sys2Proof/Machine/Queues.lean ====
section
/-! DEFINITION. Packets (R291 to R293), fetching (R294 to R297), the legality of commands (R312 to R314) and their parameters (R315). -/

namespace Sys2Proof.Machine

/-! ## Opcodes (R312) -/

/-- States in which an opcode is legal, none for an undefined opcode. -/
def legalStates (op : Nat) : Option (List Nat) :=
  let all := [tsFwReady, tsJobLoaded, tsRunning, tsPaused, tsRecovering, tsFailed]
  if legalInFailed op && op != 0x51 && op != 0x72 then some all
  else match op with
    | 0x10 | 0x40 => some [tsFwReady, tsJobLoaded]
    | 0x11 => some [tsJobLoaded, tsPaused]
    | 0x12 | 0x14 | 0x15 | 0x41 => some [tsRunning]
    | 0x13 => some [tsJobLoaded, tsRunning, tsPaused, tsRecovering]
    | 0x20 | 0x21 | 0x22 => some [tsFwReady, tsJobLoaded, tsRunning, tsPaused]
    | 0x23 => some [tsRunning, tsPaused]
    | 0x30 | 0x31 => some [tsJobLoaded, tsRunning, tsPaused]
    | 0x51 | 0x72 => some [tsFwReady, tsJobLoaded, tsPaused, tsFailed]
    | 0x52 => some [tsFwReady, tsJobLoaded, tsPaused]
    | _ => none

/-- Opcodes whose JOB_ID must match (the J of R312). -/
def jobOp (op : Nat) : Bool :=
  op == 0x11 || op == 0x12 || op == 0x13 || op == 0x14 || op == 0x15 || op == 0x23 || op == 0x30 || op == 0x31 || op == 0x41 || op == 0x52

/-! ## Parameters (R315) -/

/-- Place and width of each parameter field of an opcode. -/
def paramFields (op : Nat) : List (Nat × Nat) :=
  match op with
  | 0x02 => [(0, 32), (32, 3)]
  | 0x03 => [(0, 32), (32, 4), (64, 256)]
  | 0x10 => [(0, 48), (64, 16)]
  | 0x11 => [(0, 8), (16, 16)]
  | 0x12 | 0x14 => [(0, 32)]
  | 0x15 => [(0, 16)]
  | 0x20 | 0x21 => [(0, 64), (64, 64), (128, 32), (160, 16), (176, 6), (182, 1), (185, 6), (192, 16)]
  | 0x22 => [(0, 64), (64, 64), (128, 32), (160, 16), (176, 6), (182, 1), (183, 2), (185, 6), (192, 16), (208, 32), (240, 32)]
  | 0x23 => [(0, 64), (64, 6)]
  | 0x30 => [(0, 16), (16, 6), (32, 32)]
  | 0x31 => [(0, 16), (16, 6), (32, 24), (56, 1), (64, 32)]
  | 0x32 => [(0, 16), (16, 6)]
  | 0x40 => [(0, 4), (32, 32), (64, 32), (96, 32), (128, 48)]
  | 0x41 => [(0, 4), (16, 12)]
  | 0x50 => [(0, 48), (48, 10), (58, 11)]
  | 0x51 => [(0, 6), (6, 4), (10, 2)]
  | 0x52 => [(0, 6)]
  | 0x60 => [(0, 16)]
  | 0x61 => [(0, 4)]
  | 0x70 => [(0, 48), (64, 256)]
  | 0x72 => [(0, 2), (64, 48)]
  | _ => []

/-- A reserved parameter bit is non-zero. -/
def paramReserved (f : Flight) : Bool :=
  (paramFields f.opcode).foldl (fun v p => v - bits v p.1 p.2 * 2 ^ p.1) f.param != 0

/-- Fields of an address word (R323). -/
def awAddr (w : Nat) : Nat := bits w 0 48
def awSpace (w : Nat) : Nat := bits w 48 2
def awSite (w : Nat) : Nat := bits w 50 6
/-- An address word whose reserved bits are zero and whose space is not reserved. -/
def awOk (w : Nat) : Bool := bits w 56 8 == 0 && decide (awSpace w < 2)

/-- A range of an address word lies within an active slice, or within package memory (R324). -/
def State.awFits (s : State) (w n : Nat) : Bool :=
  if awSpace w = 0 then decide (awAddr w + n ≤ s.memSize)
  else s.live (awSite w) && decide (awAddr w + n ≤ sliceSize (awSite w))

/-- The address words of a data command: FILL has a pattern in place of its source. -/
def Flight.words (f : Flight) : List Nat := if f.opcode = 0x21 then [f.p 64 64] else [f.p 0 64, f.p 64 64]

/-- Rows, columns and element bytes of a TRANSPOSE. -/
def Flight.shape (f : Flight) : Nat × Nat × Nat := (f.p 128 16, f.p 144 16, ewBytes (f.p 183 2))

/-- Bytes from the first to the last byte of the source, and of the destination, of a data command. -/
def Flight.extents (f : Flight) : Nat × Nat :=
  if f.opcode = 0x22 then
    ((f.shape.1 - 1) * f.p 208 32 + f.shape.2.1 * f.shape.2.2, (f.shape.2.1 - 1) * f.p 240 32 + f.shape.1 * f.shape.2.2)
  else (f.p 128 32, f.p 128 32)

/-- The checks of a data command: 0, or the reason of the first that fails. -/
def State.dataCheck (s : State) (f : Flight) : Nat :=
  let src := f.p 0 64
  let dst := f.p 64 64
  let e := f.extents
  let size : Bool := match f.opcode with
    | 0x20 => f.p 128 32 != 0
    | 0x21 => f.p 128 32 != 0 && f.p 128 32 % 8 == 0
    | _ => f.shape.1 != 0 && f.shape.2.1 != 0 && f.p 183 2 != 3
  if !(f.words.all awOk) || !size || !ownOk (f.p 160 16) then 0x0218
  else if !s.awFits dst e.2 || (f.opcode != 0x21 && !s.awFits src e.1) then 0x0211
  else if f.opcode ≠ 0x21 ∧ awSpace src = awSpace dst ∧ (awSpace src = 0 ∨ awSite src = awSite dst) ∧ overlap (awAddr src, e.1) (awAddr dst, e.2) = true then 0x0210
  else 0

/-- A reference that SIGNAL and WAIT accept: scope 0 at an active site, or scope 1 of this tile. -/
def State.hostRef (s : State) (f : Flight) : Bool :=
  ownOk (f.p 0 16) && (bits (f.p 0 16) 14 2 != 0 || s.live (f.p 16 6))

/-- Parameters valid for the opcode (R315): 0, or the reason of the refusal. -/
def State.paramCheck (s : State) (f : Flight) : Nat :=
  let p := f.p
  let need (ok : Bool) (r : Nat) : Nat := if ok then 0 else r
  if paramReserved f then 0x0218
  else match f.opcode with
    | 0x02 =>
      if p 32 3 = 0 ∨ 4 < p 32 3 then 0x0218 else need (p 0 32 % 4 == 0 && decide (p 0 32 + 4 * p 32 3 ≤ 2 ^ 32)) 0x010F
    | 0x03 =>
      if p 32 4 = 0 ∨ 8 < p 32 4 then 0x0218 else need (p 0 32 % 4 == 0 && decide (p 0 32 + 4 * p 32 4 ≤ 2 ^ 32)) 0x010F
    | 0x10 => need (p 0 48 % 64 == 0 && p 64 16 != 0) 0x0218
    | 0x11 => need ((p 0 8).testBit (s.fld Reg.TILE_ID_TILE_NUM) && p 16 16 != 0) 0x0218
    | 0x15 => need (p 0 16 != 0) 0x0218
    | 0x20 | 0x21 | 0x22 => s.dataCheck f
    | 0x23 => need (p 0 64 != 0 && s.live (p 64 6)) 0x060B
    | 0x30 => if (sext (p 32 32) 32).natAbs < 2 ^ 24 then need (s.hostRef f) 0x080B else 0x0218
    | 0x31 => if p 64 32 = 0 then 0x0218 else need (s.hostRef f) 0x080B
    | 0x32 => need (s.hostRef f || (bits (p 0 16) 14 2 == 2 && refOk (p 0 16))) 0x080B
    | 0x40 | 0x41 => need (p 0 4 != 0 && decide (p 0 4 ≤ 12)) 0x040D
    | 0x50 => need (p 0 48 % 32 == 0 && p 58 11 != 0 && decide (p 58 11 ≤ 1024)) 0x0218
    | 0x51 => need ((p 10 2 == 0 && s.live (p 0 6) && unitAt (p 0 6) (p 6 4)) || (p 10 2 == 1 && decide (p 6 4 < 4))
        || (p 10 2 == 2 && decide (p 6 4 < 8))) 0x0218
    | 0x60 => need (decide (400 ≤ p 0 16) && decide (p 0 16 ≤ 1650)) 0x0501
    | 0x70 => need (p 0 48 % 64 == 0) 0x0218
    | 0x72 => need (p 0 2 != 3) 0x0218
    | _ => 0

/-! ## Legality (R312, R313) -/

/-- The test of the tile state: 0, or the reason of REFUSED_STATE. -/
def State.stateCheck (s : State) (f : Flight) : Nat :=
  if !((legalStates f.opcode).getD []).contains s.ts then 0x0220 + s.ts
  else if (f.opcode = 0x20 ∨ f.opcode = 0x21 ∨ f.opcode = 0x22) ∧ s.ts = tsRunning ∧ f.words.any (fun w => awSpace w == 1) then 0x020F
  else if f.opcode = 0x52 ∧ s.ts = tsPaused ∧ !s.flag Reg.TILE_STATE_PAUSED_AT_STEP then 0x0214
  else 0

/-- The test of JOB_ID: a J command of another job. -/
def State.jobMismatch (s : State) (f : Flight) : Bool :=
  jobOp f.opcode && decide (tsJobLoaded ≤ s.ts) && f.jobId != s.fld Reg.TILE_CTL_JOB_ID && !(f.opcode == 0x13 && f.jobId == 0xFFFF)

/-- The opcode's own conditions: status and reason, OK and 0 where they hold. -/
def State.condCheck (s : State) (f : Flight) : Nat × Nat :=
  let no (b : Bool) (st r : Nat) : Nat × Nat := if b then (st, r) else (stOk, 0)
  match f.opcode with
  | 0x11 => no (s.ts == tsJobLoaded && !s.flag Reg.TILE_CTL_JOB_EN) stRefusedState 0x0205
  | 0x12 =>
    if s.flag Reg.TILE_STATE_PAUSE_PENDING then (stRefusedState, 0x021A)
    else no (f.p 0 32 != 0 && decide (f.p 0 32 ≤ s.beatLow)) stRefusedState 0x0206
  | 0x14 =>
    if s.flag Reg.TILE_STATE_STEP_OPEN then (stRefusedState, 0x0207)
    else no (s.job.stepped && f.p 0 32 != ((s.rd Reg.TILE_STEP).toNat + 1) % 2 ^ 32) stInvalid 0x0218
  | 0x15 => no (!s.flag Reg.TILE_STATE_STEP_OPEN) stRefusedState 0x0208
  | 0x41 =>
    if !s.redOn (f.p 0 4) || !s.redLocal (f.p 0 4) then (stRefusedConfig, 0x040E)
    else no (f.p 16 12 != s.fld (Reg.REDUCE_GST_NEXT (f.p 0 4))) stRefusedState 0x040C
  | 0x52 =>
    if isVector (f.p 0 6) || !s.active (f.p 0 6) then (stRefusedConfig, 0x0216)
    else no (s.flag (Reg.REGION_MAP_NO_SPARE (f.p 0 6 / 8))) stRefusedConfig 0x0215
  | _ => (stOk, 0)

/-- Check 7 of R293, in the order of R313. -/
def State.judge (s : State) (f : Flight) : Nat × Nat :=
  if s.stateCheck f ≠ 0 then (stRefusedState, s.stateCheck f)
  else if s.jobMismatch f then (stRefusedState, 0x0204)
  else s.condCheck f

/-! ## Fetching (R292 to R297) -/

/-- A queue is eligible for a fetch (R295). -/
def State.eligible (s : State) (q : Nat) : Bool :=
  let out := s.fld (Reg.QUEUE_STATE_OUTST q)
  let n := s.cqEntries q
  s.fld (Reg.QUEUE_STATE_STATE q) == 2 && s.fld (Reg.SQ_PTR_HEAD q) != s.fld (Reg.SQ_PTR_TAIL q)
    && decide (out < s.fld (Reg.QUEUE_CTL_LIMIT q))
    && decide (out + 1 ≤ (s.fld (Reg.CQ_PTR_HEAD q) + 2 * n - s.fld (Reg.CQ_PTR_TAIL q) - 1) % n)
    && !(s.flights.any fun f => f.queue == q && f.opcode == 1) && decide (s.fld Reg.Q_INFLIGHT_COUNT < 768)

/-- The queue whose turn is next (R296). -/
def State.nextQueue (s : State) : Option Nat :=
  let prio (q : Nat) : Nat := s.fld (Reg.QUEUE_CTL_PRIO q)
  let el := s.liveQueues.filter s.eligible
  let top := (el.map prio).foldl max 0
  let l := el.filter fun q => prio q == top
  match l.find? fun q => decide (Store.get 8192 s.served top < q) with
  | some q => some q
  | none => l.head?

/-- A refusal at the fetch: its reply, and what R299 says. -/
def State.refuse (s : State) (f : Flight) (status reason : Nat) : State :=
  let s1 := s.writeReply f.queue f.tag status reason f.seq f.head f.jobId 0
  if f.halt && haltsOn status then s1.queueError f.queue reason else s1

/-- The command joins those in flight (R294). -/
def State.join (s : State) (f : Flight) : State :=
  let s1 := (s.setFld (Reg.QUEUE_STATE_OUTST f.queue) (s.fld (Reg.QUEUE_STATE_OUTST f.queue) + 1)).setFld
    Reg.Q_INFLIGHT_COUNT (s.fld Reg.Q_INFLIGHT_COUNT + 1)
  let laps := (s1.flights.filter fun g => g.queue == f.queue && g.seq == f.seq).map fun g => g.lap + 1
  { s1 with flights := s1.flights ++ [{ f with lap := laps.foldl max 0 }] }

/-- Checks 3 to 7 of R293; a serial command is judged when its turn begins (R314). -/
def State.takeIn (s : State) (f : Flight) (reserved : Bool) (plen : Nat) : State :=
  if reserved then s.refuse f stInvalid 0x0108
  else if 48 < plen then s.refuse f stInvalid 0x0107
  else if (legalStates f.opcode).isNone then s.refuse f stInvalid 0x0109
  else if s.paramCheck f ≠ 0 then s.refuse f stInvalid (s.paramCheck f)
  else if serialOp f.opcode then s.join f
  else if (s.judge f).1 ≠ stOk then s.refuse f (s.judge f).1 (s.judge f).2
  else s.join f

/-- A fetch that returned poison (check 1): the reply's TAG is 0, its SEQ and JOB_ID are free values. -/
def State.fetchPoison (s : State) (q head : Nat) : State :=
  let w := (Config.word s.free).toNat
  let s1 := ({ s with free := s.free + 1 } : State).writeReply q 0 stFaultAbandoned 0x010E (bits w 0 16) head (bits w 16 16) 0
  (s1.queueError q 0x010E).logEvent 0x25 0x010E (s.agentAddr 0) (q + head * 2 ^ 16)

/-- Fetch the command at a queue's HEAD. -/
def State.fetchFrom (s : State) (q : Nat) : State :=
  let h := s.fld (Reg.SQ_PTR_HEAD q)
  let a := s.sqBase q + 64 * h
  if s.pkgBad a 64 then s.fetchPoison q h
  else
    let w := leNat (s.pkgRead a 64)
    let seq := bits w 16 16
    let next := s.fld (Reg.QUEUE_SEQ_NEXT q)
    let plen := bits w 64 6
    if seq ≠ next then
      (s.writeReply q (bits w 32 16) stInvalid 0x0103 seq h (bits w 48 16) (next + seq * 2 ^ 16)).queueError q 0x0103
    else
      let h1 := (h + 1) % s.sqEntries q
      let s1 := (s.setFld (Reg.QUEUE_SEQ_NEXT q) (seq + 1)).setFld (Reg.SQ_PTR_HEAD q) h1
      let f : Flight :=
        { queue := q, seq := seq, opcode := bits w 0 8, tag := bits w 32 16, jobId := bits w 48 16, halt := bits w 8 1 == 1, head := h1
          param := bits w 128 (8 * min 48 plen) }
      s1.takeIn f (bits w 9 7 != 0 || bits w 70 58 != 0) plen

/-- COMMAND_FETCH: one turn of the firmware (R296). -/
def execCommandFetch (s : State) : Host.Outcome State Fault Refusal :=
  .next (if s.fw && s.sleep == 0 then
      match s.nextQueue with
      | some q =>
        ({ s with served := Store.put s.served (s.fld (Reg.QUEUE_CTL_PRIO q)) q } : State).fetchFrom q
      | none => s
    else s)

/-! ## Carrying out a command -/

/-- A command of this opcode, fetched and not yet carried out, to which its queue has come: commands of a queue start in fetch order
(R297), but JOB_STOP starts at once (R314, log entry 86). -/
def State.fetched? (s : State) (i : FlightId) (op : Nat) : Option Flight :=
  (s.flights.find? fun f => f.queue == i.queue.val && f.phase == .fetched && (op != 0x13 || f.opcode == 0x13)).filter fun f =>
    f.seq == i.seq.toNat && f.opcode == op

/-- A command in flight of one of these opcodes whose effect runs on. -/
def State.running? (s : State) (i : FlightId) (ops : List Nat) : Option Flight :=
  s.flights.find? fun f => f.queue == i.queue.val && f.seq == i.seq.toNat && ops.contains f.opcode && f.phase == .running

/-- Carry out a command judged at its fetch. -/
def State.cmd (s : State) (i : FlightId) (op : Nat) (act : Flight → State) : State :=
  if s.fw then
    match s.fetched? i op with
    | some f => act f
    | none => s
  else s

/-- The turn of a serial command has come (R314): no other holds the turn, none fetched earlier waits; JOB_STOP takes it at once. -/
def State.turnOf (s : State) (f : Flight) : Bool :=
  let holds (g : Flight) : Bool := serialOp g.opcode && g.phase == .running && g.opcode != 0x12
  if f.opcode = 0x13 then !(s.flights.any fun g => g.opcode == 0x13 && g.phase == .running)
  else !(s.flights.any holds) && ((s.flights.find? fun g => serialOp g.opcode && g.phase == .fetched) == some f)

/-- Carry out a serial command: it is judged as its turn begins. -/
def State.serialCmd (s : State) (i : FlightId) (op : Nat) (act : Flight → State) : State :=
  s.cmd i op fun f =>
    if !s.turnOf f then s
    else if (s.judge f).1 ≠ stOk then s.complete f (s.judge f).1 (s.judge f).2 0
    else act f

/-- The command's effect runs on. -/
def State.runOn (s : State) (f : Flight) : State := s.setFlight { f with phase := .running }

/-- A running command of an opcode. -/
def State.runningOp (s : State) (op : Nat) : Option Flight := s.flights.find? fun f => f.opcode == op && f.phase == .running

end Sys2Proof.Machine
end

