-- ==== Sys2Proof/Machine/Monitor.lean ====
section
/-! DEFINITION. The serial monitor (R435 to R437): its lines, its commands and the input that waits while a command runs. A command of the
table is a line that spells it; MONITOR_LINE_ERROR is a line character by character, which runs as the command it spells, if any. -/

namespace Sys2Proof.Machine

/-! ## Reply lines -/

/-- Several words, each of eight digits, low word first. -/
def wordsText (n v : Nat) : String := " ".intercalate ((List.range n).map fun i => hexText 8 (bits v (32 * i) 32))

/-- Several words of which word `k` is a Gulto address, in the text form of R27. -/
def recordText (k n v : Nat) : String :=
  " ".intercalate ((List.range n).map fun i => if i = k then addrText (bits v (32 * i) 32) else hexText 8 (bits v (32 * i) 32))

/-- The Gulto addresses that an entry of `ERR_LOG` holds: SOURCE; DETAIL [31:0] of class 0x21 (R334); the last signaller, DETAIL [63:32],
of 0x0802 and 0x0803 (R222). -/
def entryAddrs (v : Nat) : List Nat :=
  let reason := bits v 16 16
  [bits v 32 32] ++ (if bits v 0 8 = 0x21 then [bits v 192 32] else [])
    ++ (if reason = 0x0802 ∨ reason = 0x0803 then [bits v 224 32] else [])

/-- The line of an entry: its eight words (R437), then its addresses in the form of R27 (DESIGN CHOICE, log entry 106). -/
def entryText (v : Nat) : String := " ".intercalate (wordsText 8 v :: (entryAddrs v).map addrText)

/-- Bytes in hexadecimal. -/
def bytesText (l : List Byte) : String := String.join (l.map fun b => hexText 2 b.toNat)

/-- A monitor command runs on: its unit is under test, or what its write started has not ended. -/
def Mon.busy (m : Mon) : Bool := m.test.isSome || m.poke

/-- The monitor is served, no earlier command runs and no line waits (R435, R436). -/
def State.monitorOn (s : State) : Bool := s.awake && !s.mon.busy && s.mon.input.isEmpty

/-! ## Commands (R437) -/

/-- `state`. -/
def State.monState (s : State) : State :=
  let line (name : String) (n v : Nat) : String := name ++ " " ++ wordsText n v
  (s.print [line "TILE_STATE" 1 (s.rd Reg.TILE_STATE).toNat, line "BOOT_STATUS" 1 (s.rd Reg.BOOT_STATUS).toNat,
    line "SB_UID" 2 (s.rd64 Reg.SB_UID), line "FUSE_SEC" 1 (s.rd Reg.FUSE_SEC).toNat,
    line "DBG_STATE" 1 (s.rd Reg.DBG_STATE).toNat]).sayOk

/-- `log`: the latest 16 entries by default. -/
def State.monLog (s : State) (first count : Option Nat) : State :=
  let n := count.getD 16
  let f := first.getD ((s.fld Reg.ERR_STATUS_WR_IDX + 1024 - 16) % 1024)
  if n = 0 ∨ 1024 < n ∨ 1024 ≤ f ∨ (first = none ∧ count ≠ none) then s.sayErr 0x0710
  else (s.print ((List.range n).map fun i => entryText (s.rdWide (Reg.ERR_LOG ((f + i) % 1024)) 8))).sayOk

/-- `boot` (R428). -/
def State.monBoot (s : State) (offset : Word) : State :=
  if s.ts ≠ tsMonitor then s.sayErr (0x0220 + s.ts)
  else
    let s1 := s.sayOk.enter tsBootRom
    ({ s1 with boot := { s1.boot with flashOff := offset.toNat, retry := false } } : State).bootEnter 5

/-- The rates of R435, in the order of `MON_CFG.BAUD`. -/
def baudRates : List Nat := [115200, 230400, 460800, 921600, 1500000, 3000000]

/-- `baud`: the reply goes out at the old rate. -/
def State.monBaud (s : State) (rate : Nat) : State :=
  if !baudRates.contains rate then s.sayErr 0x0710
  else
    let s1 := s.sayOk
    { s1 with mon := { s1.mon with baudPend := some rate } }

/-- A monitor command that follows the state legality of an opcode from FW_READY on. -/
def State.monitorLegal (s : State) (op : Nat) : Bool := decide (s.ts < tsFwReady) || ((legalStates op).getD []).contains s.ts

/-- `unlock`: a new challenge. -/
def State.monUnlock (s : State) : State :=
  if !s.monitorLegal 0x72 then s.sayErr (0x0220 + s.ts)
  else
    let s1 := s.newChallenge
    (s1.print [bytesText (s1.boot.challenge.getD [])]).sayOk

/-- `unlock signature`: the answer, 96 bytes. -/
def State.monAnswer (s : State) (sig : List Byte) : State :=
  if sig.length ≠ 96 then s.sayErr 0x0710
  else if !s.monitorLegal 0x72 then s.sayErr (0x0220 + s.ts)
  else
    let r := s.answer (beNat sig)
    if r.1 = 0 then r.2.sayOk else r.2.sayErr r.1

/-- `lock`. -/
def State.monLock (s : State) : State := s.lock.sayOk

/-- Offsets that the monitor may read while debug is locked. -/
def peekOpen (o n : Nat) : Bool :=
  decide (o + 4 * n ≤ 0x10000) || (decide (0x5C0000 ≤ o) && decide (o + 4 * n ≤ 0x600000))

/-- `peek`. -/
def State.monPeek (s : State) (off count : Nat) : State :=
  if count = 0 ∨ 64 < count ∨ 2 ^ 32 < off + 4 * count then s.sayErr 0x0710
  else if !s.unlocked && !peekOpen off count then s.sayErr 0x0711
  else
    let r := s.readWords .monitor off count
    (r.2.print [wordsText count r.1]).sayOk

/-- A check or a move that the monitor's write started has not ended. -/
def State.pokeRuns (s : State) : Bool :=
  s.checks.any (fun c => c.starter == some monStarter) || (s.pwr.move.map fun m => m.starter == some monStarter).getD false

/-- `poke`: where the write starts a check or a move, the reply waits for its end, as a REG_WRITE does (R304, R316, R361). -/
def State.monPoke (s : State) (off : Nat) (v : Word) : State :=
  let r := s.writeRefusal off v.toNat
  if 2 ^ 32 ≤ off then s.sayErr 0x0710
  else if !s.unlocked then s.sayErr 0x0711
  else if off % 4 ≠ 0 then s.sayErr 0x010F
  else if r.1 ≠ stOk then s.sayErr r.2
  else
    let s1 := s.ctlPut .monitor off v (some monStarter)
    if s1.pokeRuns then { s1 with mon := { s1.mon with poke := true } } else s1.sayOk

/-- `sync`: the record of a cluster object, or of a tile object, LAST_SRC as an address (R27). -/
def State.monSync (s : State) (site : Option Site) (obj : Nat) : State :=
  if !s.unlocked then s.sayErr 0x0711
  else match site with
    | some t =>
      if 48 ≤ obj then s.sayErr 0x0710
      else (s.print [recordText 2 8 (if s.live t then s.objRecord t obj else 0)]).sayOk
    | none => if 256 ≤ obj then s.sayErr 0x0710 else (s.print [recordText 2 8 (s.tobjRecord obj)]).sayOk

/-- `selftest`: `index` is the site of KIND 0, the edge or port of the others; the reply follows at the test's end. -/
def State.monSelftest (s : State) (kind index unit : Nat) : State :=
  if !s.unlocked then s.sayErr 0x0711
  else if !s.monitorLegal 0x51 then s.sayErr (0x0220 + s.ts)
  else if kind = 0 ∧ (64 ≤ index ∨ !s.live index ∨ !unitAt index unit) then s.sayErr 0x0218
  else match (if kind = 0 then testOf 0 index unit else testOf kind 0 index) with
    | some u => { s.showFault u with mon := { s.mon with test := some u } }
    | none => s.sayErr 0x0218

/-! ## Lines (R436) -/

/-- The tokens of a line, separated by spaces. -/
def tokens : List Char → List (List Char)
  | [] => []
  | ' ' :: t => tokens t
  | c :: t =>
    match t with
    | [] => [[c]]
    | ' ' :: _ => [c] :: tokens t
    | _ =>
      match tokens t with
      | w :: ws => (c :: w) :: ws
      | [] => [[c]]

/-- The value of a digit below a base. -/
def digitOf (base : Nat) (c : Char) : Option Nat :=
  let n := c.toNat
  let d := if 48 ≤ n ∧ n ≤ 57 then n - 48 else if 65 ≤ n ∧ n ≤ 70 then n - 55 else if 97 ≤ n ∧ n ≤ 102 then n - 87 else base
  if d < base then some d else none

/-- Digits as a number: none for no digit, or for another character. -/
def digitsOf (base : Nat) (l : List Char) : Option Nat :=
  if l.isEmpty then none
  else l.foldl (fun a c => match a, digitOf base c with
    | some v, some d => some (v * base + d)
    | _, _ => none) (some 0)

/-- A number: decimal, or hexadecimal with 0x. -/
def numberOf (l : List Char) : Option Nat :=
  match l with
  | '0' :: 'x' :: t => digitsOf 16 t
  | _ => digitsOf 10 l

/-- Bytes written as pairs of hexadecimal digits. -/
def hexBytes : List Char → Option (List Byte)
  | [] => some []
  | a :: b :: t =>
    match digitsOf 16 [a, b], hexBytes t with
    | some v, some l => some (BitVec.ofNat 8 v :: l)
    | _, _ => none
  | [_] => none

/-- A command's word and its arguments where they are numbers. -/
def numberCommand (w : String) (l : List Nat) : Option Instr :=
  match w, l with
  | "state", [] => some .monitorState
  | "log", [] => some (.monitorLog none none)
  | "log", [a] => some (.monitorLog (some a) none)
  | "log", [a, b] => some (.monitorLog (some a) (some b))
  | "boot", [] => some (.monitorBoot 0)
  | "boot", [a] => if a < 2 ^ 32 then some (.monitorBoot (BitVec.ofNat 32 a)) else none
  | "baud", [a] => some (.monitorBaud a)
  | "unlock", [] => some .monitorUnlock
  | "lock", [] => some .monitorLock
  | "peek", [a] => some (.monitorPeek a 1)
  | "peek", [a, b] => some (.monitorPeek a b)
  | "poke", [a, b] => if b < 2 ^ 32 then some (.monitorPoke a (BitVec.ofNat 32 b)) else none
  | "sync", [a, b] => if a < 64 then some (.monitorSync (some (Fin.ofNat 64 a)) b) else none
  | "selftest", [a, b] => some (.monitorSelftest a b 0)
  | "selftest", [a, b, c] => some (.monitorSelftest a b c)
  | _, _ => none

/-- The command that a line spells, none for malformed input (R437). -/
def lineCommand (l : List Char) : Option Instr :=
  match (tokens l).map String.ofList with
  | [] => none
  | ["unlock", x] => (hexBytes x.toList).bind fun b => if b.length = 96 then some (.monitorUnlockSignature b) else none
  | ["sync", "tile", x] => (numberOf x.toList).map fun n => .monitorSync none n
  | w :: args => (args.mapM fun x => numberOf x.toList).bind (numberCommand w)

/-- The characters of a line, from its bytes. -/
def lineChars (l : List Byte) : List Char := l.map fun b => Char.ofNat b.toNat

/-- A line that is too long: beyond 128 characters, but for the answer to a challenge, which no shorter line holds (log entry 107). -/
def overlong (l : List Byte) : Bool :=
  decide (128 < l.length) &&
    match lineCommand (lineChars l) with
    | some (.monitorUnlockSignature _) => false
    | _ => true

/-- The length of a number's shortest spelling, with the space before it. -/
def argLen (n : Nat) : Nat := (toString n).length + 1

/-- The characters that a waiting line takes in the buffer, its end among them: of a command of the table, its shortest spelling in decimal
(log entry 107). -/
def lineLen (i : Instr) : Nat :=
  match i with
  | .monitorState => 6
  | .monitorLog a b => 4 + (a.map argLen).getD 0 + (b.map argLen).getD 0
  | .monitorBoot a => 5 + argLen a.toNat
  | .monitorBaud a => 5 + argLen a
  | .monitorUnlock => 7
  | .monitorUnlockSignature l => 8 + 2 * l.length
  | .monitorLock => 5
  | .monitorPeek a b => 5 + argLen a + argLen b
  | .monitorPoke a b => 5 + argLen a + argLen b.toNat
  | .monitorSync a b => 5 + ((a.map fun x => argLen x.val).getD 5) + argLen b
  | .monitorSelftest a b c => 9 + argLen a + argLen b + argLen c
  | .monitorLineError l => l.length + 1
  | _ => 0

/-- What one command does. -/
def State.monDo (s : State) (i : Instr) : State :=
  match i with
  | .monitorState => s.monState
  | .monitorLog a b => s.monLog a b
  | .monitorBoot a => s.monBoot a
  | .monitorBaud a => s.monBaud a
  | .monitorUnlock => s.monUnlock
  | .monitorUnlockSignature a => s.monAnswer a
  | .monitorLock => s.monLock
  | .monitorPeek a b => s.monPeek a b
  | .monitorPoke a b => s.monPoke a b
  | .monitorSync a b => s.monSync a b
  | .monitorSelftest a b c => s.monSelftest a b c
  | _ => s

/-- What one line does: an empty line is ignored, a malformed one answered, any other runs as the command it spells. -/
def State.monLine (s : State) (i : Instr) : State :=
  match i with
  | .monitorLineError l =>
    if (tokens (lineChars l)).isEmpty then s
    else match lineCommand (lineChars l) with
      | some c => s.monDo c
      | none => s.sayErr 0x0710
  | _ => s.monDo i

/-- Lines run one after another; a command that runs on holds those behind it (R436). -/
def State.monGo : List Instr → State → State
  | [], s => { s with mon := { s.mon with input := [] } }
  | i :: t, s => if s.mon.busy then { s with mon := { s.mon with input := i :: t } } else State.monGo t (s.monLine i)

/-- The buffer is served once no command runs. -/
def State.monResume (s : State) : State := if s.mon.busy || s.mon.input.isEmpty then s else State.monGo s.mon.input s

/-- The line too long for the monitor, or for what is left of its buffer while a command runs. -/
def State.lineRefused (s : State) (i : Instr) : Bool :=
  (match i with
    | .monitorLineError l => overlong l
    | _ => false)
  || (s.mon.busy && decide (256 < (s.mon.input.map lineLen).sum + lineLen i))

/-- A line arrives (R436): it is discarded whole with 0x070F, waits, or runs. -/
def State.monServe (s : State) (i : Instr) : State :=
  if !s.awake then s
  else if s.lineRefused i then s.sayErr 0x070F
  else State.monGo (s.mon.input ++ [i]) s

/-! ## The commands of the table -/

/-- MONITOR_STATE. -/
def execMonitorState (s : State) : Host.Outcome State Fault Refusal := .next (s.monServe .monitorState)

/-- MONITOR_LOG. -/
def execMonitorLog (first count : Option Nat) (s : State) : Host.Outcome State Fault Refusal := .next (s.monServe (.monitorLog first count))

/-- MONITOR_BOOT. -/
def execMonitorBoot (offset : Word) (s : State) : Host.Outcome State Fault Refusal := .next (s.monServe (.monitorBoot offset))

/-- MONITOR_BAUD. -/
def execMonitorBaud (rate : Nat) (s : State) : Host.Outcome State Fault Refusal := .next (s.monServe (.monitorBaud rate))

/-- BAUD_SWITCH. -/
def execBaudSwitch (s : State) : Host.Outcome State Fault Refusal :=
  .next (match (if s.awake then s.mon.baudPend else none) with
    | some r => ({ s with mon := { s.mon with baudPend := none } } : State).setFld Reg.MON_CFG_BAUD (indexOf baudRates r)
    | none => s)

/-- MONITOR_UNLOCK. -/
def execMonitorUnlock (s : State) : Host.Outcome State Fault Refusal := .next (s.monServe .monitorUnlock)

/-- MONITOR_UNLOCK_SIGNATURE. -/
def execMonitorUnlockSignature (sig : List Byte) (s : State) : Host.Outcome State Fault Refusal :=
  .next (s.monServe (.monitorUnlockSignature sig))

/-- MONITOR_LOCK. -/
def execMonitorLock (s : State) : Host.Outcome State Fault Refusal := .next (s.monServe .monitorLock)

/-- MONITOR_PEEK. -/
def execMonitorPeek (off count : Nat) (s : State) : Host.Outcome State Fault Refusal := .next (s.monServe (.monitorPeek off count))

/-- MONITOR_POKE. -/
def execMonitorPoke (off : Nat) (v : Word) (s : State) : Host.Outcome State Fault Refusal := .next (s.monServe (.monitorPoke off v))

/-- MONITOR_SYNC. -/
def execMonitorSync (site : Option Site) (obj : Nat) (s : State) : Host.Outcome State Fault Refusal :=
  .next (s.monServe (.monitorSync site obj))

/-- MONITOR_SELFTEST. -/
def execMonitorSelftest (kind index unit : Nat) (s : State) : Host.Outcome State Fault Refusal :=
  .next (s.monServe (.monitorSelftest kind index unit))

/-- MONITOR_LINE_ERROR (R436, R437): a line, as its characters. -/
def execMonitorLineError (line : List Byte) (s : State) : Host.Outcome State Fault Refusal := .next (s.monServe (.monitorLineError line))

/-- SELFTEST_DONE: the test of a unit ends; the monitor's next lines run where its command waited for the test. -/
def execSelftestDone (u : TestUnit) (r : TestEnd) (s : State) : Host.Outcome State Fault Refusal :=
  .next (if s.awake then (s.selftestDone u r).monResume else s)

end Sys2Proof.Machine
end

