-- ==== Sys2Proof/Machine/Accesses.lean ====
section
/-! DEFINITION. The commands that are register accesses (R7 to R12), and the ends of what a write starts: consistency checks (R304) and
moves of the operating point (R361). Each lets the monitor's waiting lines run where it ends a command of the monitor (R436). -/

namespace Sys2Proof.Machine

/-- One write access. -/
def State.portWrite (s : State) (q : Requester) (o : Nat) (v : Word) : State := (s.ctlWrite q o v).monResume

/-! ## The commands that are register accesses -/

/-- A command that accesses a register in a width: 32 bits, or an access that is not performed (R10). -/
def State.inWidth (s : State) (q : Requester) (w : Width) (o : Nat) (s1 : State) : State :=
  if w = .word then s1 else if s.portOpen q then s.badAccess o else s

/-- REGISTER_WRITE. -/
def execRegisterWrite (a : Access) (off : Nat) (v : Word) (s : State) : Host.Outcome State Fault Refusal :=
  .next (s.inWidth a.who a.width off (s.portWrite a.who off v))

/-- PWR_OP_REQ (R361). -/
def execPwrOpReq (q : Requester) (v : Word) (s : State) : Host.Outcome State Fault Refusal := .next (s.portWrite q Reg.PWR_OP v)

/-- PWR_REGION_WRITE (R371). -/
def execPwrRegionWrite (q : Requester) (v : Word) (s : State) : Host.Outcome State Fault Refusal :=
  .next (s.portWrite q Reg.PWR_REGION v)

/-- PWR_SLEEP_REQ (R372). -/
def execPwrSleepReq (q : Requester) (v : Word) (s : State) : Host.Outcome State Fault Refusal :=
  .next (s.portWrite q Reg.PWR_SLEEP v)

/-- BANK_OFF_REQ_WRITE (R215). -/
def execBankOffReqWrite (q : Requester) (site : Site) (v : Word) (s : State) : Host.Outcome State Fault Refusal :=
  .next (s.portWrite q (Reg.BANK_OFF_REQ site) v)

/-- BANK_ON_REQ_WRITE (R216). -/
def execBankOnReqWrite (q : Requester) (site : Site) (v : Word) (s : State) : Host.Outcome State Fault Refusal :=
  .next (s.portWrite q (Reg.BANK_ON_REQ site) v)

/-- LAND_CTL_CLEAR (R218). -/
def execLandCtlClear (q : Requester) (site : Site) (v : Word) (s : State) : Host.Outcome State Fault Refusal :=
  .next (s.portWrite q (Reg.LAND_CTL site) v)

/-- VE_PSTORE_DATA_ACCESS (R181): a write, or a read where no value is given. -/
def execVePstoreDataAccess (a : Access) (site : Site) (v : Option Word) (s : State) : Host.Outcome State Fault Refusal :=
  let o := Reg.VE_PSTORE_DATA site
  .next (s.inWidth a.who a.width o (match v with
    | some x => s.portWrite a.who o x
    | none => if s.portOpen a.who then (s.ctlRead a.who o).2 else s))

/-- QDB_WRITE (R288). -/
def execQdbWrite (q : Requester) (v : Word) (s : State) : Host.Outcome State Fault Refusal := .next (s.portWrite q Reg.QDB v)

/-- QUEUE_CTL_EN_SET (R301, R304): the write with EN = 1. -/
def execQueueCtlEnSet (r : Requester) (q : QueueId) (v : Word) (s : State) : Host.Outcome State Fault Refusal :=
  .next (s.portWrite r (Reg.QUEUE_CTL q) (v ||| 1#32))

/-- QUEUE_CTL_EN_CLEAR (R301): the write with EN = 0. -/
def execQueueCtlEnClear (r : Requester) (q : QueueId) (v : Word) (s : State) : Host.Outcome State Fault Refusal :=
  .next (s.portWrite r (Reg.QUEUE_CTL q) (v &&& ~~~1#32))

/-- JOB_EN_SET (R304, R305). -/
def execJobEnSet (r : Requester) (v : Word) (s : State) : Host.Outcome State Fault Refusal :=
  .next (s.portWrite r Reg.TILE_CTL (v ||| 1#32))

/-- LINK_CTL_EN_SET (R402). -/
def execLinkCtlEnSet (r : Requester) (e : Edge) (v : Word) (s : State) : Host.Outcome State Fault Refusal :=
  .next (s.portWrite r (Reg.LINK_CTL e) (v ||| 1#32))

/-- LINK_CTL_EN_CLEAR (R402). -/
def execLinkCtlEnClear (r : Requester) (e : Edge) (v : Word) (s : State) : Host.Outcome State Fault Refusal :=
  .next (s.portWrite r (Reg.LINK_CTL e) (v &&& ~~~1#32))

/-- REDUCE_CTL_EN_SET (R269, R304). -/
def execReduceCtlEnSet (r : Requester) (v : Word) (s : State) : Host.Outcome State Fault Refusal :=
  .next (s.portWrite r Reg.REDUCE_CTL (v ||| 1#32))

/-- DBG_STATE_LOCK (R434). -/
def execDbgStateLock (q : Requester) (v : Word) (s : State) : Host.Outcome State Fault Refusal := .next (s.portWrite q Reg.DBG_STATE v)

/-- LINK_BEAT_WRITE (R395). -/
def execLinkBeatWrite (q : Requester) (v : Word) (s : State) : Host.Outcome State Fault Refusal := .next (s.portWrite q Reg.LINK_BEAT v)

/-- LINK_LOOP_RUN (R400): the write with RUN = 1. -/
def execLinkLoopRun (q : Requester) (e : Edge) (v : Word) (s : State) : Host.Outcome State Fault Refusal :=
  .next (s.portWrite q (Reg.LINK_LOOP e) (v ||| 4#32))

/-- VPORT_LOOP_RUN (R400): the write with RUN = 1. -/
def execVportLoopRun (q : Requester) (p : VPort) (v : Word) (s : State) : Host.Outcome State Fault Refusal :=
  .next (s.portWrite q (Reg.VPORT_LOOP p) (v ||| 4#32))

/-! ## What a write starts ends -/

/-- CONSISTENCY_CHECK_END (R304), with the beat master's values. -/
def execConsistencyCheckEnd (k : BitVec 5) (mode : Bool) (delay : BitVec 16) (s : State) :
    Host.Outcome State Fault Refusal :=
  .next (if s.awake then (s.checkEnd k.toNat mode delay.toNat).monResume else s)

/-- ACK_V (R360, R361). -/
def execAckV (w : Word) (crc : Byte) (s : State) : Host.Outcome State Fault Refusal :=
  .next (if s.powered && regTakes (crc ++ w) 2 then (s.moveAck (regRail (crc ++ w))).monResume else s)

/-- VREQ_NACK (R361); in boot step 2 it is the step's failure (R426). -/
def execVreqNack (s : State) : Host.Outcome State Fault Refusal :=
  .next (if !s.powered then s
    else if s.ts == tsBootRom && s.fld Reg.BOOT_STATUS_STEP == 2 && s.pwr.move.isSome && !s.boot.retry then
      (s.moveNack.bootRetryLater 0x070B).monResume
    else s.moveNack.monResume)

end Sys2Proof.Machine
end

