-- ==== Sys2Proof/Machine/Commands.lean ====
section
/-! DEFINITION. The commands of the host other than jobs and steps: housekeeping (R316), data (R324, R325), sync (R326), reduction
(R327), health (R328), power and security (R329). -/

namespace Sys2Proof.Machine

/-! ## Housekeeping (R297, R315, R316) -/

/-- NOP. -/
def execNop (f : FlightId) (s : State) : Host.Outcome State Fault Refusal :=
  .next (s.cmd f 0x00 fun x => s.complete x stOk 0 0)

/-- FENCE: every earlier command of its queue has completed. -/
def execFence (f : FlightId) (s : State) : Host.Outcome State Fault Refusal :=
  .next (s.cmd f 0x01 fun x => if s.flights.any (fun g => g.queue == x.queue && g != x) then s else s.complete x stOk 0 0)

/-- REG_READ. -/
def execRegRead (f : FlightId) (s : State) : Host.Outcome State Fault Refusal :=
  .next (s.cmd f 0x02 fun x =>
    let r := s.readWords .host (x.p 0 32) (x.p 32 3)
    r.2.complete x stOk 0 r.1)

/-- The words of a REG_WRITE: offset and value. -/
def Flight.writes (f : Flight) : List (Nat × Word) :=
  (List.range (f.p 32 4)).map fun i => (f.p 0 32 + 4 * i, BitVec.ofNat 32 (f.p (64 + 32 * i) 32))

/-- The first word that its register refuses (R316): offset, status, reason. -/
def State.firstRefused (s : State) (l : List (Nat × Word)) : Option (Nat × Nat × Nat) :=
  l.findSome? fun w =>
    let r := s.writeRefusal w.1 w.2.toNat
    if r.1 = stOk then none else some (w.1, r)

/-- Checks and moves that a REG_WRITE has started and that have not ended. -/
def State.startedBy (s : State) (f : Flight) : Nat :=
  let me := some (f.queue, f.seq)
  (s.checks.filter fun c => c.starter == me).length + (if (s.pwr.move.map fun m => m.starter == me).getD false then 1 else 0)

/-- REG_WRITE: nothing is written where a word would be refused; the checks it starts end it. -/
def execRegWrite (f : FlightId) (s : State) : Host.Outcome State Fault Refusal :=
  .next (s.cmd f 0x03 fun x =>
    match s.firstRefused x.writes with
    | some (o, st, r) => s.complete x st r (if r = 0x0110 then o else 0)
    | none =>
      let s1 := x.writes.foldl (fun s w => s.ctlPut .host w.1 w.2 (some (x.queue, x.seq))) (s.runOn x)
      let n := s1.startedBy x
      if n = 0 then s1.complete x stOk 0 0 else s1.setFlight { x with phase := .running, checks := n }).monResume

/-! ## Data (R323 to R325) -/

/-- COPY. -/
def execCopy (f : FlightId) (s : State) : Host.Outcome State Fault Refusal := .next (s.cmd f 0x20 fun x => s.runOn x)

/-- FILL. -/
def execFill (f : FlightId) (s : State) : Host.Outcome State Fault Refusal := .next (s.cmd f 0x21 fun x => s.runOn x)

/-- TRANSPOSE. -/
def execTranspose (f : FlightId) (s : State) : Host.Outcome State Fault Refusal := .next (s.cmd f 0x22 fun x => s.runOn x)

/-- Pieces of a data command: source offset, destination offset, bytes. -/
def Flight.dataPieces (f : Flight) : List (Nat × Nat × Nat) :=
  if f.opcode = 0x22 then
    let w := f.shape.2.2
    (List.range f.shape.1).flatMap fun r => (List.range f.shape.2.1).map fun c => (r * f.p 208 32 + c * w, c * f.p 240 32 + r * w, w)
  else [(0, 0, f.p 128 32)]

/-- The unit that moves a data command's bytes in a slice: the transposer, or the fetch engine. -/
def Flight.mover (f : Flight) : Who := { unit := if f.opcode = 0x22 then 8 else 7 }

/-- Bytes at an address word. -/
def State.awRead (s : State) (w a n : Nat) (who : Who) : List Byte × State :=
  if awSpace w = 0 then (s.pkgRead a n, s) else (s.sliceGet (awSite w) a n, (s.touchRead (awSite w) a n who).1)

/-- Write bytes at an address word. -/
def State.awWrite (s : State) (w a : Nat) (bs : List Byte) (who : Who) : State :=
  if awSpace w = 0 then s.pkgWrite a bs else s.sliceWrite (awSite w) a bs who

/-- Carry poison from source bytes `src ..` to destination bytes `dst ..` (R324). -/
def State.awPoison (s : State) (w dst n src : Nat) : State :=
  if awSpace w = 0 then s.pkgPoison dst n
  else (List.range n).foldl (fun s k => s.markPoison (awSite w) (dst + k) (src + k)) s

/-- One piece: the bytes, then the poison of the source lines, as the source stood in `s0`. -/
def State.movePiece (s0 s : State) (f : Flight) (p : Nat × Nat × Nat) : State :=
  let src := f.p 0 64
  let dst := f.p 64 64
  let a := awAddr src + p.1
  let b := awAddr dst + p.2.1
  if f.opcode = 0x21 then
    s.awWrite dst b ((List.range p.2.2).map fun k => BitVec.ofNat 8 (src / 2 ^ (8 * (k % 8)))) f.mover
  else
    let r := s.awRead src a p.2.2 f.mover
    let s1 := r.2.awWrite dst b r.1 f.mover
    if awSpace src ≠ 0 then s1
    else
      ((linesOf a p.2.2).filter fun l => s0.poison.contains l).foldl (fun s l =>
        let lo := max a (64 * l)
        let hi := min (a + p.2.2) (64 * l + 64)
        s.awPoison dst (b + (lo - a)) (hi - lo) lo) s1

/-- The first poisoned source address of a data command. -/
def State.srcPoison (s : State) (f : Flight) : Option Nat :=
  if f.opcode = 0x21 ∨ awSpace (f.p 0 64) ≠ 0 then none
  else f.dataPieces.findSome? fun p => s.poisonAt (awAddr (f.p 0 64) + p.1) p.2.2

/-- A bank that a data command needs is WAKING (R216). -/
def State.dataWaits (s : State) (f : Flight) : Bool :=
  let at_ (w n : Nat) : Bool := awSpace w == 1 && s.waking (awSite w) (awAddr w) n
  at_ (f.p 64 64) f.extents.2 || (f.opcode != 0x21 && at_ (f.p 0 64) f.extents.1)

/-- Grants of the read and the write class that a data command needs for its package memory traffic (R209, R324). -/
def Flight.dataGrants (f : Flight) : Nat × Nat :=
  let src := f.p 0 64
  let dst := f.p 64 64
  let sum (l : List Nat) : Nat := l.foldl (· + ·) 0
  let rows (a n stride bytes : Nat) : Nat := sum ((List.range n).map fun r => memPieces (a + r * stride) bytes)
  let p := if f.opcode = 0x22 then
      (rows (awAddr src) f.shape.1 (f.p 208 32) (f.shape.2.1 * f.shape.2.2), rows (awAddr dst) f.shape.2.1 (f.p 240 32) (f.shape.1 * f.shape.2.2))
    else (memPieces (awAddr src) (f.p 128 32), memPieces (awAddr dst) (f.p 128 32))
  (if f.opcode = 0x21 ∨ awSpace src ≠ 0 then 0 else p.1, if awSpace dst = 0 then p.2 else 0)

/-- In RUNNING a data command takes, after the clusters' requests, grants of a class up to what it wants: how many (R324). -/
def State.dataTake (s : State) (cls n : Nat) : Nat :=
  if s.clusters.any fun p => s.asks p.1 cls then 0 else min n (s.grantsLeft cls)

/-- INC is added to SREF (R72, R324); an inactive SSITE has no object. -/
def State.dataSignal (s : State) (f : Flight) : State :=
  let ref := f.p 160 16
  let site := f.p 176 6
  let inc : Int := (f.p 192 16 : Nat)
  if f.p 182 1 = 0 then s
  else if bits ref 14 2 = 1 then s.tobjAdd (ref % 256) inc (s.agentAddr 0) s.beatLow
  else if s.live site then s.objAdd site (ref % 64) inc (s.agentAddr 0) s.beatLow
  else s.logEvent 0x21 0x0807 (s.agentAddr 0) (s.unitAddr site 9 + ref * 2 ^ 32)

/-- The words of a slice that a TRANSPOSE covers whole are made good: the transposer writes lines, not elements (R184, R198). -/
def State.coverGood (s : State) (f : Flight) : State :=
  let dst := f.p 64 64
  if f.opcode ≠ 0x22 ∨ awSpace dst = 0 ∨ (s.cl (awSite dst)).ecc = [] then s
  else s.makeGood (awSite dst) (f.dataPieces.flatMap fun p => (List.range p.2.2).map fun k => awAddr dst + p.2.1 + k)

/-- Every byte of a data command is written: it completes. -/
def State.dataMove (s : State) (x : Flight) : State :=
  let s1 := x.dataPieces.foldl (fun t p => State.movePiece s t x p) (s.coverGood x)
  match s.srcPoison x with
  | some a => s1.complete x stFaultAbandoned 0x021B (a % 2 ^ 48)
  | none => (s1.dataSignal x).complete x stOk 0 0

/-- DATA_COMMAND_COMPLETE: the last piece is served. In RUNNING the command takes what grants its classes have left; one that needs more
goes on in the following beats (R324). -/
def execDataCommandComplete (f : FlightId) (s : State) : Host.Outcome State Fault Refusal :=
  .next (match (if s.fw then s.running? f [0x20, 0x21, 0x22] else none) with
    | none => s
    | some x =>
      if s.dataWaits x then s
      else if s.ts ≠ tsRunning then s.dataMove x
      else
        let w := x.want.getD x.dataGrants
        let r := s.dataTake 0 w.1
        let v := s.dataTake 1 w.2
        let s1 := (s.spend 0 r).spend 1 v
        if r = w.1 ∧ v = w.2 then s1.dataMove x else s1.setFlight { x with want := some (w.1 - r, w.2 - v) })

/-- PREFETCH_CANCEL (R206, R325). -/
def execPrefetchCancel (f : FlightId) (s : State) : Host.Outcome State Fault Refusal :=
  .next (s.cmd f 0x23 fun x =>
    let site := x.p 64 6
    let ds := (List.range 64).filter (x.p 0 64).testBit
    let armed := ds.filter fun d => (s.ctx site d).act.isSome || (s.ctx site d).shd.isSome
    (ds.foldl (fun s d => s.cancelCtx site d) s).complete x stOk 0 ((armed.map fun d => 2 ^ d).foldl (· + ·) 0))

/-! ## Sync (R326) -/

/-- Change the object that a host command names. -/
def State.hostAdd (s : State) (f : Flight) (inc : Int) : State :=
  let ref := f.p 0 16
  if bits ref 14 2 = 1 then s.tobjAdd (ref % 256) inc (s.agentAddr 0) s.beatLow
  else s.objAdd (f.p 16 6) (ref % 64) inc (s.agentAddr 0) s.beatLow

/-- Its committed value. -/
def State.hostValue (s : State) (f : Flight) : Nat := s.refValue (f.p 16 6) (f.p 0 16)

/-- SIGNAL. -/
def execSignal (f : FlightId) (s : State) : Host.Outcome State Fault Refusal :=
  .next (s.cmd f 0x30 fun x => (s.hostAdd x (sext (x.p 32 32) 32)).complete x stOk 0 0)

/-- WAIT. -/
def execWait (f : FlightId) (s : State) : Host.Outcome State Fault Refusal := .next (s.cmd f 0x31 fun x => s.runOn x)

/-- Two host waits name the same object. -/
def sameObject (f g : Flight) : Bool := f.p 0 16 == g.p 0 16 && (bits (f.p 0 16) 14 2 == 1 || f.p 16 6 == g.p 16 6)

/-- A slot's wait or a head marker on the same object is met and goes first. -/
def State.coreFirst (s : State) (f : Flight) : Bool :=
  let ref := f.p 0 16
  s.clusters.any fun (p : Nat × Cluster) =>
    (bits ref 14 2 == 1 || p.1 == f.p 16 6) &&
      (p.2.slots.any (fun (q : Nat × SlotSt) =>
          match q.2.wait with
          | some (.object r thr _, _) => r == ref && decide ((thr : Int) ≤ s.seen p.1 q.1 r)
          | _ => false)
        || p.2.ctxs.any fun (q : Nat × Ctx) =>
          ((q.2.act.bind fun a => a.marks.head?).map fun m => m.ref == ref && decide (m.thr ≤ s.refValue p.1 ref)).getD false)

/-- HOST_WAIT_MET: host waits are served last, in fetch order. -/
def execHostWaitMet (f : FlightId) (s : State) : Host.Outcome State Fault Refusal :=
  .next (match (if s.fw then s.running? f [0x31] else none) with
    | none => s
    | some x =>
      let met (g : Flight) : Bool := decide (g.p 32 24 ≤ s.hostValue g)
      let first := s.flights.find? fun g => g.opcode == 0x31 && g.phase == .running && sameObject x g && met g
      if first ≠ some x ∨ s.coreFirst x = true then s
      else
        let s1 := if x.p 56 1 = 1 then s.hostAdd x (-(x.p 32 24 : Int)) else s
        s1.complete x stOk 0 (s1.hostValue x))

/-- HOST_WAIT_TMO. -/
def execHostWaitTmo (f : FlightId) (s : State) : Host.Outcome State Fault Refusal :=
  .next (match (if s.fw then s.running? f [0x31] else none) with
    | some x => s.complete x stTimeout 0x080C 0
    | none => s)

/-- DETAIL of QUERY. -/
def State.queryDetail (s : State) (f : Flight) : Nat :=
  let ref := f.p 0 16
  let b := ref % 64
  if bits ref 14 2 = 2 then
    s.fld (Reg.BAR_GEN_GEN b) + s.fld (Reg.BAR_CNT_CUR b) % 2 ^ 16 * 2 ^ 16 + s.fld (Reg.BAR_CNT_NEXT b) % 2 ^ 16 * 2 ^ 32
      + (s.flag (Reg.BAR_GEN_OVERRUN b)).toNat * 2 ^ 48
  else
    let r := if bits ref 14 2 = 1 then s.tobjRecord (ref % 256) else s.objRecord (f.p 16 6) (ref % 64)
    bits r 0 26 + bits r 32 4 * 2 ^ 26 + bits r 36 1 * 2 ^ 30 + bits r 64 96 * 2 ^ 32

/-- QUERY. -/
def execQuery (f : FlightId) (s : State) : Host.Outcome State Fault Refusal :=
  .next (s.cmd f 0x32 fun x => s.complete x stOk 0 (s.queryDetail x))

/-! ## Reduction (R327) -/

/-- The five words of REDUCE_CFG. -/
def Flight.groupWords (f : Flight) : List (Nat × Word) :=
  let o := Reg.REDUCE_GRP0 (f.p 0 4)
  [(o, BitVec.ofNat 32 (f.p 32 32)), (o + 4, BitVec.ofNat 32 (f.p 64 32)), (o + 8, BitVec.ofNat 32 (f.p 96 32)),
   (Reg.REDUCE_GRP45 (f.p 0 4), BitVec.ofNat 32 (f.p 128 32)), (Reg.REDUCE_GRP45 (f.p 0 4) + 4, BitVec.ofNat 32 (f.p 160 16))]

/-- REDUCE_CFG: one REG_WRITE of the group's words. -/
def execReduceCfg (f : FlightId) (s : State) : Host.Outcome State Fault Refusal :=
  .next (s.serialCmd f 0x40 fun x =>
    match s.firstRefused x.groupWords with
    | some (o, st, r) => s.complete x st r (if r = 0x0110 then o else 0)
    | none => (x.groupWords.foldl (fun s w => s.storeWord w.1 w.2 0) s).complete x stOk 0 0)

/-- REDUCE_BUCKET: the seal, or a seal deferred. -/
def execReduceBucket (f : FlightId) (s : State) : Host.Outcome State Fault Refusal :=
  .next (s.cmd f 0x41 fun x =>
    let g := x.p 0 4
    if x.p 16 12 ≠ s.fld (Reg.REDUCE_GST_NEXT g) then s.complete x stRefusedState 0x040C 0
    else if s.sealOpen g then (s.runOn x).doSeal g
    else s.runOn x)

/-- DEFERRED_SEAL: the NEXT bucket can be sealed now, and a deferred REDUCE_BUCKET names it or its seal object stands at its
threshold. -/
def execDeferredSeal (g : Fin 16) (s : State) : Host.Outcome State Fault Refusal :=
  .next (if s.fw && s.sealOpen g && (s.sealMet g || s.flights.any (sealNames g (s.fld (Reg.REDUCE_GST_NEXT g)))) then s.doSeal g else s)

/-! ## Health (R328) -/

/-- ERR_QUERY. -/
def execErrQuery (f : FlightId) (s : State) : Host.Outcome State Fault Refusal :=
  .next (s.cmd f 0x50 fun x =>
    let s1 := (List.range (x.p 58 11)).foldl (fun t j =>
      t.pkgWrite (x.p 0 48 + 32 * j) (leBytes 32 (s.rdWide (Reg.ERR_LOG ((x.p 48 10 + j) % 1024)) 8))) s
    (s1.memRange (x.p 0 48) (32 * x.p 58 11)).complete x stOk 0 (s.fld Reg.ERR_STATUS_WR_IDX + (s.rd Reg.ERR_TOTAL).toNat * 2 ^ 32))

/-- SELFTEST: SELFTEST_DONE ends it. -/
def execSelftest (f : FlightId) (s : State) : Host.Outcome State Fault Refusal :=
  .next (s.serialCmd f 0x51 fun x =>
    match x.unitTested with
    | some u => (s.runOn x).showFault u
    | none => s.complete x stInvalid 0x0218 0)

/-- SPARE_SWAP (R20, R349). -/
def execSpareSwap (f : FlightId) (s : State) : Host.Outcome State Fault Refusal :=
  .next (s.serialCmd f 0x52 fun x => (s.swapSite (x.p 0 6)).complete x stOk 0 0)

/-! ## Power and security (R329) -/

/-- CAP_SET. -/
def execCapSet (f : FlightId) (s : State) : Host.Outcome State Fault Refusal :=
  .next (s.cmd f 0x60 fun x => (s.setFld Reg.PWR_CAP_CAP (x.p 0 16)).complete x stOk 0 (s.fld Reg.PWR_CAP_CAP))

/-- ENERGY_READ. -/
def execEnergyRead (f : FlightId) (s : State) : Host.Outcome State Fault Refusal :=
  .next (s.cmd f 0x61 fun x => s.complete x stOk 0 (s.rd64 (Reg.ENERGY_JOB (x.p 0 4)) + s.rd64 Reg.TIME_NOW * 2 ^ 64))

/-- Write bytes to package memory, 64 B at a time. -/
def State.pkgLines (s : State) (a : Nat) (bs : List Byte) : State :=
  (List.range ((bs.length + 63) / 64)).foldl (fun s i => s.pkgWrite (a + 64 * i) ((bs.drop (64 * i)).take 64)) s

/-- ATTEST (R431). -/
def execAttest (f : FlightId) (s : State) : Host.Outcome State Fault Refusal :=
  .next (s.cmd f 0x70 fun x =>
    let s1 := s.pkgLines (x.p 0 48) (s.report (leBytes 32 (x.p 64 256)))
    (({ s1 with free := s1.free + 1 } : State).memRange (x.p 0 48) 320).complete x stOk 0 320)

/-- FW_INFO. -/
def execFwInfo (f : FlightId) (s : State) : Host.Outcome State Fault Refusal :=
  .next (s.cmd f 0x71 fun x => s.complete x stOk 0 (s.rdWide Reg.FW_ID 2 + s.rd64 Reg.FW_DIGEST * 2 ^ 64))

/-- DEBUG_UNLOCK (R433, R434). -/
def execDebugUnlock (f : FlightId) (s : State) : Host.Outcome State Fault Refusal :=
  .next (s.serialCmd f 0x72 fun x =>
    if x.p 0 2 = 0 then
      let s1 := s.newChallenge
      s1.complete x stOk 0 (leNat (s1.boot.challenge.getD []))
    else if x.p 0 2 = 2 then s.lock.complete x stOk 0 0
    else
      let r := (s.memRange (x.p 64 48) 96).answer (beNat (s.pkgRead (x.p 64 48) 96))
      if r.1 = 0 then r.2.complete x stOk 0 0
      else if r.1 = 0x0702 then r.2.complete x stRefusedState 0x0702 0
      else r.2.complete x stRefusedConfig 0x0701 0)

end Sys2Proof.Machine
end

