-- ==== Sys2Proof/Machine/Jobs.lean ====
section
/-! DEFINITION. Jobs and steps: JOB_LOAD (R317, R318), JOB_START (R319), JOB_PAUSE (R320), JOB_STOP (R321), STEP_BEGIN and STEP_END
(R322). -/

namespace Sys2Proof.Machine

/-! ## Job images (R317) -/

/-- The section entries of an image. -/
def State.sections (s : State) (image : Nat) : List Section :=
  (List.range (leNat (s.pkgRead (image + 4) 2))).map fun i =>
    let e := leNat (s.pkgRead (image + 64 + 16 * i) 16)
    { dest := bits e 0 32, bytes := bits e 32 32, src := bits e 64 48, fixed := bits e 112 1 == 1 }

/-- Bytes of the control space that a section covers. -/
def Section.span (c : Section) : Nat := if c.fixed then 4 else c.bytes

/-- The range that a section may lie in, from its first offset: first offset and bytes (R317). -/
def sectionRange (o : Nat) : Option (Nat × Nat) :=
  if 0x10000 ≤ o ∧ o < 0x20000 then some (0x10000, 0x10000)
  else if 0x80000 ≤ o ∧ o < 0x90000 then some (0x80000, 0x10000)
  else if 0x90100 ≤ o ∧ o < 0xA0000 then some (0x90100, 0xFF00)
  else if 0x100000 ≤ o ∧ o < 0x500000 then some (o / 0x10000 * 0x10000, 0x10000)
  else if 0x570000 ≤ o ∧ o < 0x570004 then some (0x570000, 4)
  else if 0x10000000 ≤ o ∧ o < 0x50000000 then some (o / 0x1000000 * 0x1000000, 0x1000000)
  else none

/-- A section entry within R317. -/
def Section.ok (c : Section) : Bool :=
  c.dest % 4 == 0 && c.bytes % 4 == 0 && decide (4 ≤ c.bytes) && decide (c.bytes ≤ 16777216) && c.src % 4 == 0
    && (match sectionRange c.dest with
      | some (lo, n) => decide (c.dest + c.span ≤ lo + n)
      | none => false)

/-- The first offset of a section whose register refuses writes in JOB_LOADED. -/
def Section.refused (c : Section) : Option Nat :=
  (c.words.find? fun w =>
    match writeStates w.1 with
    | some l => !l.contains tsJobLoaded
    | none => false).map fun w => w.1

/-- The check of an image: its sections, or the DETAIL of the refusal. -/
def State.imageCheck (s : State) (f : Flight) : Except Nat (List Section) :=
  let image := f.p 0 48
  let h := leNat (s.pkgRead image 64)
  let n := bits h 32 16
  if s.pkgBad image 64 || bits h 0 32 != 0x314A5A42 || n == 0 || decide (4096 < n) || bits h 48 16 != f.jobId
      || s.pkgBad (image + 64) (16 * n) || !((s.sections image).all Section.ok) then .error 0
  else
    match (s.sections image).findSome? Section.refused with
    | some o => .error o
    | none => .ok (s.sections image)

/-- The reads of an image's header and section table at or beyond M (R398). -/
def State.imageRange (s : State) (f : Flight) : State :=
  let image := f.p 0 48
  if s.memSize < image + 64 then s.memRange image 64
  else s.memRange (image + 64) (16 * leNat (s.pkgRead (image + 4) 2))

/-! ## JOB_LOAD (R318) -/

/-- A job or its start is undone: enabled slots that wait for their first mark are idle again. -/
def State.undoStart (s : State) : State :=
  let s1 := { s with job := { s.job with starting := false } }
  if s.ts ≠ tsJobLoaded then s1
  else
    s1.liveSites.foldl (fun s t => (List.range 4).foldl (fun s n =>
      if s.slotState t n = slWait then (s.setSlotState t n slIdle).modSlot t n fun x => { x with copied := false, buf := [] } else s) s) s1

/-- The substitutions that wait at a JOB_LOAD (R349). -/
def State.loadSwaps (s : State) : State :=
  (s.liveSites.filter fun t => s.flag (Reg.CL_RETIRED_SWAP_PENDING t) && s.canSwap t).foldl
    (fun s t => if s.canSwap t then s.swapSite t else s) s

/-- JOB_LOAD: the check, then the start of the copy; regions without power come up first (R371). -/
def execJobLoad (f : FlightId) (s : State) : Host.Outcome State Fault Refusal :=
  .next (s.serialCmd f 0x10 fun x =>
    match s.imageCheck x with
    | .error d => (s.imageRange x).complete x stInvalid 0x0209 d
    | .ok l =>
      let s1 := ((s.runOn x).regionWrite 0).imageRange x
      let s2 := s1.loadSwaps
      let reset (s : State) : State := s.jobReset.showVcqs.setFlag Reg.TILE_CTL_JOB_EN false
      let s4 := if s2.ts = tsFwReady then reset s2 else (reset (s2.enter tsFwReady)).readyAgain
      { s4 with job := { s4.job with image := l } })

/-- DETAIL of a copy that has written this many words (R318): whole sections, and bytes. -/
def State.loadDetail (s : State) (words : Nat) : Nat :=
  let ends := (s.job.image.foldl (fun (p : List Nat × Nat) c => (p.1 ++ [p.2 + c.bytes / 4], p.2 + c.bytes / 4)) ([], 0)).1
  (ends.filter fun e => e ≤ words).length + 4 * words % 2 ^ 32 * 2 ^ 32

/-- A copy that fails (R318) after some words. -/
def State.failLoad (s : State) (f : Flight) (status reason words : Nat) : State :=
  let s1 := (s.jobReset.setFld Reg.TILE_CTL_JOB_ID 0).setFld Reg.TILE_STATE_REASON reason
  s1.complete f status reason (s.loadDetail words)

/-- Write one word of an image as a REG_WRITE word in JOB_LOADED would be. -/
def State.loadWord (s : State) (w : Nat × Nat) : State :=
  let v := BitVec.ofNat 32 (leNat (s.pkgRead w.2 4))
  if (s.writeRefusal w.1 v.toNat).1 = stOk then s.ctlPut .host w.1 v none else s

/-- Copy words until a source read returns poison, as one at or beyond M does (R398); the words written. -/
def State.loadWords (s : State) : List (Nat × Nat) → State × Nat
  | [] => (s, 0)
  | w :: t =>
    if s.pkgBad w.2 4 then (s.memRange w.2 4, 0)
    else
      let r := State.loadWords (s.loadWord w) t
      (r.1, r.2 + 1)

/-- JOB_LOAD_COPY_DONE. -/
def execJobLoadCopyDone (s : State) : Host.Outcome State Fault Refusal :=
  .next (match (if s.fw && s.pwr.regionsUp.isEmpty then s.runningOp 0x10 else none) with
    | none => s
    | some x =>
      let r := s.loadWords (s.job.image.flatMap Section.words)
      if r.2 < (s.job.image.flatMap Section.words).length then r.1.failLoad x stFaultAbandoned 0x020A r.2
      else
        let s1 := (r.1.setFld Reg.TILE_CTL_JOB_ID x.jobId).setFlag Reg.TILE_CTL_JOB_EN false
        (s1.enter tsJobLoaded).complete x stOk 0 (s.loadDetail r.2))

/-- JOB_LOAD_TMO. -/
def execJobLoadTmo (s : State) : Host.Outcome State Fault Refusal :=
  .next (match (if s.fw then s.runningOp 0x10 else none) with
    | some x => s.failLoad x stTimeout 0x020B 0
    | none => s)

/-! ## JOB_START (R319) -/

/-- The first blocks' code is copied (R45), and the slots wait for the job's first mark (R46). -/
def State.firstBlocks (s : State) : State :=
  s.liveSites.foldl (fun s t => (List.range 4).foldl (fun s n =>
    if s.slotUsed t n then (s.setSlotState t n slWait).copyEntry t n 0 else s) s) s

/-- The beat master's agent 0x001. -/
def State.masterAgent (s : State) : Nat :=
  if s.flag Reg.BEAT_CFG_MASTER then s.agentAddr 1 else s.fld Reg.BAR_ROOT_PKG_MASTER

/-- JOB_START: the ready report goes to the beat master. -/
def execJobStart (f : FlightId) (s : State) : Host.Outcome State Fault Refusal :=
  .next (s.serialCmd f 0x11 fun x =>
    let s1 := s.runOn x
    let s2 := { s1 with job := { s1.job with tiles := x.p 0 8 } }
    let s3 := if s.ts = tsJobLoaded then s2.firstBlocks else s2
    s3.send (s3.ctlMsg s3.masterAgent cmReady 0 0 (x.p 0 8)))

/-- The tiles disagree (R319): JOB_START completes and the tile stays where it was. -/
def State.startMismatch (s : State) : State := (s.undoStart).completeOp 0x11 stRefusedConfig 0x020D 0

/-- The beat master judges the reports it has, once its own is among them: all must name its own TILES, and all those tiles must have
reported. -/
def State.judgeReports (s : State) : State :=
  let own := s.fld Reg.TILE_ID_TILE_NUM
  let others := (s.job.ready.map fun r => r.1).filter (· != own)
  let mates := others.map s.mate
  if (s.runningOp 0x11).isNone || s.job.starting || !(s.job.ready.any fun r => r.1 == own) then s
  else if s.job.ready.any fun r => r.2 != s.job.tiles then
    let s1 := (s.tell mates cmMismatch 0 0 s.job.tiles).startMismatch
    { s1 with job := { s1.job with ready := [] } }
  else if (List.range 8).all fun t => !s.job.tiles.testBit t || s.job.ready.any fun r => r.1 == t then
    let s1 := { s with job := { s.job with starting := true } }
    s1.tell mates cmReady 0 0 s.job.tiles
  else s

/-- READY_REPORT: at the beat master a report arrives; at another tile the beat master's answer does. -/
def execReadyReport (tile : Fin 8) (tiles : Byte) (s : State) : Host.Outcome State Fault Refusal :=
  let own := s.fld Reg.TILE_ID_TILE_NUM
  let msg (m : GMsg) : Bool := cmSub m == cmReady && cmFrom m % 8 == tile.val && cmVal m == tiles.toNat
  let bad (m : GMsg) : Bool := cmSub m == cmMismatch
  let report := if s.fw then s.ctlWaits msg else none
  .next (if s.flag Reg.BEAT_CFG_MASTER then
      match report with
      | none => s
      | some m =>
        let s1 := s.takeCtlMsg m
        let others := s1.job.ready.filter fun r => r.1 != tile.val
        if tile.val = own ∧ (s.runningOp 0x11).isNone then s1
        else ({ s1 with job := { s1.job with ready := others ++ [(tile.val, tiles.toNat)] } } : State).judgeReports
    else if !s.fw || (s.runningOp 0x11).isNone then s
    else if (s.ctlWaits bad).isSome then (s.takeCtl bad).startMismatch
    else
      match report with
      | none => s
      | some m =>
        let s1 := s.takeMsg m
        if tiles.toNat ≠ s.job.tiles then s1.startMismatch else { s1 with job := { s1.job with starting := true } })

/-- START_TMO: the tile stays in its state; a start already named goes on. -/
def execStartTmo (s : State) : Host.Outcome State Fault Refusal :=
  .next (if s.fw && !s.job.starting && (s.runningOp 0x11).isSome then
      let own := s.fld Reg.TILE_ID_TILE_NUM
      let s1 := s.undoStart.completeOp 0x11 stTimeout 0x020C 0
      { s1 with job := { s1.job with ready := s1.job.ready.filter fun r => r.1 != own } }
    else s)

/-! ## JOB_PAUSE (R320) -/

/-- JOB_PAUSE: the pause is armed; its turn ends here. -/
def execJobPause (f : FlightId) (s : State) : Host.Outcome State Fault Refusal :=
  .next (s.serialCmd f 0x12 fun x =>
    let s1 := (s.runOn x).setFlag Reg.TILE_STATE_PAUSE_PENDING true
    { s1 with job := { s1.job with pauseAt := some (x.p 0 32) } })

/-- Every slot is IDLE, in WAIT_MARK or HALTED. -/
def State.quiet (s : State) : Bool :=
  s.liveSites.all fun t => (List.range 4).all fun n =>
    s.slotState t n == slIdle || s.slotState t n == slWait || s.slotState t n == slHalt

/-- PAUSE_ENTRY. -/
def execPauseEntry (s : State) : Host.Outcome State Fault Refusal :=
  .next (if s.fw && s.ts == tsRunning && s.job.pausing && s.quiet then
      let s1 := (s.setFlag Reg.TILE_STATE_PAUSE_PENDING false).setFlag Reg.TILE_STATE_PAUSED_AT_STEP s.job.pauseRel
      let s2 := { s1.enter tsPaused with job := { s1.job with pauseAt := none } }
      s2.completeOp 0x12 stOk 0 (s.rd64 Reg.BEAT_COUNT)
    else s)

/-! ## JOB_STOP (R321) -/

/-- Commands that JOB_STOP cancels. -/
def stopCancels (f : Flight) : Bool :=
  f.opcode == 0x11 || f.opcode == 0x12 || f.opcode == 0x31 || f.opcode == 0x15 || f.opcode == 0x41
    || (f.opcode == 0x10 && f.phase == .running)

/-- Every bucket not DONE is discarded (R265). -/
def State.dropBuckets (s : State) : State :=
  let s1 := { s with inbox := s.inbox.filter fun m => m.ty != 8, tile := { s.tile with buckets := [] } }
  (List.range 12).foldl (fun s i => s.showRed (i + 1)) s1

/-- Every error window ends (R350). -/
def State.endWindows (s : State) : State :=
  s.liveSites.foldl (fun s t => (s.setFld (Reg.CL_ERR_STATUS_WINDOW t) 0).setFld (Reg.CL_ERR_STATUS_LEVEL t) 0) s

/-- JOB_STOP. -/
def execJobStop (f : FlightId) (s : State) : Host.Outcome State Fault Refusal :=
  .next (s.serialCmd f 0x13 fun x =>
    let s1 := (s.runOn x).completeWhere stopCancels stCancelled 0x0212
    let s2 := s1.setFlag Reg.TILE_STATE_PAUSE_PENDING false
    let s3 := { s2 with
      job := { s2.job with stopping := true, starting := false, pausing := false, pauseAt := none, ready := [] }
      tile := { s2.tile with rep := {}, rels := [], held := [], swapping := false } }
    ((s3.dropWork.dropBuckets).endWindows).showVcqs)

/-- A data command is in flight. -/
def State.dataInFlight (s : State) : Bool := s.flights.any fun f => f.opcode == 0x20 || f.opcode == 0x21 || f.opcode == 0x22

/-- JOB_STOP_IDLE. -/
def execJobStopIdle (s : State) : Host.Outcome State Fault Refusal :=
  .next (match (if s.fw && s.unitsIdle && !s.dataInFlight then s.runningOp 0x13 else none) with
    | none => s
    | some x =>
      let s1 := (s.jobReset.setFlag Reg.TILE_CTL_JOB_EN false).setFld Reg.TILE_CTL_JOB_ID 0
      let s2 := (s1.setFlag Reg.TILE_STATE_STEP_OPEN false).setFlag Reg.TILE_STATE_PAUSED_AT_STEP false
      ((s2.enter tsFwReady).readyAgain).complete x stOk 0 0)

/-- STOP_HUNG. -/
def execStopHung (s : State) : Host.Outcome State Fault Refusal :=
  .next (match (if s.fw then s.runningOp 0x13 else none) with
    | none => s
    | some x => (s.complete x stFaultAbandoned 0x0219 0).enterFailed 0x0219)

/-! ## Steps (R322) -/

/-- Counts of a cluster that start over with a step (R333, R338, R56). -/
def Cluster.stepBegin (c : Cluster) : Cluster :=
  { c with ces := [], slots := c.slots.map fun (p : Nat × SlotSt) => (p.1, { p.2 with missLog := false, trips := [] }) }

/-- A step begins. -/
def State.beginStep (s : State) (step : Nat) : State :=
  let s1 := ((s.redBegin).wr Reg.TILE_STEP (BitVec.ofNat 32 step)).setFlag Reg.TILE_STATE_STEP_OPEN true
  let s2 := { s1 with
    job := { s1.job with stepped := true, repeatReason := 0 }
    clusters := s1.clusters.map fun (p : Nat × Cluster) => (p.1, p.2.stepBegin)
    edges := s1.edges.map fun (p : Nat × EdgeSt) => (p.1, { p.2 with violation := false }) }
  s2.liveSites.foldl (fun s t => s.setFld (Reg.CL_ERR_STATUS_FAULTS_STEP t) 0) s2

/-- STEP_BEGIN. -/
def execStepBegin (f : FlightId) (s : State) : Host.Outcome State Fault Refusal :=
  .next (s.serialCmd f 0x14 fun x => (s.beginStep (x.p 0 32)).complete x stOk 0 0)

/-- STEP_END. -/
def execStepEnd (f : FlightId) (s : State) : Host.Outcome State Fault Refusal := .next (s.cmd f 0x15 fun x => s.runOn x)

/-- The highest ATTEMPT among the groups. -/
def State.attempts (s : State) : Nat := ((List.range 12).map fun i => s.fld (Reg.REDUCE_GST_ATTEMPT (i + 1))).foldl max 0

/-- STEP_END_DONE. -/
def execStepEndDone (f : FlightId) (s : State) : Host.Outcome State Fault Refusal :=
  .next (match (if s.fw then s.running? f [0x15] else none) with
    | none => s
    | some x =>
      let close (st r : Nat) : State := (s.complete x st r s.stepDetail).setFlag Reg.TILE_STATE_STEP_OPEN false
      match s.abandoned with
      | some r => close stFaultAbandoned r
      | none =>
        if !s.allDone then s
        else if s.attempts = 0 then close stOk 0
        else close stFaultRecovered s.job.repeatReason)

/-- STEP_TMO: TMO beats of RUNNING have passed; the step stays open. -/
def execStepTmo (f : FlightId) (s : State) : Host.Outcome State Fault Refusal :=
  .next (match (if s.fw then s.running? f [0x15] else none) with
    | some x => if x.p 0 16 ≤ x.beats then s.complete x stTimeout 0x020E s.stepDetail else s
    | none => s)

end Sys2Proof.Machine
end

