-- ==== Sys2Proof/Machine/Links.lean ====
section
/-! DEFINITION. The links: flits and messages that arrive (R379 to R390, R394), lanes (R392), training (R391), capability descriptors
(R393, R394), forward traffic (R399), latency probes (R395), loop-back runs (R400). -/

namespace Sys2Proof.Machine

/-! ## Messages that arrive (R385, R390, R394) -/

/-- The tile's own descriptor (R393). -/
def State.ownDesc (s : State) : Nat :=
  0x1B5A + 1 * 2 ^ 20 + 1 * 2 ^ 24 + 32 * 2 ^ 32 + 16 * 2 ^ 40 + (1 + 2 + 4 + 8) * 2 ^ 48
    + (s.fld Reg.TILE_ID_TILE_NUM * 2 ^ 10 + s.fld Reg.PKG_ID_PKG * 2 ^ 13) * 2 ^ 64

/-- Send a CAP message over an edge: a descriptor, or the request for one. -/
def State.sendCap (s : State) (e : Nat) (data : List Byte) : State :=
  s.edgeSend e { vch := 0, ty := 9, dst := 0, aux := 0, data := data }

/-- A message goes beyond the credit announced to the partner and not yet used (R388). Descriptors come before any credit. -/
def State.overCredit (s : State) (e : Nat) (m : GMsg) : Bool :=
  m.ty != 9 && decide (Store.get 0 (s.edge e).given m.vch.val < msgUnits m)

/-- A message that breaks the rules of R394: a reserved TYPE, a channel on which no credit was given, or beyond the credit given. -/
def State.violates (s : State) (e : Nat) (m : GMsg) : Bool :=
  decide (10 ≤ m.ty.val) || ((s.edge e).peer && decide (s.peerVchs e ≤ m.vch.val)) || s.overCredit e m

/-- A message within its credit uses it. -/
def State.useCredit (s : State) (e : Nat) (m : GMsg) : State :=
  if m.ty = 9 then s else s.modEdge e fun x => { x with given := Store.upd 0 x.given m.vch.val (· - msgUnits m) }

/-- The units of a message that is discarded at once are owed to the partner, where it had credit for them (R388). -/
def State.refund (s : State) (e : Nat) (m : GMsg) : State :=
  if m.ty = 9 ∨ s.overCredit e m then s
  else (s.useCredit e m).modEdge e fun x => { x with owed := Store.upd 0 x.owed m.vch.val (· + msgUnits m) }

/-- A message arrives whole on an edge: it joins the ingress burst queue, or is discarded. -/
def State.arrive (s : State) (e : Nat) (m : GMsg) : State :=
  if s.violates e m then
    let s1 := (s.refund e m).count (Reg.LINK_DISCARD_COUNT e) 1
    if (s.edge e).violation then s1
    else (s1.modEdge e fun x => { x with violation := true }).logEvent 0x21 0x030A (s.agentAddr (0x10 + e)) m.dst.toNat
  else if s.nobody m then (s.refund e m).logEvent 0x21 0 (s.agentAddr (0x10 + e)) m.dst.toNat
  else ((s.useCredit e m).modEdge e fun x => { x with ingress := x.ingress ++ [m] }).showVcq e

/-- The message that a header unit begins, from its bytes. -/
def msgOf (l : List Byte) : GMsg :=
  let h := leNat (l.take 16)
  { vch := Fin.ofNat 16 (bits h 0 4), ty := Fin.ofNat 16 (bits h 4 4), dst := BitVec.ofNat 32 (bits h 32 32)
    aux := BitVec.ofNat 64 (bits h 64 64), data := (l.drop 16).take (16 * bits h 8 9) }

/-- Split units into messages; PAD units are skipped, and what has not arrived whole is left. The number bounds the units. -/
def messages : Nat → List Byte → List GMsg × List Byte
  | 0, l => ([], l)
  | n + 1, l =>
    if l.length < 16 then ([], l)
    else
      let h := leNat (l.take 16)
      if bits h 4 4 = 0 then messages n (l.drop 16)
      else
        let k := 16 * (1 + bits h 8 9)
        if l.length < k then ([], l)
        else
          let r := messages n (l.drop k)
          (msgOf l :: r.1, r.2)

/-! ## Lanes (R380, R391, R392) -/

/-- `LINK_LANEMAP`. -/
def State.lanemap (s : State) (e : Nat) : Nat := s.rd64 (Reg.LINK_LANEMAP e)
/-- A physical lane carries flits. -/
def State.laneOn (s : State) (e l : Nat) : Bool := (s.lanemap e).testBit l

/-- Set or clear a physical lane's ACTIVE bit. -/
def State.setLane (s : State) (e l : Nat) (on : Bool) : State := s.setFld64 (Reg.LINK_LANEMAP e) l 1 on.toNat

/-- Spare `k` (0, 1) takes a logical lane. -/
def State.useSpare (s : State) (e k logical : Nat) : State :=
  let s1 := (s.setFld64 (Reg.LINK_LANEMAP e) (34 + 6 * k) 6 logical).setFld64 (Reg.LINK_LANEMAP e) (46 + k) 1 1
  (s1.setLane e (32 + k) true).setFld (Reg.LINK_STATUS_SPARES_USED e) (bits (s1.lanemap e) 46 1 + bits (s1.lanemap e) 47 1)

/-- The spares that are good and not in use. -/
def State.freeSpares (s : State) (e : Nat) : List Nat :=
  (List.range 2).filter fun k => bits (s.lanemap e) (46 + k) 1 == 0 && !(s.edge e).train.bad.getLsbD (32 + k)

/-- The logical lane of a physical lane. -/
def State.logicalOf (s : State) (e l : Nat) : Nat := if l < 32 then l else bits (s.lanemap e) (34 + 6 * (l - 32)) 6

/-- A class 0x09 error of an edge (R333). -/
def State.linkError (s : State) (e lane reason : Nat) : State :=
  s.raise { s.perr 0x09 none (.edge (Fin.ofNat 4 e)) (s.agentAddr (0x10 + e)) with reason := reason, detail := e + lane * 4 }

/-- A spare that fails stands for no lane. -/
def State.dropSpare (s : State) (e k : Nat) : State :=
  let s1 := (s.setFld64 (Reg.LINK_LANEMAP e) (34 + 6 * k) 6 0).setFld64 (Reg.LINK_LANEMAP e) (46 + k) 1 0
  s1.setFld (Reg.LINK_STATUS_SPARES_USED e) (bits (s1.lanemap e) 46 1 + bits (s1.lanemap e) 47 1)

/-- The physical lane that runs a logical lane. -/
def State.physOf (s : State) (e l : Nat) : Option Nat :=
  if s.laneOn e l then some l
  else ((List.range 2).find? fun k => bits (s.lanemap e) (46 + k) 1 == 1 && bits (s.lanemap e) (34 + 6 * k) 6 == l).map (32 + ·)

/-- The logical lanes of an edge that run, in order (R380). -/
def State.logicals (s : State) (e : Nat) : List Nat := (List.range 32).filter fun l => (s.physOf e l).isSome

/-- The physical lane on which SEQ `n` goes: logical lane n mod L (R380). -/
def State.laneOf (s : State) (e n : Nat) : Option Nat :=
  let l := s.logicals e
  (l[n % max 1 l.length]?).bind (s.physOf e)

/-- A logical lane runs no more. -/
def State.dropLane (s : State) (e l : Nat) : State :=
  match s.physOf e l with
  | some p => if p < 32 then s.setLane e p false else (s.setLane e p false).dropSpare e (p - 32)
  | none => s

/-- An announced change of lanes takes place (R392). -/
def State.applyPlan (s : State) (e : Nat) (p : LanePlan) : State :=
  let s1 := (s.dropLane e p.logical).modEdge e fun x => { x with plans := x.plans.erase p }
  match p.spare with
  | some k => s1.useSpare e k p.logical
  | none =>
    let s2 := s1.setFld (Reg.LINK_STATUS_LANES e) (s1.fld (Reg.LINK_STATUS_LANES e) - 1)
    let s3 := if s2.edgeUp e then s2.setFld (Reg.LINK_STATUS_STATE e) 3 else s2
    if s3.tile.errs.any fun x => x.unit == .edge (Fin.ofNat 4 e) then s3.edgeTest e else s3

/-- The changes of lanes that begin with a SEQ, of the tile's own flits or of the partner's. -/
def State.plansDue (s : State) (e seq : Nat) (own : Bool) : State :=
  ((s.edge e).plans.filter fun p => p.seq == seq && p.own == own).foldl (fun s p => s.applyPlan e p) s

/-- Announce a change of lanes, 64 flits ahead (R392). -/
def State.announce (s : State) (e logical : Nat) (spare : Option Nat) : State :=
  let seq := ((s.edge e).txSeq + 64) % 4096
  let phys := (spare.map (32 + ·)).getD 63
  s.modEdge e fun x => { x with
    lsym := x.lsym ++ [BitVec.ofNat 32 (3 + logical * 2 ^ 4 + phys * 2 ^ 10 + seq * 2 ^ 16)]
    plans := x.plans ++ [{ seq := seq, logical := logical, spare := spare, own := true }] }

/-- A lane that carries flits fails in service (R392): a spare that no announced change takes stands in for it, or the edge goes on without it,
both from the SEQ announced on (log entry 104); with fewer than 16 lanes left the edge is LOST. -/
def State.laneFail (s : State) (e l : Nat) : State :=
  let logical := s.logicalOf e l
  let s1 := s.modEdge e fun x => { x with train := { x.train with bad := x.train.bad ||| (1#34 <<< l) } }
  let plans := (s.edge e).plans.filter fun p => p.own
  match (s1.freeSpares e).filter fun k => !plans.any fun p => p.spare == some k with
  | k :: _ => (s1.announce e logical (some k)).logEvent 0x26 0 (s.agentAddr (0x10 + e)) (e + logical * 4 + (32 + k) * 2 ^ 8)
  | [] =>
    if 17 ≤ s.fld (Reg.LINK_STATUS_LANES e) - (plans.filter fun p => p.spare.isNone).length then
      (s1.announce e logical none).linkError e l 0x0307
    else (s1.edgeOut e 4).linkError e l 0x0308

/-- A way of failing has come about (R382, R392): LANE_ERR_MAX uncorrectable flits among the latest 2^20 of the lane, or 16 refusals of a SEQ
that the lane carries; a loss of lock is seen outside. -/
def State.laneBad (s : State) (e l : Nat) (why : LaneFail) : Bool :=
  match why with
  | .lock => true
  | .errors => decide (s.fld (Reg.LINK_CTL_LANE_ERR_MAX e) ≤ (Store.get [] (s.edge e).laneErrs (s.logicalOf e l)).length)
  | .refusals => (s.edge e).refused.any fun p => decide (16 ≤ p.2) && s.laneOf e p.1 == some l

/-- LANE_FAILURE. A spare not in use that loses lock is no longer free. -/
def execLaneFailure (e : Edge) (lane : Fin 34) (why : LaneFail) (s : State) : Host.Outcome State Fault Refusal :=
  let out := s.modEdge e fun x => { x with train := { x.train with bad := x.train.bad ||| (1#34 <<< lane.val) } }
  .next (if !s.alive || !s.edgeUp e then s
    else if !s.laneOn e lane then (if why = .lock then out else s)
    else if s.laneBad e lane why && !(s.edge e).plans.any (fun p => p.own && p.logical == s.logicalOf e lane) then s.laneFail e lane
    else s)

/-! ## Flits (R379, R381 to R383) -/

/-- Fields of a flit. -/
def Flit.num (f : Flit) (i n : Nat) : Nat := leNat ((f.bytes.drop i).take n)

/-- Every codeword could be corrected (R381). -/
def Flit.fecOk (f : Flit) : Bool := f.words.length == 4 && f.words.all Option.isSome

/-- Symbols that the decoder corrected, at most 2 of each codeword (R381). -/
def Flit.corrected (f : Flit) : Nat := (f.words.map fun w => (w.map fun k => k.val).getD 0).foldl (· + ·) 0

/-- The flit is whole: every codeword decoded and the CRC matches (R381). -/
def flitOk (f : Flit) : Bool := Flit.fecOk f && f.bytes.length == 256 && crc32 (f.bytes.take 252) == BitVec.ofNat 32 (Flit.num f 252 4)

/-- The 256 B of a flit (R379). -/
def flitBytes (t : TxFlit) (ack : Nat) (nak : Bool) (lsym : Word) : List Byte :=
  let head := leBytes 2 (t.seq + t.data.toNat * 4096) ++ leBytes 2 (ack + nak.toNat * 4096) ++ leBytes 4 lsym.toNat ++ t.body ++ leBytes 4 t.credit
  head ++ leBytes 4 (crc32 head).toNat

/-- Send again what the partner has not accepted, with the old SEQ and body and no symbol (R382). -/
def State.resend (s : State) (e : Nat) : State :=
  (s.modEdge e fun x => { x with wire := x.wire ++ x.replay.map fun t => flitBytes t x.ack x.nak 0 }).count (Reg.LINK_RETRY_COUNT e) 1

/-- ACK and NAK of an intact header (R382). -/
def State.takeAck (s : State) (e ack : Nat) (nak : Bool) : State :=
  let s1 := s.modEdge e fun x => { x with replay := x.replay.filter fun t => 2048 ≤ (ack + 4096 - t.seq) % 4096 }
  let s2 := if nak then s1.resend e else s1
  if (s2.edge e).leaving && (s2.edge e).replay.isEmpty then s2.edgeOut e 0 else s2

/-- A return of credit. -/
def State.takeCredit (s : State) (e c : Nat) : State :=
  s.modEdge e fun x => { x with credit := Store.upd 0 x.credit (bits c 0 4) (· + bits c 4 12) }

/-- A received symbol waits for its command. -/
def State.keepSym (s : State) (e : Nat) (v : Word) : State := s.modEdge e fun x => { x with rsym := x.rsym ++ [v] }

/-- A symbol for an edge. -/
def State.putSym (s : State) (e v : Nat) : State := s.modEdge e fun x => { x with lsym := x.lsym ++ [BitVec.ofNat 32 v] }

/-- A lane-control symbol (R383): a change of the partner's lanes, from the SEQ it names on; a probe, which the beat master answers and another
tile passes up (R395); a probe reply, which waits for its command. -/
def State.laneControl (s : State) (e v : Nat) : State :=
  match bits v 2 2 with
  | 0 =>
    let p := bits v 10 6
    let plan : LanePlan := { seq := bits v 16 12, logical := bits v 4 6, spare := if p = 63 then none else some (p - 32), own := false }
    if bits v 4 6 < 32 ∧ (p = 63 ∨ p = 32 ∨ p = 33) then s.modEdge e fun x => { x with plans := x.plans ++ [plan] } else s
  | 1 =>
    let up := s.fld Reg.LINK_BEAT_UP
    if s.flag Reg.BEAT_CFG_MASTER then s.putSym e (3 + 2 * 4)
    else if up < 4 then ({ s with beat := { s.beat with probes := s.beat.probes ++ [some e] } } : State).putSym up (3 + 1 * 4)
    else s
  | 2 => s.keepSym e (BitVec.ofNat 32 v)
  | _ => s

/-- A symbol of a fresh flit (R383). Of a mark's two copies the first intact one is taken (R384). -/
def State.hearSym (s : State) (e : Nat) (v : Word) : State :=
  match v.toNat % 4 with
  | 1 =>
    let num := bits v.toNat 2 16
    if (s.edge e).markNum = some num then s else (s.keepSym e v).modEdge e fun x => { x with markNum := some num }
  | 2 => s.keepSym e v
  | 3 => s.laneControl e v.toNat
  | _ => s

/-- A flit of a SEQ has arrived, whole or not, on the logical lane of its SEQ: what the lane's failures are judged by (R392). -/
def State.laneCount (s : State) (e seq : Nat) (bad : Bool) : State :=
  let l := (s.logicals e).getD (seq % max 1 (s.logicals e).length) 0
  let n := Store.get 0 (s.edge e).laneFlits l + 1
  s.modEdge e fun x => { x with
    laneFlits := Store.put x.laneFlits l n
    laneErrs := Store.upd [] x.laneErrs l fun t => (if bad then t ++ [n] else t).filter fun k => decide (n < k + 2 ^ 20) }

/-- A damaged flit, or one out of order: it is discarded and NAK is set; its SEQ has been refused once more (R382). -/
def State.refuseFlit (s : State) (e seq : Nat) (damaged : Bool) : State :=
  let s1 := if damaged then s.count (Reg.LINK_CRC_ERR_COUNT e) 1 else s
  s1.modEdge e fun x => { x with nak := true, refused := Store.upd 0 x.refused seq (· + 1) }

/-- A flit accepted in order. -/
def State.acceptFlit (s : State) (e : Nat) (f : Flit) : State :=
  let seq := Flit.num f 0 2 % 4096
  let s0 := s.plansDue e seq false
  let s1 := s0.modEdge e fun x => { x with rxSeq := (seq + 1) % 4096, ack := seq, nak := false, refused := [], ackDue := true }
  let s2 := s1.hearSym e (BitVec.ofNat 32 (Flit.num f 4 4))
  let s3 := (s2.takeCredit e (Flit.num f 248 2)).takeCredit e (Flit.num f 250 2)
  let s4 := if Flit.num f 0 2 / 4096 = 1 then
      let l := (s3.edge e).partialMsg ++ (f.bytes.drop 8).take 240
      let r := messages (l.length / 16) l
      r.1.foldl (fun s m => s.arrive e m) (s3.modEdge e fun x => { x with partialMsg := r.2 })
    else s3
  s4.takeAck e (Flit.num f 2 2 % 4096) (bits (Flit.num f 2 2) 12 1 == 1)

/-- FLIT_RECEIPT. Marks, stretch requests and probe replies that a flit carries wait for their commands. -/
def execFlitReceipt (e : Edge) (f : Flit) (s : State) : Host.Outcome State Fault Refusal :=
  .next (if s.powered && (s.edgeUp e || s.fld (Reg.LINK_STATUS_STATE e) == 1) then
      let seq := Flit.num f 0 2 % 4096
      let s1 := (s.count (Reg.LINK_FEC_CORR_COUNT e) (Flit.corrected f)).laneCount e seq !flitOk f
      if !flitOk f then s1.refuseFlit e seq true
      else if seq ≠ (s.edge e).rxSeq then s1.refuseFlit e seq false
      else s1.acceptFlit e f
    else s)

/-! ## Training (R391) -/

/-- Training of an edge ends without success: an edge that was LOST stays so; a check reads the reason. -/
def State.trainFail (s : State) (e reason : Nat) : State :=
  let s1 := s.modEdge e fun x => { x with train := { x.train with step := 0, reason := reason } }
  if s.checks.any fun c => decide (c.what = Enable.link e) then s1 else s1.setFld (Reg.LINK_STATUS_STATE e) 4

/-- The next step of training; step 7 sends the descriptor, and after step 8, which announces the credits, the edge is in service (R388). -/
def State.trainNext (s : State) (e : Nat) : State :=
  let n := (s.edge e).train.step
  if n = 8 then
    let s1 := match (s.edge e).train.saved with
      | some c => s.modEdge e fun x => { x with train := { x.train with step := 0, reason := 0, saved := none }, credit := c }
      | none => s.modEdge e fun x => { x with
      train := { x.train with step := 0, reason := 0 }
      owed := (List.range (min 16 (s.peerVchs e))).foldl (fun m v =>
        Store.put m v (s.fld (Reg.LINK_VCQ_CREDITS e v) - s.unitsHeld e v)) x.owed }
    s1.setFld (Reg.LINK_STATUS_STATE e) (if s.fld (Reg.LINK_STATUS_LANES e) = 32 then 2 else 3)
  else
    let s1 := s.modEdge e fun x => { x with train := { x.train with step := n + 1 } }
    if n = 6 then s1.sendCap e (leBytes 64 s.ownDesc) else s1

/-- The first `n` of the physical lanes that can carry flits, as a mask. -/
def firstLanes (l : List Nat) (n : Nat) : Nat := ((l.take n).map fun k => 2 ^ k).foldl (· + ·) 0

/-- The lane test (R391 step 3): spares replace failed lanes in ascending order. A lane that a self-test found bad counts (R401). -/
def State.laneTest (s : State) (e : Nat) (found : BitVec 34) (partner : Nat) : State :=
  let bad := found ||| (s.edge e).train.bad
  let failed := (List.range 32).filter fun l => bad.getLsbD l
  let spares := (List.range 2).filter fun k => !bad.getLsbD (32 + k)
  let subs := failed.zip spares
  let good := (List.range 32).filter fun l => !bad.getLsbD l || subs.any fun p => p.1 == l
  let n := min (min good.length partner) 32
  let used := good.take n
  let s1 := (s.wr64 (Reg.LINK_LANEMAP e) (firstLanes (used.filter fun l => !bad.getLsbD l) 32)).setFld (Reg.LINK_STATUS_SPARES_USED e) 0
  let s2 := (subs.filter fun p => used.contains p.1).foldl (fun s p => s.useSpare e p.2 p.1) s1
  let s3 := (s2.setFld (Reg.LINK_STATUS_LANES e) n).modEdge e fun x => { x with train := { x.train with bad := bad } }
  if n < 16 then s3.trainFail e 0x0302 else s3.trainNext e

/-- LINK_TRAINING_STEP: a step ends, with what it found. -/
def execLinkTrainingStep (e : Edge) (i : TrainIn) (s : State) : Host.Outcome State Fault Refusal :=
  let n := (s.edge e).train.step
  .next (if !s.powered || s.fld (Reg.LINK_STATUS_STATE e) != 1 || n == 0 then s
    else match i with
      | .fail => s.trainFail e 0x0302
      | .lanes bad partner => if n = 3 then s.laneTest e bad partner.val else s
      | .latency rt => if n = 6 then (s.setFld (Reg.LINK_STATUS_HOP_LAT e) (rt.toNat / 2)).trainNext e else s
      | .done => if n = 3 ∨ n = 6 ∨ n = 7 then s else s.trainNext e)

/-! ## Capability descriptors (R393, R394) -/

/-- A descriptor without a non-zero reserved bit or a field outside its range. -/
def descriptorOk (d : Nat) : Bool :=
  bits d 28 4 == 0 && bits d 38 2 == 0 && bits d 45 3 == 0 && bits d 53 11 == 0 && d / 2 ^ 96 == 0 && decide (bits d 16 4 ≤ 3)
    && decide (1 ≤ bits d 32 6) && decide (bits d 32 6 ≤ 32) && decide (1 ≤ bits d 40 5) && decide (bits d 40 5 ≤ 16)
    && bits d 64 10 == 0 && bits d 89 1 == 0

/-- Only the first `n` logical lanes that run go on running (R391). -/
def State.limitLanes (s : State) (e n : Nat) : State :=
  if s.fld (Reg.LINK_STATUS_LANES e) ≤ n then s
  else (((s.logicals e).drop n).foldl (fun s l => s.dropLane e l) s).setFld (Reg.LINK_STATUS_LANES e) n

/-- A descriptor arrives in step 7 (R394; log entry 94): its LANES bounds the lanes of the edge (R391). -/
def State.descriptor (s : State) (e : Nat) (data : List Byte) : State :=
  let d := leNat data
  let asked := (s.edge e).train.asked
  if data.length ≠ 64 ∨ descriptorOk d = false then
    (if 3 ≤ asked then s.trainFail e 0x0303
    else (s.modEdge e fun x => { x with train := { x.train with asked := asked + 1 } }).sendCap e [])
  else if bits d 20 4 ≠ 1 then s.trainFail e 0x0304
  else
    let s1 := (s.wrWide (Reg.LINK_PEER e) 16 d).setFlag (Reg.LINK_STATUS_CAP_DEFAULT e) false
    let s2 := (s1.modEdge e fun x => { x with peer := true }).limitLanes e (bits d 32 6)
    if s2.fld (Reg.LINK_STATUS_LANES e) < 16 then s2.trainFail e 0x0302 else s2.trainNext e

/-- CAP: a descriptor, or the partner's request for ours. -/
def execCap (e : Edge) (m : GMsg) (s : State) : Host.Outcome State Fault Refusal :=
  .next (if !s.powered || m.ty != 9 || !(s.edgeUp e || s.fld (Reg.LINK_STATUS_STATE e) == 1) then s
    else
      let s1 := s.drain e m
      if m.data = [] then s1.sendCap e (leBytes 64 s.ownDesc)
      else if (s.edge e).train.step = 7 then s1.descriptor e m.data
      else s1)

/-- CAP_DESCRIPTOR_TIMEOUT: the partner is minimal. -/
def execCapDescriptorTimeout (e : Edge) (s : State) : Host.Outcome State Fault Refusal :=
  .next (if s.powered && s.fld (Reg.LINK_STATUS_STATE e) == 1 && (s.edge e).train.step == 7 then
      let s1 := (s.wrWide (Reg.LINK_PEER e) 16 0).setFlag (Reg.LINK_STATUS_CAP_DEFAULT e) true
      (s1.modEdge e fun x => { x with peer := true }).trainNext e
    else s)

/-! ## Forwarding (R390, R399) -/

/-- MESSAGE_FORWARD: a message for another die goes on by `LINK_ROUTE`, or is discarded. -/
def execMessageForward (m : GMsg) (s : State) : Host.Outcome State Fault Refusal :=
  .next (if !s.awake || s.toMe m.dst.toNat || m.ty == 8 || m.ty == 9 || !s.firstOfChannel m then s else (s.takeMsg m).send m)

/-- The forward class covers a message's pieces (R210, R399). -/
def State.forwardOk (s : State) (n : Nat) : Bool := !s.inBeat || decide (n ≤ s.grantsLeft 2)

/-- The reply to forward traffic (R386): its DST, which the port's tag space holds, is a free value. -/
def State.memReply (s : State) (ty aux : Nat) (data : List Byte) (v : Fin 16) : GMsg :=
  { vch := v, ty := Fin.ofNat 16 ty, dst := BitVec.ofNat 32 (Config.word s.free).toNat, aux := BitVec.ofNat 64 aux, data := data }

/-- A reply returns to the sender by `LINK_ROUTE` (R399, R425). -/
def State.sendReply (s : State) (m : GMsg) : State := ({ s with free := s.free + 1 } : State).send m

/-- Poison bits of the 64 B lines of a KiB from an address. -/
def State.poisonBits (s : State) (a n : Nat) : Nat :=
  ((List.range 16).map fun k =>
    if 64 * k < n ∧ s.pkgBad (a + 64 * k) (min 64 (n - 64 * k)) = true then 2 ^ k else 0).foldl (· + ·) 0

/-- The data of a MEM_DATA (R386): the first KiB, and each further KiB behind a unit that holds its poison bits. -/
def State.memData (s : State) (a n : Nat) : List Byte :=
  (List.range ((n + 1023) / 1024)).flatMap fun k =>
    let b := a + 1024 * k
    let w := min 1024 (n - 1024 * k)
    (if k = 0 then [] else leBytes 16 (s.poisonBits b w)) ++ s.pkgRead b w

/-- The most bytes that one MEM_DATA carries beside its poison units: 256 units in all (R385). -/
abbrev memMost : Nat := 4048

/-- A forwarded MEM message reaches its port: a write and its acknowledgement, or a read and its data, in as few messages as hold it. -/
def State.memServe (s : State) (m : GMsg) : State :=
  let a := bits m.aux.toNat 0 48
  let p := s.fld (Reg.VPORT_STATUS_REMAP (bits m.dst.toNat 0 10 - 0x18))
  if m.ty = 1 then
    let bad := s.pkgWriteBad a m.data.length
    let s1 := (s.pkgWrite a m.data).memRangeAt p a m.data.length
    s1.sendReply (s1.memReply 4 (bits m.aux.toNat 48 16 + bad.toNat * 2 ^ 16) [] m.vch)
  else
    let n := bits m.aux.toNat 48 13 + 1
    (List.range ((n + memMost - 1) / memMost)).foldl (fun s k =>
      let b := a + memMost * k
      let w := min memMost (n - memMost * k)
      s.sendReply (s.memReply 3 (b % 2 ^ 48 + s.poisonBits b (min 1024 w) * 2 ^ 48) (s.memData b w) m.vch)) (s.memRangeAt p a n)

/-- MEM_FORWARD: a MEM message to a vertical port of this tile. A partner that does not advertise MEMFWD has none served: it is discarded and
logged (R394, log entry 103). -/
def execMemForward (e : Edge) (m : GMsg) (s : State) : Host.Outcome State Fault Refusal :=
  let d := m.dst.toNat
  let n := if m.ty = 1 then memPieces (bits m.aux.toNat 0 48) m.data.length
    else memPieces (bits m.aux.toNat 0 48) (bits m.aux.toNat 48 13 + 1)
  let port : Bool := s.toMe d && bits d 25 1 == 1 && decide (0x18 ≤ bits d 0 10) && decide (bits d 0 10 < 0x20)
  let waits := (s.edge e).ingress.contains m
  let first := ((s.edge e).ingress.find? fun x => x.vch == m.vch) == some m
  .next (if !s.awake || !(m.ty == 1 || m.ty == 2) || !port || (waits && !first) || !s.forwardOk n then s
    else
      let s1 := s.drain e m
      if (s.edge e).peer && !s.peerBit e 48 then s1.logEvent 0x21 0 (s.agentAddr (0x10 + e)) d
      else (if s.inBeat then s1.spend 2 n else s1).memServe m)

/-! ## Acknowledgements (R397) -/

/-- The STORE transfer that an acknowledgement's tag names. -/
def ackNames (k : Nat) (x : Xfer) : Bool := armKind x.desc == 1 && !x.bad && !x.waits && !x.acked && x.idx % 16 == k

/-- The transfers of a context that are done complete, in index order (R200). -/
def State.completeDone (site d : Nat) : Nat → State → State
  | 0, s => s
  | n + 1, s =>
    match s.nextDone site d with
    | some x => State.completeDone site d n (s.completeXfer site d x)
    | none => s

/-- MEM_ACK: AUX [15:0] tag, [16] poison. The tag names site, context and transfer (log entry 21); an acknowledged STORE completes after
the earlier transfers of its context (R200), and one acknowledged with poison never does (R397). -/
def execMemAck (m : GMsg) (s : State) : Host.Outcome State Fault Refusal :=
  let tag := bits m.aux.toNat 0 16
  let site := tag % 64
  let d := bits tag 6 6
  .next (if !s.awake || m.ty != 4 || !s.live site || !s.firstOfChannel m then s
    else
      let s1 := s.takeMsg m
      match (s1.ctx site d).xfers.find? (ackNames (tag / 4096)) with
      | none => s1
      | some x => State.completeDone site d 33 (s1.storeAck site d x (bits m.aux.toNat 16 1 == 1) []))

/-! ## Probes and loop-back (R395, R400) -/

/-- PROBE_REPLY: the reply on the edge toward the beat master, with the latency accumulated; this die adds its HOP_LAT. It answers the oldest
probe without one: a probe that came by an edge has its reply go back there, down the same path. -/
def execProbeReply (latency : BitVec 24) (s : State) : Host.Outcome State Fault Refusal :=
  let up := s.fld Reg.LINK_BEAT_UP
  .next (if s.fw && decide (up < 4) && !s.flag Reg.BEAT_CFG_MASTER then
      let n := latency.toNat + s.fld (Reg.LINK_STATUS_HOP_LAT up)
      let s1 := (s.takeSym up fun v => v.toNat % 16 == 11 && bits v.toNat 4 24 == latency.toNat).setFld Reg.BEAT_ALIGN_LOCAL_LAT n
      let s2 := { s1 with beat := { s1.beat with probes := s.beat.probes.drop 1 } }
      match s.beat.probes with
      | some e :: _ => s2.putSym e (3 + 2 * 4 + n % 2 ^ 24 * 2 ^ 4)
      | _ => s2
    else s)

/-- LOOPBACK_RUN_DONE: the lanes of an edge with errors, or the number of pairs of a port. -/
def execLoopbackRunDone (u : TestUnit) (failed : BitVec 34) (s : State) : Host.Outcome State Fault Refusal :=
  let after := if s.dev.testMode then 5 else 0
  .next (if !s.alive then s
    else match u with
      | .edge e =>
        if (s.edge e).loop then
          let s1 := (s.setFlag (Reg.LINK_LOOP_DONE e) true).wr64 (Reg.LINK_LOOP_FAIL e) failed.toNat
          (s1.setFld (Reg.LINK_STATUS_STATE e) after).modEdge e fun x => { x with loop := false }
        else s
      | .vport p =>
        if s.fld (Reg.VPORT_STATUS_STATE p) = 2 then
          let s1 := (s.setFlag (Reg.VPORT_LOOP_DONE p) true).setFld (Reg.VPORT_LOOP_FAILED p) failed.toNat
          (s1.setFld (Reg.VPORT_STATUS_STATE p) 0).showRemap
        else s
      | _ => s)

end Sys2Proof.Machine
end

