-- ==== Sys2Proof/Machine/Pads.lean ====
section
/-! DEFINITION. The pad field (R442 to R447): where a bond site lies and what it carries, and what the boundary-scan cells are. -/

namespace Sys2Proof.Machine

/-! ## Sites (R442) -/

/-- A site of the bond field: 5,777 columns and 3,500 rows. -/
def bondSite (x y : Nat) : Bool := decide (x ≤ 5776) && decide (y ≤ 3499)

/-- The centre of a site, east and south of the field's north-west corner, in nanometres. -/
def padCentre (x y : Nat) : Nat × Nat := (4500 + 9000 * x, 4500 + 9000 * y)

/-! ## Vertical port blocks (R444) -/

/-- Vertical port block `p`: its origin. -/
def portOrigin (p : Nat) : Nat × Nat := (if p % 2 = 0 then 2568 else 2968, 250 + 875 * (p / 2))

/-- The pad of signal `n` of vertical port `p`. -/
def portPad (p n : Nat) : Nat × Nat :=
  ((portOrigin p).1 + n % 128 + n % 128 / 4, (portOrigin p).2 + n / 128)

/-- What signal `n` of a port carries: tile to base, data (or control), bit, copy. -/
def portSignal (n : Nat) : Bool × Bool × Nat × Nat :=
  let m := n % 8704
  if m < 8192 then (decide (n < 8704), true, m / 2, m % 2) else (decide (n < 8704), false, (m - 8192) / 2, m % 2)

/-- The signal at a site of a port's block, none where the site is VSS. -/
def portSignalAt (p x y : Nat) : Option Nat :=
  let k := x - (portOrigin p).1
  if k % 5 = 4 then none else some (128 * (y - (portOrigin p).2) + (k - k / 5))

/-! ## Edge lanes (R445) -/

/-- A pad from an edge's coordinates along it and into it. -/
def edgePad (e u v : Nat) : Nat × Nat :=
  match e with
  | 0 => (u, v)
  | 1 => (5776 - v, u)
  | 2 => (u, 3499 - v)
  | _ => (v, u)

/-- Pads of physical lane `l` of an edge: TX_P, TX_N, RX_P, RX_N. -/
def lanePads (e l : Nat) : List (Nat × Nat) :=
  let u := (if e % 2 = 0 then 2752 else 1614) + 8 * l
  [edgePad e u 16, edgePad e (u + 2) 16, edgePad e u 20, edgePad e (u + 2) 20]

/-- A pin of a lane. -/
inductive LanePin where
  | txP | txN | rxP | rxN
deriving DecidableEq, Repr

/-! ## Groups (R443) -/

/-- A group of bond sites (R443). -/
inductive PadGroup where
  | control
  | edge (e : Nat)
  | vport (p : Nat)
  | power
deriving DecidableEq, Repr

/-- Coordinates of a site along and into an edge. -/
def edgeCoord (e x y : Nat) : Nat × Nat :=
  match e with
  | 0 => (x, y)
  | 1 => (y, 5776 - x)
  | 2 => (x, 3499 - y)
  | _ => (y, x)

/-- A site lies in the band of an edge. -/
def inBand (e x y : Nat) : Bool :=
  let c := edgeCoord e x y
  let u0 := if e % 2 = 0 then 2752 else 1614
  decide (u0 - 4 ≤ c.1) && decide (c.1 ≤ u0 + 274) && decide (12 ≤ c.2) && decide (c.2 ≤ 24)

/-- The lane and the pin at a site of an edge's band, none where the site is VSS. -/
def laneSite (e x y : Nat) : Option (Nat × LanePin) :=
  let c := edgeCoord e x y
  let k := c.1 - (if e % 2 = 0 then 2752 else 1614)
  if c.1 < (if e % 2 = 0 then 2752 else 1614) ∨ 272 ≤ k ∨ ¬ (k % 8 = 0 ∨ k % 8 = 2) then none
  else if c.2 = 16 then some (k / 8, if k % 8 = 0 then .txP else .txN)
  else if c.2 = 20 then some (k / 8, if k % 8 = 0 then .rxP else .rxN)
  else none

/-- The rail that edge lanes run on, by its code (R357): VDD_LNK. -/
def laneRail : Nat := 3

/-- A site lies in the block of a vertical port. -/
def inPort (p x y : Nat) : Bool :=
  let o := portOrigin p
  decide (o.1 ≤ x) && decide (x ≤ o.1 + 159) && decide (o.2 ≤ y) && decide (y ≤ o.2 + 135)

/-- The group of a bond site: the first in the order of R443. -/
def padGroup (x y : Nat) : PadGroup :=
  if 36 ≤ x ∧ x ≤ 132 ∧ 36 ≤ y ∧ y ≤ 52 then .control
  else
    match (List.range 4).find? fun e => inBand e x y with
    | some e => .edge e
    | none =>
      match (List.range 8).find? fun p => inPort p x y with
      | some p => .vport p
      | none => .power

/-! ## The control block (R446) -/

/-- The direction of a pad of the control block. -/
inductive PadDir where
  | input
  /-- Input with a 50 kΩ pull-up. -/
  | inputUp
  | openDrain
  | output
  /-- Output, at high impedance outside Shift-IR and Shift-DR. -/
  | outputShift
  | diffIn
  | diffOut
deriving DecidableEq, Repr

/-- What a boundary-scan cell is to its pad. -/
inductive CellKind where
  | input | driveLow | data | enable
deriving DecidableEq, Repr

/-- The signals of the control block, in row 40 at every fourth column from 40, each with its direction and its boundary-scan cells. -/
def controlSignals : List (String × PadDir × List (Nat × CellKind)) :=
  [("PRIMARY_SEL", .input, [(0, .input)]), ("TILE_SEL[0]", .input, [(1, .input)]), ("TILE_SEL[1]", .input, [(2, .input)]),
   ("TILE_SEL[2]", .input, [(3, .input)]), ("BOOT_EDGE[0]", .input, [(4, .input)]), ("BOOT_EDGE[1]", .input, [(5, .input)]),
   ("TEST_MODE", .input, []), ("SB_CLK", .input, [(6, .input)]), ("SB_DAT", .openDrain, [(7, .input), (8, .driveLow)])]
  ++ [("UART_RXD", .inputUp, [(9, .input)]), ("UART_TXD", .output, [(10, .data), (11, .enable)]), ("TCK", .input, []),
      ("TMS", .inputUp, []), ("TDI", .inputUp, []), ("TDO", .outputShift, []), ("TRST_N", .inputUp, []), ("AONCLK", .input, []),
      ("REFCLK_P", .diffIn, []), ("REFCLK_N", .diffIn, [])]
  ++ [("VRC_TX_P", .diffOut, [(12, .data), (13, .enable)]), ("VRC_TX_N", .diffOut, []), ("VRC_RX_P", .diffIn, [(14, .input)]),
      ("VRC_RX_N", .diffIn, [])]

/-- What the boundary-scan cells drive: each output's level, none at high impedance, and whether SB_DAT is pulled low. -/
structure PadsOut where
  txd   : Option Bool
  vrc   : Option Bool
  sbLow : Bool
deriving DecidableEq, Repr

/-- The outputs that a boundary-scan register's data, enable and drive-low cells set; a cell acts where it is 1 (DESIGN CHOICE, log
entry 109). -/
def padsOf (v : BitVec 15) : PadsOut :=
  { txd := if v.getLsbD 11 then some (v.getLsbD 10) else none
    vrc := if v.getLsbD 13 then some (v.getLsbD 12) else none
    sbLow := v.getLsbD 8 }

/-- A state of the TAP controller, as far as TDO asks. -/
inductive TapPhase where
  | shiftIr | shiftDr | other
deriving DecidableEq, Repr

/-- TDO: the bit that leaves, and high impedance outside Shift-IR and Shift-DR. -/
def tdoPad (p : TapPhase) (b : Bool) : Option Bool :=
  match p with
  | .shiftIr => some b
  | .shiftDr => some b
  | .other => none

/-- What a site of the control block carries (R446): a signal, VIO, VDD_AON, or none for VSS. -/
def controlPad (x y : Nat) : Option String :=
  if x < 40 ∨ x % 4 ≠ 0 then none
  else if y = 40 then controlSignals[(x - 40) / 4]?.map (·.1)
  else if y = 44 ∧ x ≤ 100 then some "VIO"
  else if y = 48 ∧ x ≤ 100 then some "VDD_AON"
  else none

/-! ## The power field (R447) -/

/-- The site of the mesh under a bond site. -/
def siteUnder (x y : Nat) : Nat := (18 * y + 9) / 7875 * 8 + (18 * x + 9) / 13000

/-- Within 16 sites of a vertical port block. -/
def nearPort (x y : Nat) : Bool :=
  (List.range 8).any fun p =>
    let o := portOrigin p
    decide (o.1 ≤ x + 16) && decide (x ≤ o.1 + 159 + 16) && decide (o.2 ≤ y + 16) && decide (y ≤ o.2 + 135 + 16)

/-- The rail of a power-field site by its code (R357), none for VSS. -/
def padRail (x y : Nat) : Option Nat :=
  if (x + y) % 2 = 0 then none
  else if x < 64 ∨ 5776 < x + 64 ∨ y < 64 ∨ 3499 < y + 64 ∨ nearPort x y = true then some 3
  else if isVector (siteUnder x y) then some (if x % 4 = 3 then 2 else 1)
  else some (match x % 4 with | 0 => 0 | 1 => 0 | 2 => 1 | _ => 2)

/-! ## What a site carries -/

/-- What a bond site carries. -/
inductive PadUse where
  | vss
  | signal (name : String)
  | vio
  | vddAon
  | lane (edge lane : Nat) (pin : LanePin)
  | port (p n : Nat)
  | rail (r : Nat)
deriving DecidableEq, Repr

/-- What the site carries (R442 to R447): VSS where no rule assigns it; none outside the field. -/
def padUse (x y : Nat) : Option PadUse :=
  if !bondSite x y then none
  else some (match padGroup x y with
    | .control => (match controlPad x y with
      | some "VIO" => .vio
      | some "VDD_AON" => .vddAon
      | some n => .signal n
      | none => .vss)
    | .edge e => ((laneSite e x y).map fun l => PadUse.lane e l.1 l.2).getD .vss
    | .vport p => ((portSignalAt p x y).map fun n => PadUse.port p n).getD .vss
    | .power => ((padRail x y).map fun r => PadUse.rail r).getD .vss)

end Sys2Proof.Machine
end

