-- ==== Sys2Proof/Machine/Tap.lean ====
section
/-! DEFINITION. The test access port (R438, R439, R446). A command is one whole scan: the instruction register first, then the data
register that the instruction selects. -/

namespace Sys2Proof.Machine

/-- What IDCODE reads. -/
def idcodeWord : Word := 0x1016036B#32

/-- What the instruction register captures. -/
def irCapture : BitVec 8 := 0b0000_0001

/-- The instruction of a code: every other code is BYPASS. -/
def jInstr (code : BitVec 8) : JInstr :=
  match code.toNat with
  | 0x00 => .extest
  | 0x01 => .sample
  | 0x02 => .idcode
  | 0x03 => .highz
  | 0x04 => .clamp
  | 0x20 => .dbgAccess
  | _ => .bypass

/-- An instruction that acts only with `TEST_MODE` = 1. -/
def JInstr.needsTest : JInstr → Bool
  | .extest => true
  | .highz => true
  | .clamp => true
  | .sample => false
  | .idcode => false
  | .dbgAccess => false
  | .bypass => false

/-- The instruction that acts: one whose condition is not met acts as BYPASS. -/
def State.tapInstr (s : State) : JInstr :=
  let i := jInstr s.jtag.ir
  if i.needsTest && !s.dev.testMode then .bypass else i

/-- The port works from AON on. -/
def State.tapOn (s : State) : Bool := s.ts != tsOff

/-- Bits in the order of a scan: bit 0, nearest TDO, first. -/
def scanBits (n v : Nat) : List Bool := (List.range n).map v.testBit

/-- Shift a code into the instruction register. -/
def State.irScan (s : State) (code : BitVec 8) : State :=
  { s with jtag := { s.jtag with ir := code, tdo := scanBits 8 irCapture.toNat } }

/-- The data register shifts out what it captured. -/
def State.drScan (s : State) (n v : Nat) : State := { s with jtag := { s.jtag with tdo := s.jtag.tdo ++ scanBits n v } }

/-- Shift bits through the bypass register, which captured 0. -/
def State.bypassScan (s : State) (l : List Bool) : State :=
  { s with jtag := { s.jtag with bypass := l.getLast?.getD s.jtag.bypass, tdo := s.jtag.tdo ++ (false :: l).dropLast } }

/-- Shift the boundary-scan register: the cells shift out what they captured and take what was shifted in. -/
def State.bsrScan (s : State) (scanIn pads : BitVec 15) : State :=
  let s1 := s.drScan 15 pads.toNat
  { s1 with jtag := { s1.jtag with bsr := scanIn, bsrOut := pads } }

/-- EXTEST: the cells capture the pads, and the pads are driven from what was shifted in. -/
def execExtest (scanIn pads : BitVec 15) (s : State) : Host.Outcome State Fault Refusal :=
  .next (if !s.tapOn then s
    else
      let s1 := s.irScan 0x00
      if s1.tapInstr = .extest then s1.bsrScan scanIn pads else s1.bypassScan (scanBits 15 scanIn.toNat))

/-- SAMPLE/PRELOAD: the pads are sampled and the cells preloaded. -/
def execSamplePreload (scanIn pads : BitVec 15) (s : State) : Host.Outcome State Fault Refusal :=
  .next (if s.tapOn then (s.irScan 0x01).bsrScan scanIn pads else s)

/-- IDCODE: the word is shifted out. -/
def execIdcode (s : State) : Host.Outcome State Fault Refusal :=
  .next (if s.tapOn then (s.irScan 0x02).drScan 32 idcodeWord.toNat else s)

/-- HIGHZ. -/
def execHighz (s : State) : Host.Outcome State Fault Refusal := .next (if s.tapOn then s.irScan 0x03 else s)

/-- CLAMP. -/
def execClamp (s : State) : Host.Outcome State Fault Refusal := .next (if s.tapOn then s.irScan 0x04 else s)

/-- BYPASS, or a code that acts as it: a bit is shifted through. -/
def execBypass (x : JBypass) (s : State) : Host.Outcome State Fault Refusal :=
  .next (if s.tapOn then
      let s1 := s.irScan x.code
      if s1.tapInstr = .bypass then s1.bypassScan [x.tdi] else s1
    else s)

/-- What the outputs of the control block are driven to from the boundary-scan register: none where the instruction leaves the pads to the
tile. Inputs are never driven. -/
def State.padsDriven (s : State) : Option PadsOut :=
  if s.tapInstr = .extest ∨ s.tapInstr = .clamp then some (padsOf s.jtag.bsr) else none

/-- The outputs are at high impedance. -/
def State.padsFloat (s : State) : Bool := s.tapInstr == .highz

/-- Capture-DR of DBG_ACCESS (R439). -/
def State.captureDbg (s : State) : Nat :=
  if !s.unlocked then 2 ^ 65 else s.jtag.data.toNat + s.jtag.done.toNat * 2 ^ 64 + s.jtag.err.toNat * 2 ^ 65

/-- DBG_ACCESS: Capture-DR, then Update-DR with its 66 bits. -/
def execDbgAccess (dr : BitVec 66) (s : State) : Host.Outcome State Fault Refusal :=
  let off := (dr.extractLsb' 32 32).toNat
  let v := dr.extractLsb' 0 32
  .next (if !s.tapOn then s
    else
      let s1 := (s.irScan 0x20).drScan 66 s.captureDbg
      let put (s : State) (data : Word) (done err : Bool) : State :=
        { s with jtag := { s.jtag with data := data, done := done, err := err } }
      if !s.portOpen .jtag then s1
      else if !s.unlocked then put s1 s.jtag.data s.jtag.done true
      else if dr.getLsbD 64 then
        let bad := off % 4 == 0 && (s.writeRefusal off v.toNat).1 != stOk
        put (s1.portWrite .jtag off v) s.jtag.data true bad
      else
        let r := s1.ctlRead .jtag off
        put r.2 r.1 true false)

/-- TAP_RESET: IDCODE is selected; nothing else changes. -/
def execTapReset (s : State) : Host.Outcome State Fault Refusal :=
  .next (if s.tapOn then { s with jtag := { s.jtag with ir := 0x02 } } else s)

end Sys2Proof.Machine
end

