-- ==== Sys2Proof/Machine/Dispatch.lean ====
section
/-! DEFINITION. One arm for each command of the table. -/

namespace Sys2Proof.Machine

/-- The effect of a command on everything but the queue. -/
def exec (i : Instr) (s : State) : Host.Outcome State Fault Refusal :=
  match i with
  | .vddAonRise a0 => Sys2Proof.Machine.execVddAonRise a0 s
  | .vddAonFall => Sys2Proof.Machine.execVddAonFall s
  | .refclkLoss => Sys2Proof.Machine.execRefclkLoss s
  | .selfRelease => Sys2Proof.Machine.execSelfRelease s
  | .bootRomStep a0 => Sys2Proof.Machine.execBootRomStep a0 s
  | .bootRetry => Sys2Proof.Machine.execBootRetry s
  | .followerReportTimeout => Sys2Proof.Machine.execFollowerReportTimeout s
  | .addrClaim a0 => Sys2Proof.Machine.execAddrClaim a0 s
  | .sbClaimWindowEnd => Sys2Proof.Machine.execSbClaimWindowEnd s
  | .sbFrameSend a0 => Sys2Proof.Machine.execSbFrameSend a0 s
  | .capQuery a0 => Sys2Proof.Machine.execCapQuery a0 s
  | .capReply a0 => Sys2Proof.Machine.execCapReply a0 s
  | .resetHold a0 => Sys2Proof.Machine.execResetHold a0 s
  | .resetRelease a0 => Sys2Proof.Machine.execResetRelease a0 s
  | .bootStatus a0 => Sys2Proof.Machine.execBootStatus a0 s
  | .beatAppoint a0 => Sys2Proof.Machine.execBeatAppoint a0 s
  | .beatAppointExpiry => Sys2Proof.Machine.execBeatAppointExpiry s
  | .beatCommit a0 => Sys2Proof.Machine.execBeatCommit a0 s
  | .wake a0 => Sys2Proof.Machine.execWake a0 s
  | .timeSet a0 => Sys2Proof.Machine.execTimeSet a0 s
  | .healthQuery a0 => Sys2Proof.Machine.execHealthQuery a0 s
  | .healthReply a0 => Sys2Proof.Machine.execHealthReply a0 s
  | .pkgAssign a0 => Sys2Proof.Machine.execPkgAssign a0 s
  | .queue0Cfg a0 => Sys2Proof.Machine.execQueue0Cfg a0 s
  | .pkgConfig a0 => Sys2Proof.Machine.execPkgConfig a0 s
  | .sbUnknownFrame a0 a1 => Sys2Proof.Machine.execSbUnknownFrame a0 a1 s
  | .comparatorFire a0 a1 => Sys2Proof.Machine.execComparatorFire a0 a1 s
  | .thermalTrip a0 a1 => Sys2Proof.Machine.execThermalTrip a0 a1 s
  | .trip a0 a1 => Sys2Proof.Machine.execTrip a0 a1 s
  | .ackV a0 a1 => Sys2Proof.Machine.execAckV a0 a1 s
  | .vreqNack => Sys2Proof.Machine.execVreqNack s
  | .telem a0 a1 a2 => Sys2Proof.Machine.execTelem a0 a1 a2 s
  | .limiterSample a0 a1 => Sys2Proof.Machine.execLimiterSample a0 a1 s
  | .stretchRequest a0 a1 => Sys2Proof.Machine.execStretchRequest a0 a1 s
  | .droopTrip a0 => Sys2Proof.Machine.execDroopTrip a0 s
  | .droopRecover => Sys2Proof.Machine.execDroopRecover s
  | .pwrOpReq a0 a1 => Sys2Proof.Machine.execPwrOpReq a0 a1 s
  | .pwrRegionWrite a0 a1 => Sys2Proof.Machine.execPwrRegionWrite a0 a1 s
  | .regionPowerUpDone a0 => Sys2Proof.Machine.execRegionPowerUpDone a0 s
  | .pwrSleepReq a0 a1 => Sys2Proof.Machine.execPwrSleepReq a0 a1 s
  | .sleepEntryDone => Sys2Proof.Machine.execSleepEntryDone s
  | .wakeDone => Sys2Proof.Machine.execWakeDone s
  | .markIssue => Sys2Proof.Machine.execMarkIssue s
  | .markReceipt a0 a1 a2 => Sys2Proof.Machine.execMarkReceipt a0 a1 a2 s
  | .beatLoss => Sys2Proof.Machine.execBeatLoss s
  | .resyncTimeout => Sys2Proof.Machine.execResyncTimeout s
  | .localMark => Sys2Proof.Machine.execLocalMark s
  | .lateBlockStart a0 a1 => Sys2Proof.Machine.execLateBlockStart a0 a1 s
  | .blockCommit a0 a1 => Sys2Proof.Machine.execBlockCommit a0 a1 s
  | .batchLimitRelease a0 a1 => Sys2Proof.Machine.execBatchLimitRelease a0 a1 s
  | .linkSlotStart a0 a1 => Sys2Proof.Machine.execLinkSlotStart a0 a1 s
  | .neighbourArrival a0 a1 => Sys2Proof.Machine.execNeighbourArrival a0 a1 s
  | .sendHeldTmo a0 a1 => Sys2Proof.Machine.execSendHeldTmo a0 a1 s
  | .rv64imac a0 a1 => Sys2Proof.Machine.execRv64imac a0 a1 s
  | .bzAload a0 a1 => Sys2Proof.Machine.execBzAload a0 a1 s
  | .bzAstream a0 a1 => Sys2Proof.Machine.execBzAstream a0 a1 s
  | .bzAinit a0 a1 => Sys2Proof.Machine.execBzAinit a0 a1 s
  | .bzAbank a0 a1 => Sys2Proof.Machine.execBzAbank a0 a1 s
  | .bzAstat a0 a1 => Sys2Proof.Machine.execBzAstat a0 a1 s
  | .bzVsetvl a0 a1 => Sys2Proof.Machine.execBzVsetvl a0 a1 s
  | .bzVrun a0 a1 => Sys2Proof.Machine.execBzVrun a0 a1 s
  | .bzVred a0 a1 => Sys2Proof.Machine.execBzVred a0 a1 s
  | .bzVperm a0 a1 => Sys2Proof.Machine.execBzVperm a0 a1 s
  | .bzVcmpx a0 a1 => Sys2Proof.Machine.execBzVcmpx a0 a1 s
  | .bzVstat a0 a1 => Sys2Proof.Machine.execBzVstat a0 a1 s
  | .bzYmv a0 a1 => Sys2Proof.Machine.execBzYmv a0 a1 s
  | .bzSarm a0 a1 => Sys2Proof.Machine.execBzSarm a0 a1 s
  | .bzDep a0 a1 => Sys2Proof.Machine.execBzDep a0 a1 s
  | .bzScancel a0 a1 => Sys2Proof.Machine.execBzScancel a0 a1 s
  | .bzSend a0 a1 => Sys2Proof.Machine.execBzSend a0 a1 s
  | .bzFill a0 a1 => Sys2Proof.Machine.execBzFill a0 a1 s
  | .bzCopy a0 a1 => Sys2Proof.Machine.execBzCopy a0 a1 s
  | .bzSig a0 a1 => Sys2Proof.Machine.execBzSig a0 a1 s
  | .bzWait a0 a1 => Sys2Proof.Machine.execBzWait a0 a1 s
  | .waitMet a0 a1 => Sys2Proof.Machine.execWaitMet a0 a1 s
  | .waitTmo a0 a1 => Sys2Proof.Machine.execWaitTmo a0 a1 s
  | .bzBar a0 a1 => Sys2Proof.Machine.execBzBar a0 a1 s
  | .bzEndb a0 a1 => Sys2Proof.Machine.execBzEndb a0 a1 s
  | .bzBatch a0 a1 => Sys2Proof.Machine.execBzBatch a0 a1 s
  | .bzBflush a0 a1 => Sys2Proof.Machine.execBzBflush a0 a1 s
  | .bzMark a0 a1 => Sys2Proof.Machine.execBzMark a0 a1 s
  | .arrayOpStart a0 a1 => Sys2Proof.Machine.execArrayOpStart a0 a1 s
  | .arrayRowEntry a0 a1 => Sys2Proof.Machine.execArrayRowEntry a0 a1 s
  | .arrayCheckFail a0 a1 a2 a3 a4 => Sys2Proof.Machine.execArrayCheckFail a0 a1 a2 a3 a4 s
  | .loadComplete a0 a1 => Sys2Proof.Machine.execLoadComplete a0 a1 s
  | .streamComplete a0 a1 => Sys2Proof.Machine.execStreamComplete a0 a1 s
  | .ainitComplete a0 a1 => Sys2Proof.Machine.execAinitComplete a0 a1 s
  | .dummyRow a0 a1 => Sys2Proof.Machine.execDummyRow a0 a1 s
  | .arrayIdle a0 a1 => Sys2Proof.Machine.execArrayIdle a0 a1 s
  | .vectorOpStart a0 a1 => Sys2Proof.Machine.execVectorOpStart a0 a1 s
  | .vectorOpComplete a0 a1 => Sys2Proof.Machine.execVectorOpComplete a0 a1 s
  | .dummyOperation a0 a1 => Sys2Proof.Machine.execDummyOperation a0 a1 s
  | .vectorEngineIdle a0 a1 => Sys2Proof.Machine.execVectorEngineIdle a0 a1 s
  | .streamTransferIssue a0 a1 => Sys2Proof.Machine.execStreamTransferIssue a0 a1 s
  | .streamTransferComplete a0 a1 => Sys2Proof.Machine.execStreamTransferComplete a0 a1 s
  | .depMarkerMet a0 a1 => Sys2Proof.Machine.execDepMarkerMet a0 a1 s
  | .loadLineArrival a0 a1 => Sys2Proof.Machine.execLoadLineArrival a0 a1 s
  | .remoteArrival a0 => Sys2Proof.Machine.execRemoteArrival a0 s
  | .remoteHeldTmo a0 => Sys2Proof.Machine.execRemoteHeldTmo a0 s
  | .fillCopyComplete a0 a1 => Sys2Proof.Machine.execFillCopyComplete a0 a1 s
  | .bankOffReqWrite a0 a1 a2 => Sys2Proof.Machine.execBankOffReqWrite a0 a1 a2 s
  | .bankOnReqWrite a0 a1 a2 => Sys2Proof.Machine.execBankOnReqWrite a0 a1 a2 s
  | .bankPowerDown a0 a1 => Sys2Proof.Machine.execBankPowerDown a0 a1 s
  | .bankPdRefused a0 a1 => Sys2Proof.Machine.execBankPdRefused a0 a1 s
  | .bankWakeDone a0 a1 => Sys2Proof.Machine.execBankWakeDone a0 a1 s
  | .landCtlClear a0 a1 a2 => Sys2Proof.Machine.execLandCtlClear a0 a1 a2 s
  | .vePstoreDataAccess a0 a1 a2 => Sys2Proof.Machine.execVePstoreDataAccess a0 a1 a2 s
  | .remoteSignal a0 => Sys2Proof.Machine.execRemoteSignal a0 s
  | .barrierArrival a0 a1 a2 => Sys2Proof.Machine.execBarrierArrival a0 a1 a2 s
  | .dataBarrierRelease a0 a1 => Sys2Proof.Machine.execDataBarrierRelease a0 a1 s
  | .controlRelease a0 a1 a2 => Sys2Proof.Machine.execControlRelease a0 a1 a2 s
  | .releaseApply a0 => Sys2Proof.Machine.execReleaseApply a0 s
  | .clWdog a0 => Sys2Proof.Machine.execClWdog a0 s
  | .tileWdog => Sys2Proof.Machine.execTileWdog s
  | .bucketSeal a0 => Sys2Proof.Machine.execBucketSeal a0 s
  | .reductionLineArrival a0 a1 => Sys2Proof.Machine.execReductionLineArrival a0 a1 s
  | .reductionTrailerArrival a0 a1 => Sys2Proof.Machine.execReductionTrailerArrival a0 a1 s
  | .reductionDeadline a0 => Sys2Proof.Machine.execReductionDeadline a0 s
  | .downLineArrival a0 => Sys2Proof.Machine.execDownLineArrival a0 s
  | .downTrailerArrival a0 => Sys2Proof.Machine.execDownTrailerArrival a0 s
  | .repeatRequest a0 a1 a2 => Sys2Proof.Machine.execRepeatRequest a0 a1 a2 s
  | .repeatReceipt a0 a1 => Sys2Proof.Machine.execRepeatReceipt a0 a1 s
  | .repeatApply => Sys2Proof.Machine.execRepeatApply s
  | .restartReady => Sys2Proof.Machine.execRestartReady s
  | .stepAbandon => Sys2Proof.Machine.execStepAbandon s
  | .selftestDone a0 a1 => Sys2Proof.Machine.execSelftestDone a0 a1 s
  | .clusterSwap => Sys2Proof.Machine.execClusterSwap s
  | .doorbell a0 => Sys2Proof.Machine.execDoorbell a0 s
  | .qdbWrite a0 a1 => Sys2Proof.Machine.execQdbWrite a0 a1 s
  | .commandFetch => Sys2Proof.Machine.execCommandFetch s
  | .queueCtlEnSet a0 a1 a2 => Sys2Proof.Machine.execQueueCtlEnSet a0 a1 a2 s
  | .queueCtlEnClear a0 a1 a2 => Sys2Proof.Machine.execQueueCtlEnClear a0 a1 a2 s
  | .jobEnSet a0 a1 => Sys2Proof.Machine.execJobEnSet a0 a1 s
  | .linkCtlEnSet a0 a1 a2 => Sys2Proof.Machine.execLinkCtlEnSet a0 a1 a2 s
  | .linkCtlEnClear a0 a1 a2 => Sys2Proof.Machine.execLinkCtlEnClear a0 a1 a2 s
  | .reduceCtlEnSet a0 a1 => Sys2Proof.Machine.execReduceCtlEnSet a0 a1 s
  | .consistencyCheckEnd a0 a1 a2 => Sys2Proof.Machine.execConsistencyCheckEnd a0 a1 a2 s
  | .registerWrite a0 a1 a2 => Sys2Proof.Machine.execRegisterWrite a0 a1 a2 s
  | .nop a0 => Sys2Proof.Machine.execNop a0 s
  | .fence a0 => Sys2Proof.Machine.execFence a0 s
  | .regRead a0 => Sys2Proof.Machine.execRegRead a0 s
  | .regWrite a0 => Sys2Proof.Machine.execRegWrite a0 s
  | .jobLoad a0 => Sys2Proof.Machine.execJobLoad a0 s
  | .jobLoadCopyDone => Sys2Proof.Machine.execJobLoadCopyDone s
  | .jobLoadTmo => Sys2Proof.Machine.execJobLoadTmo s
  | .jobStart a0 => Sys2Proof.Machine.execJobStart a0 s
  | .readyReport a0 a1 => Sys2Proof.Machine.execReadyReport a0 a1 s
  | .startTmo => Sys2Proof.Machine.execStartTmo s
  | .jobPause a0 => Sys2Proof.Machine.execJobPause a0 s
  | .pauseEntry => Sys2Proof.Machine.execPauseEntry s
  | .jobStop a0 => Sys2Proof.Machine.execJobStop a0 s
  | .jobStopIdle => Sys2Proof.Machine.execJobStopIdle s
  | .stopHung => Sys2Proof.Machine.execStopHung s
  | .stepBegin a0 => Sys2Proof.Machine.execStepBegin a0 s
  | .stepEnd a0 => Sys2Proof.Machine.execStepEnd a0 s
  | .stepEndDone a0 => Sys2Proof.Machine.execStepEndDone a0 s
  | .stepTmo a0 => Sys2Proof.Machine.execStepTmo a0 s
  | .copy a0 => Sys2Proof.Machine.execCopy a0 s
  | .fill a0 => Sys2Proof.Machine.execFill a0 s
  | .transpose a0 => Sys2Proof.Machine.execTranspose a0 s
  | .dataCommandComplete a0 => Sys2Proof.Machine.execDataCommandComplete a0 s
  | .prefetchCancel a0 => Sys2Proof.Machine.execPrefetchCancel a0 s
  | .signal a0 => Sys2Proof.Machine.execSignal a0 s
  | .wait a0 => Sys2Proof.Machine.execWait a0 s
  | .hostWaitMet a0 => Sys2Proof.Machine.execHostWaitMet a0 s
  | .hostWaitTmo a0 => Sys2Proof.Machine.execHostWaitTmo a0 s
  | .query a0 => Sys2Proof.Machine.execQuery a0 s
  | .reduceCfg a0 => Sys2Proof.Machine.execReduceCfg a0 s
  | .reduceBucket a0 => Sys2Proof.Machine.execReduceBucket a0 s
  | .deferredSeal a0 => Sys2Proof.Machine.execDeferredSeal a0 s
  | .errQuery a0 => Sys2Proof.Machine.execErrQuery a0 s
  | .selftest a0 => Sys2Proof.Machine.execSelftest a0 s
  | .spareSwap a0 => Sys2Proof.Machine.execSpareSwap a0 s
  | .capSet a0 => Sys2Proof.Machine.execCapSet a0 s
  | .energyRead a0 => Sys2Proof.Machine.execEnergyRead a0 s
  | .attest a0 => Sys2Proof.Machine.execAttest a0 s
  | .fwInfo a0 => Sys2Proof.Machine.execFwInfo a0 s
  | .debugUnlock a0 => Sys2Proof.Machine.execDebugUnlock a0 s
  | .challengeLapse => Sys2Proof.Machine.execChallengeLapse s
  | .dbgStateLock a0 a1 => Sys2Proof.Machine.execDbgStateLock a0 a1 s
  | .flitReceipt a0 a1 => Sys2Proof.Machine.execFlitReceipt a0 a1 s
  | .laneFailure a0 a1 a2 => Sys2Proof.Machine.execLaneFailure a0 a1 a2 s
  | .linkTrainingStep a0 a1 => Sys2Proof.Machine.execLinkTrainingStep a0 a1 s
  | .cap a0 a1 => Sys2Proof.Machine.execCap a0 a1 s
  | .capDescriptorTimeout a0 => Sys2Proof.Machine.execCapDescriptorTimeout a0 s
  | .memForward a0 a1 => Sys2Proof.Machine.execMemForward a0 a1 s
  | .memAck a0 => Sys2Proof.Machine.execMemAck a0 s
  | .messageForward a0 => Sys2Proof.Machine.execMessageForward a0 s
  | .linkBeatWrite a0 a1 => Sys2Proof.Machine.execLinkBeatWrite a0 a1 s
  | .probeReply a0 => Sys2Proof.Machine.execProbeReply a0 s
  | .linkLoopRun a0 a1 a2 => Sys2Proof.Machine.execLinkLoopRun a0 a1 a2 s
  | .vportLoopRun a0 a1 a2 => Sys2Proof.Machine.execVportLoopRun a0 a1 a2 s
  | .loopbackRunDone a0 a1 => Sys2Proof.Machine.execLoopbackRunDone a0 a1 s
  | .monitorState => Sys2Proof.Machine.execMonitorState s
  | .monitorLog a0 a1 => Sys2Proof.Machine.execMonitorLog a0 a1 s
  | .monitorBoot a0 => Sys2Proof.Machine.execMonitorBoot a0 s
  | .monitorBaud a0 => Sys2Proof.Machine.execMonitorBaud a0 s
  | .baudSwitch => Sys2Proof.Machine.execBaudSwitch s
  | .monitorUnlock => Sys2Proof.Machine.execMonitorUnlock s
  | .monitorUnlockSignature a0 => Sys2Proof.Machine.execMonitorUnlockSignature a0 s
  | .monitorLock => Sys2Proof.Machine.execMonitorLock s
  | .monitorPeek a0 a1 => Sys2Proof.Machine.execMonitorPeek a0 a1 s
  | .monitorPoke a0 a1 => Sys2Proof.Machine.execMonitorPoke a0 a1 s
  | .monitorSync a0 a1 => Sys2Proof.Machine.execMonitorSync a0 a1 s
  | .monitorSelftest a0 a1 a2 => Sys2Proof.Machine.execMonitorSelftest a0 a1 a2 s
  | .monitorLineError a0 => Sys2Proof.Machine.execMonitorLineError a0 s
  | .extest a0 a1 => Sys2Proof.Machine.execExtest a0 a1 s
  | .samplePreload a0 a1 => Sys2Proof.Machine.execSamplePreload a0 a1 s
  | .idcode => Sys2Proof.Machine.execIdcode s
  | .highz => Sys2Proof.Machine.execHighz s
  | .clamp => Sys2Proof.Machine.execClamp s
  | .bypass a0 => Sys2Proof.Machine.execBypass a0 s
  | .dbgAccess a0 => Sys2Proof.Machine.execDbgAccess a0 s
  | .refclkReturn => Sys2Proof.Machine.execRefclkReturn s
  | .sbFrameDiscard a0 => Sys2Proof.Machine.execSbFrameDiscard a0 s
  | .conversionDone a0 => Sys2Proof.Machine.execConversionDone a0 s
  | .restartArrival a0 => Sys2Proof.Machine.execRestartArrival a0 s
  | .tapReset => Sys2Proof.Machine.execTapReset s

end Sys2Proof.Machine
end

