-- ==== Sys2Proof/Machine/Wire.lean ====
section
/-! DEFINITION. What the edges put on the wire (R379, R380, R382 to R384, R388, R389), and the tick of the tile when no command waits. -/

namespace Sys2Proof.Machine

/-! ## The next message of an edge (R388, R389) -/

/-- The sender holds credit for a message; descriptors come before any credit. -/
def EdgeSt.covers (x : EdgeSt) (m : GMsg) : Bool := m.ty == 9 || decide (msgUnits m ≤ Store.get 0 x.credit m.vch.val)

/-- The next message: round-robin among the channels whose first message has credit, starting after the channel served last. -/
def EdgeSt.pick (x : EdgeSt) : Option GMsg :=
  ((List.range 16).map fun k => (x.vcServed + 1 + k) % 16).findSome? fun v =>
    (x.out.find? fun m => m.vch.val == v).filter x.covers

/-- The bytes of a message: its header unit and its data units (R385). -/
def wireBytes (m : GMsg) : List Byte :=
  let n := (m.data.length + 15) / 16
  leBytes 16 (m.vch.val + m.ty.val * 2 ^ 4 + n % 512 * 2 ^ 8 + m.dst.toNat * 2 ^ 32 + m.aux.toNat * 2 ^ 64)
    ++ m.data ++ List.replicate (16 * n - m.data.length) 0

/-- A message leaves its queue and takes its credit; its units join those that the next flits carry. -/
def EdgeSt.load (x : EdgeSt) (m : GMsg) : EdgeSt :=
  { x with
    out := x.out.erase m, routed := x.routed.eraseP fun r => r.1 == m, vcServed := m.vch.val, txBuf := x.txBuf ++ wireBytes m
    credit := if m.ty = 9 then x.credit else Store.upd 0 x.credit m.vch.val (· - msgUnits m) }

/-- Messages until a flit's body is full. The number bounds them. -/
def EdgeSt.fill : Nat → EdgeSt → EdgeSt
  | 0, x => x
  | n + 1, x =>
    if 240 ≤ x.txBuf.length then x
    else
      match x.pick with
      | some m => EdgeSt.fill n (x.load m)
      | none => x

/-! ## Flits -/

/-- The first two channels with units to return, as CREDIT and CREDIT2 (R379, R388). -/
def EdgeSt.returns (x : EdgeSt) : List (Nat × Nat) := ((x.owed.filter fun p => p.2 != 0).take 2).map fun p => (p.1, min 4095 p.2)

/-- The symbol of the next flit: the second copy of a mark that this flit carries, or the first symbol that waits (R383, R384). -/
def EdgeSt.symbol (x : EdgeSt) : Word :=
  match x.echo.find? fun p => p.1 == x.txSeq with
  | some p => p.2
  | none => x.lsym.headD 0

/-- The edge has something to put on the wire. -/
def EdgeSt.due (x : EdgeSt) : Bool :=
  !x.txBuf.isEmpty || x.pick.isSome || !x.lsym.isEmpty || !x.echo.isEmpty || !x.returns.isEmpty || x.ackDue || x.nak

/-- One fresh flit, of an edge with `lanes` active lanes: body, symbol, returns of credit, and a place in the replay buffer (R382). A mark's
second copy goes half the lanes later (R384). -/
def EdgeSt.flit (lanes : Nat) (x : EdgeSt) : EdgeSt :=
  let y := EdgeSt.fill 15 x
  let ret := y.returns
  let units := y.txBuf.take 240
  let sym := y.symbol
  let echoed := y.echo.any fun p => p.1 == y.txSeq
  let t : TxFlit := { seq := y.txSeq, data := !units.isEmpty || !ret.isEmpty, body := units ++ List.replicate (240 - units.length) 0
                      credit := (ret.zipIdx.map fun p => (p.1.1 + p.1.2 * 16) * 65536 ^ p.2).foldl (· + ·) 0 }
  let mark := !echoed && sym.toNat % 4 == 1
  { y with
    txSeq := (y.txSeq + 1) % 4096, txBuf := y.txBuf.drop 240, replay := y.replay ++ [t], wire := y.wire ++ [flitBytes t y.ack y.nak sym]
    lsym := if echoed then y.lsym else y.lsym.drop 1
    echo := y.echo.filter (fun p => p.1 != y.txSeq) ++ (if mark then [((y.txSeq + lanes / 2) % 4096, sym)] else [])
    owed := ret.foldl (fun m p => Store.upd 0 m p.1 (· - p.2)) y.owed
    given := ret.foldl (fun m p => Store.upd 0 m p.1 (· + p.2)) y.given
    ackDue := false, nak := false }

/-- An edge in service, or in the descriptor exchange of its training, sends one flit where something is due and the replay buffer has
room. One that leaves service sends no more (R402). -/
def State.edgeFlit (s : State) (e : Nat) : State :=
  let x := s.edge e
  let on := s.edgeUp e || (s.fld (Reg.LINK_STATUS_STATE e) == 1 && decide (7 ≤ x.train.step))
  if on && x.due && !x.leaving && decide (x.replay.length < 1024) then
    let s1 := s.plansDue e x.txSeq true
    s1.modEdge e (EdgeSt.flit (s1.fld (Reg.LINK_STATUS_LANES e)))
  else s

/-! ## When no command waits -/

/-- One tick (log entry 1): the clock counts, and every edge sends what is due. -/
def State.idleTick (s : State) : State :=
  let s1 := s.clockTick
  if s.awake && s.clk.refclk && !s.clk.stopped then (List.range 4).foldl (fun s e => s.edgeFlit e) s1 else s1

end Sys2Proof.Machine
end

