-- ==== Sys2Proof/Safety.lean ====
section
/-! DEFINITION. What counts as a sound state of the tile, and the terms that statements use: what a command answers, what it leaves
alone, when a frame, a register access or a host command takes effect. -/

namespace Sys2Proof.Machine

/-- Every listed register word differs from its reset value, and offsets rise: equal register states are equal lists. -/
abbrev State.regsWf (s : State) : Prop :=
  s.regs.Pairwise (fun a b => a.1 < b.1) ∧ ∀ p ∈ s.regs, p.2 ≠ resetWord s.dev p.1

/-- Package memory is in canonical form. -/
abbrev State.memOk (s : State) : Prop := memWf s.pkgMem = true

/-- Every slice is in canonical form. -/
abbrev State.slicesOk (s : State) : Prop := ∀ p ∈ s.clusters, memWf p.2.slice = true

/-- A command answers a next state that has a property. -/
def Answers (i : Instr) (s : State) (P : State → Prop) : Prop := ∃ t, exec i s = .next t ∧ P t

/-! ## Frames -/

/-- Every byte of package memory reads as before, and the same lines are poisoned. -/
def State.sameMem (s t : State) : Prop := (∀ a, memGet t.pkgMem a = memGet s.pkgMem a) ∧ t.poison = s.poison

/-- Every byte of every slice reads as before. -/
def State.sameSlices (s t : State) : Prop := ∀ site a, memGet (t.cl site).slice a = memGet (s.cl site).slice a

/-- Every control-space word reads as before, but for the offsets that a rule names. -/
def State.sameRegs (s t : State) (p : Nat → Prop) : Prop := ∀ o, ¬ p o → t.rd o = s.rd o

/-- Nothing but one task slot of a cluster's slots changed; the other clusters, package memory and the tile's own units are as before. -/
def State.onlySlot (s t : State) (site n : Nat) : Prop :=
  (∀ m, m ≠ n → t.slot site m = s.slot site m) ∧ (∀ k, k ≠ site → t.cl k = s.cl k) ∧ s.sameMem t ∧ t.tile = s.tile

/-- The clusters other than one are as before. -/
def State.otherClusters (s t : State) (site : Nat) : Prop := ∀ k, k ≠ site → t.cl k = s.cl k

/-! ## When a command takes effect -/

/-- The sideband responder hears a frame that is meant for this tile (R405, R408, R411): it has power and `SB_CLK`, and the frame is a
broadcast or names the address held. -/
abbrev State.hears (s : State) (f : Frame) : Prop :=
  s.sbOn = true ∧ (f.dst = 0xFF ∨ (s.sbHeld = true ∧ f.dst.toNat = s.fld Reg.SB_ADDR_ADDR))

/-- A write reaches the control space and no rule refuses it (R11, R35, R304). -/
abbrev State.takesWrite (s : State) (q : Requester) (o v : Nat) : Prop :=
  s.portOpen q = true ∧ o % 4 = 0 ∧ (s.writeRefusal o v).1 = stOk

/-- A slot runs, and its pc holds this 32-bit word (R45, R65). -/
abbrev State.atWord (s : State) (site n w : Nat) : Prop :=
  s.runs site n = true ∧ (s.slot site n).fetch = some (w, 4)

/-- A slot runs, and its next instruction is this standard word of `len` bytes: the word itself, or a compressed instruction that stands
for it (R45, R53). -/
abbrev State.fetches (s : State) (site n w len : Nat) : Prop :=
  s.runs site n = true ∧ ((len = 4 ∧ (s.slot site n).fetch = some (w, 4))
    ∨ (len = 2 ∧ ∃ c, (s.slot site n).fetch = some (c, 2) ∧ expandC c = some w))

/-- A cluster that reads without error: no word holds one, and every bank is on (R16, R214, R333). -/
abbrev State.clean (s : State) (site : Nat) : Prop :=
  (s.cl site).ecc = [] ∧ (s.cl site).parity = [] ∧ ∀ b, b < bankCount site → s.fld (Reg.BANK_STATE_POWER site b) = 0

/-- A link slot of the beat starts that has not started (R59, R60). -/
abbrev State.slotBegins (s : State) (site : Nat) (j : Fin 128) : Prop :=
  s.inBeat = true ∧ s.live site = true ∧ j.val < 2 ^ (s.fld Reg.BEAT_CFG_K - 9)
    ∧ ((s.cl site).slotAt.1 ≠ s.beatLow ∨ (s.cl site).slotAt.2 ≤ j.val)

/-- Landing slots that a cluster's copy of a neighbour's states shows as not free when link slot `j` starts (R193): the copy kept over the
mark for slot 0, and one refreshed at the end of the slot before for every other. -/
def State.copyAt (s : State) (site d j : Nat) : List Nat :=
  Store.get [] ((if j = 0 then s else s.refreshCopies site).cl site).copies d

/-- The word is a Barza opcode: major opcode and funct3 (R65). -/
abbrev opcodeIs (w major f3 : Nat) : Prop := w % 128 = major ∧ w / 2 ^ 12 % 8 = f3

/-- Fields of an R-type word (R65). -/
def wRd (w : Nat) : Nat := w / 2 ^ 7 % 32
def wRs1 (w : Nat) : Nat := w / 2 ^ 15 % 32
def wRs2 (w : Nat) : Nat := w / 2 ^ 20 % 32
def wF7 (w : Nat) : Nat := w / 2 ^ 25 % 128

/-- The register a slot's word names as rd holds a result, x0 reads zero, and the other registers keep their values (R45). -/
def State.result (s t : State) (site n w : Nat) (v : DWord) : Prop :=
  (t.slot site n).getX (wRd w) = (if wRd w = 0 then 0 else v) ∧ (t.slot site n).getX 0 = 0
    ∧ (∀ r, r ≠ wRd w → (t.slot site n).getX r = (s.slot site n).getX r) ∧ (t.slot site n).y = (s.slot site n).y

/-- A value of a register of the slot. -/
def State.x (s : State) (site n r : Nat) : DWord := (s.slot site n).getX r

/-- The slot has trapped (R54): FAULT with the cause, and class TRAP waits for its window. -/
def State.trapped (t : State) (site n cause : Nat) : Prop :=
  t.slotState site n = slFault ∧ t.fld (Reg.SLOT_STATUS_TRAP site n) = cause ∧ ∃ e ∈ t.tile.errs, e.cls = 0x06 ∧ e.site = some site

/-- The block in progress of a slot has been given up (R340): the bytes that it had written itself are taken back (R282), and every other byte of
every slice is as before. -/
def State.givenUp (s t : State) (site n : Nat) : Prop :=
  ∀ k a, memGet (t.cl k).slice a
    = memGet (if k = site then takeBack (s.cl site).slice (s.slot site n).blk.undo else (s.cl k).slice) a

/-- The slot has retired its 32-bit instruction (R45, R53): the next one is at pc + 4, and one more is counted. -/
def State.retired4 (s t : State) (site n : Nat) : Prop :=
  (t.slot site n).pc = ((s.slot site n).pc + 4) % 2 ^ 64 ∧ (t.slot site n).instret = (s.slot site n).instret + 1

/-- The slot has retired an instruction of `len` bytes (R45, R53). -/
def State.retired (s t : State) (site n len : Nat) : Prop :=
  (t.slot site n).pc = ((s.slot site n).pc + len) % 2 ^ 64 ∧ (t.slot site n).instret = (s.slot site n).instret + 1

/-- The bytes of a slice outside a range read as before. -/
def State.sameOutside (s t : State) (site a k : Nat) : Prop :=
  ∀ b, (b < a ∨ a + k ≤ b) → memGet (t.cl site).slice b = memGet (s.cl site).slice b

/-- No batch waits for room in an issue queue (R69). -/
abbrev State.noFullBatch (s : State) (site : Nat) : Prop := ∀ a, a < 4 → (s.arr site a).batch.length < 128

/-- An array has this operation at the head of its queue, and its test does not run (R51, R354). -/
abbrev State.atHead (s : State) (site a : Nat) (o : Op) : Prop :=
  (s.arr site a).queue.head? = some o ∧ s.fld (Reg.ARR_STATUS_STATE site a) ≠ 6

/-- An array has completed an operation: it is none of those in progress (R130). -/
def State.over (t : State) (site a : Nat) (o : Op) : Prop := ∀ q ∈ (t.arr site a).runs, q.op.id ≠ o.id

/-- A status record stands at a slice offset, and the other bytes of the slice read as before (R111). -/
def State.recordAt (s t : State) (site a : Nat) (r : Rec) : Prop :=
  leNat (t.sliceBytes site a 16) = r.pack % 2 ^ 128 ∧ s.sameOutside t site a 16

/-- The arrays' shares of one record (R111). -/
def shareSum (l : List (Nat × Rec)) : Rec := l.foldl (fun r p => r.merge p.2) {}

/-- The slot's instruction stalls (R51, R57): it stays where it is, and nothing but its own state changed. -/
def State.stalled (s t : State) (site n : Nat) : Prop :=
  t.slotState site n = (if (s.slot site n).late then slLate else slStall) ∧ (t.slot site n).pc = (s.slot site n).pc
    ∧ (t.slot site n).blk = (s.slot site n).blk ∧ s.onlySlot t site n ∧ s.sameRegs t (· = Reg.SLOT_STATUS site n) ∧ s.sameSlices t

/-- The amount that a subtracting wait takes from the pending delta, and from the committed value (R225). -/
def takenOf (d : Int) (thr : Nat) : Int × Nat := (min (thr : Int) (max d 0), thr - (min (thr : Int) (max d 0)).toNat)

/-- A subtracting wait on a cluster object has taken its threshold (R225): from the pending delta first, then from the committed value. -/
def State.took (s t : State) (site n o thr : Nat) : Prop :=
  let d := Store.get 0 (s.slot site n).blk.deltas o
  Store.get 0 (t.slot site n).blk.deltas o = d - (takenOf d thr).1
    ∧ t.fld (Reg.SYNC_VAL_VALUE site o) = s.fld (Reg.SYNC_VAL_VALUE site o) - (takenOf d thr).2
    ∧ Store.get 0 (t.slot site n).blk.taken o = Store.get 0 (s.slot site n).blk.taken o + (takenOf d thr).2

/-- A host command of an opcode has been fetched and is carried out now (R294, R314): a serial one at its turn, legal as it begins. -/
abbrev State.startsCmd (s : State) (i : FlightId) (op : Nat) (f : Flight) : Prop :=
  s.fw = true ∧ s.fetched? i op = some f ∧ (serialOp op = true → s.turnOf f = true ∧ (s.judge f).1 = stOk)

/-- A host command of one of these opcodes runs on. -/
abbrev State.runsCmd (s : State) (i : FlightId) (ops : List Nat) (f : Flight) : Prop :=
  s.fw = true ∧ s.running? i ops = some f

/-- The grants of a class that a data command still wants (R324). -/
def Flight.wants (f : Flight) : Nat × Nat := f.want.getD f.dataGrants

/-- A data command is served whole: outside RUNNING, or where the grants left cover what it still wants (R324). -/
abbrev State.dataServed (s : State) (f : Flight) : Prop :=
  s.ts ≠ tsRunning ∨ (s.dataTake 0 f.wants.1 = f.wants.1 ∧ s.dataTake 1 f.wants.2 = f.wants.2)

/-- The place of a queue's next reply (R298, R307). -/
def State.replyAt (s : State) (q : Nat) : Nat := s.cqBase q + 32 * s.fld (Reg.CQ_PTR_TAIL q)

/-- A command is no longer in flight. -/
def State.left (t : State) (f : Flight) : Prop := ∀ g ∈ t.flights, f.same g = false

/-- A command has completed (R294, R298): it is no longer in flight, and its 32 B reply stands at the completion-ring TAIL of before,
where that lies inside package memory. -/
def State.replied (s t : State) (f : Flight) (status reason detail : Nat) : Prop :=
  t.left f ∧
    (s.replyAt f.queue + 32 ≤ s.memSize →
      t.pkgRead (s.replyAt f.queue) 32 =
        leBytes 32 (replyBits f.tag status reason f.seq f.queue f.head f.jobId detail (s.qst f.queue).phase))

/-- A mark is armed in a tile that takes part in the beat, with no release, repeat, bucket or barrier node waiting for it, and with no start
or resumption of the job. -/
abbrev State.quietMark (s : State) (num st : Nat) : Prop :=
  s.beat.armed = some (num, st) ∧ s.marked = true ∧ s.beat.lost = false ∧ s.tile.rels = [] ∧ s.tile.nodes = [] ∧ s.tile.buckets = []
    ∧ s.tile.rep.named = none ∧ s.tile.rep.resume = false ∧ s.job.starting = false

/-- A command runs on: a later row ends it. -/
def State.runsOn (t : State) (f : Flight) : Prop := ({ f with phase := .running } : Flight) ∈ t.flights

/-! ## Terms of single statements -/

/-- The registers that a release from AON writes. -/
def releaseRegs (o : Nat) : Prop := o = 0x8 ∨ o = 0x10000 ∨ o = Reg.BOOT_STATUS

/-- The management cores while the boot ROM runs: core 0, in machine mode (R308, R426). -/
def firstCore : List (Bool × Priv) := [(true, .machine), (false, .machine), (false, .machine), (false, .machine)]

/-- The boot ROM is at a step, does not wait for its retry timer, and has not failed for good (R426). -/
abbrev State.romRuns (s : State) (n : Nat) : Prop :=
  s.alive = true ∧ s.ts = tsBootRom ∧ s.boot.retry = false ∧ s.bootStep = n ∧ (n = 1 → s.fld Reg.BOOT_STATUS_REASON ≠ 0x070C)

/-- `BOOT_PEER` holds an address (R424). -/
def State.peerHolds (s : State) (a : Nat) : Prop :=
  ∃ i, i < 32 ∧ s.flag (Reg.BOOT_PEER_VALID i) = true ∧ s.fld (Reg.BOOT_PEER_ADDR i) = a

/-- The sideband moves frames, the tile begins no claim and none waits for room in the queue, and this frame is the first to go (R407, R410,
R412). -/
abbrev State.sends (s : State) (f : TxFrame) : Prop :=
  s.sbOn = true ∧ (s.fld Reg.SB_ADDR_STATE ≠ 0 ∨ s.sb.cands = []) ∧ s.claimAgain = s ∧ firstFrame s.sb.txq = some f

/-- After a candidate failed, the claim of the next begins, or none is left (R412); a primary that loses 0x08 shows it (R36). -/
def State.claimFailed (t s : State) : Prop :=
  t.sb.window = false ∧ t.sb.cands = s.sb.cands.tail
    ∧ (match s.sb.cands with
      | [] => t.fld Reg.SB_ADDR_STATE = 3 ∧ t.fld Reg.SB_ADDR_ADDR = 0xFF
      | c :: _ => t.fld Reg.SB_ADDR_STATE = 1 ∧ t.fld Reg.SB_ADDR_ADDR = c % 256)
    ∧ (s.fld Reg.SB_ADDR_ADDR = 0x08 → s.flag Reg.TILE_ID_PRIMARY = true →
        t.flag Reg.SB_ADDR_PRIMARY_LOST = true ∧ t.flag Reg.BEAT_CFG_MASTER = false)

/-- Record of a tile in RST_LOG (R424, R441). -/
def rstHolds (t : State) (addr result : Nat) : Prop :=
  ∃ i, i < 8 ∧ t.fld (Reg.RST_LOG_ADDR i) = addr ∧ t.fld (Reg.RST_LOG_RESULT i) = result

/-- RST_LOG has an entry for the tile, or room for one. -/
abbrev rstRoom (s : State) (addr : Nat) : Prop := (∃ i, i < 8 ∧ s.fld (Reg.RST_LOG_ADDR i) = addr) ∨ s.rstCount < 8

/-- The phase in which the primary takes the next tile. -/
def phaseNext (left : List Nat) : RelPhase :=
  match left with
  | [] => .idle
  | a :: t => .health a t

/-- The 12-bit immediate of an I-type word as a register value. -/
def wImm (w : Nat) : DWord := BitVec.ofInt 64 (sext (w / 2 ^ 20) 12)

/-- Results of the OP instructions by funct3 and funct7 (RV64I and M). -/
def opTable : List (Nat × Nat × (DWord → DWord → DWord)) :=
  [(0, 0, fun (a b : BitVec 64) => a + b), (0, 0x20, fun (a b : BitVec 64) => a - b), (0, 1, fun (a b : BitVec 64) => a * b),
   (4, 0, fun (a b : BitVec 64) => a ^^^ b), (6, 0, fun (a b : BitVec 64) => a ||| b), (7, 0, fun (a b : BitVec 64) => a &&& b),
   (1, 0, fun (a b : BitVec 64) => a <<< (b.toNat % 64)), (5, 0, fun (a b : BitVec 64) => a >>> (b.toNat % 64)),
   (5, 0x20, fun (a b : BitVec 64) => a.sshiftRight (b.toNat % 64)),
   (3, 0, fun (a b : BitVec 64) => if a.toNat < b.toNat then 1 else 0), (2, 0, fun (a b : BitVec 64) => if a.toInt < b.toInt then 1 else 0),
   (1, 1, fun (a b : BitVec 64) => BitVec.ofInt 64 (a.toInt * b.toInt / 2 ^ 64)),
   (2, 1, fun (a b : BitVec 64) => BitVec.ofInt 64 (a.toInt * b.toNat / 2 ^ 64)),
   (3, 1, fun (a b : BitVec 64) => BitVec.ofNat 64 (a.toNat * b.toNat / 2 ^ 64)),
   (4, 1, fun (a b : BitVec 64) => if b = 0 then BitVec.allOnes 64 else a.sdiv b),
   (5, 1, fun (a b : BitVec 64) => if b = 0 then BitVec.allOnes 64 else BitVec.ofNat 64 (a.toNat / b.toNat)),
   (6, 1, fun (a b : BitVec 64) => if b = 0 then a else a.srem b),
   (7, 1, fun (a b : BitVec 64) => if b = 0 then a else BitVec.ofNat 64 (a.toNat % b.toNat))]

/-- Results of the OP-32 instructions by funct3 and funct7, on the low 32 bits. -/
def op32Table : List (Nat × Nat × (Word → Word → Word)) :=
  [(0, 0, fun (a b : BitVec 32) => a + b), (0, 0x20, fun (a b : BitVec 32) => a - b), (0, 1, fun (a b : BitVec 32) => a * b),
   (1, 0, fun (a b : BitVec 32) => a <<< (b.toNat % 32)), (5, 0, fun (a b : BitVec 32) => a >>> (b.toNat % 32)),
   (5, 0x20, fun (a b : BitVec 32) => a.sshiftRight (b.toNat % 32)),
   (4, 1, fun (a b : BitVec 32) => if b = 0 then BitVec.allOnes 32 else a.sdiv b),
   (5, 1, fun (a b : BitVec 32) => if b = 0 then BitVec.allOnes 32 else BitVec.ofNat 32 (a.toNat / b.toNat)),
   (6, 1, fun (a b : BitVec 32) => if b = 0 then a else a.srem b),
   (7, 1, fun (a b : BitVec 32) => if b = 0 then a else BitVec.ofNat 32 (a.toNat % b.toNat))]

/-- Results of the OP-IMM instructions that are no shifts, by funct3. -/
def immTable : List (Nat × (DWord → DWord → DWord)) :=
  [(0, fun (a b : BitVec 64) => a + b), (2, fun (a b : BitVec 64) => if a.toInt < b.toInt then 1 else 0),
   (3, fun (a b : BitVec 64) => if a.toNat < b.toNat then 1 else 0), (4, fun (a b : BitVec 64) => a ^^^ b),
   (6, fun (a b : BitVec 64) => a ||| b), (7, fun (a b : BitVec 64) => a &&& b)]

/-- Shifts by an immediate: funct3 and the bits above the shift amount. -/
def shTable : List (Nat × Nat × (DWord → Nat → DWord)) :=
  [(1, 0, fun (a : BitVec 64) k => a <<< k), (5, 0, fun (a : BitVec 64) k => a >>> k), (5, 0x10, fun (a : BitVec 64) k => a.sshiftRight k)]

/-- Shifts of the low 32 bits by an immediate: funct3 and funct7. -/
def sh32Table : List (Nat × Nat × (Word → Nat → Word)) :=
  [(1, 0, fun (a : BitVec 32) k => a <<< k), (5, 0, fun (a : BitVec 32) k => a >>> k), (5, 0x20, fun (a : BitVec 32) k => a.sshiftRight k)]

/-- Branch conditions by funct3. -/
def brTable : List (Nat × (DWord → DWord → Bool)) :=
  [(0, fun (a b : BitVec 64) => a == b), (1, fun (a b : BitVec 64) => a != b), (4, fun (a b : BitVec 64) => decide (a.toInt < b.toInt)),
   (5, fun (a b : BitVec 64) => decide (b.toInt ≤ a.toInt)), (6, fun (a b : BitVec 64) => decide (a.toNat < b.toNat)),
   (7, fun (a b : BitVec 64) => decide (b.toNat ≤ a.toNat))]

/-- Values that the AMOs store, by funct5. -/
def amoTable : List (Nat × (DWord → DWord → DWord)) :=
  [(0x01, fun (_ b : BitVec 64) => b), (0x00, fun (a b : BitVec 64) => a + b), (0x04, fun (a b : BitVec 64) => a ^^^ b),
   (0x0C, fun (a b : BitVec 64) => a &&& b), (0x08, fun (a b : BitVec 64) => a ||| b),
   (0x10, fun (a b : BitVec 64) => if a.toInt < b.toInt then a else b), (0x14, fun (a b : BitVec 64) => if a.toInt < b.toInt then b else a),
   (0x18, fun (a b : BitVec 64) => if a.toNat < b.toNat then a else b), (0x1C, fun (a b : BitVec 64) => if a.toNat < b.toNat then b else a)]

/-- What a load of funct3 gives for the little-endian number read: signed for 0 to 3, unsigned for 4 to 6. -/
def loaded (f3 v : Nat) : DWord := if f3 < 4 then BitVec.ofInt 64 (sext v (8 * 2 ^ f3)) else BitVec.ofNat 64 v

/-- A reduction message of a kind that its node takes: firmware runs, the router adder takes operations, the message is the next one of
its channel, and it is not stale (R258, R337). -/
abbrev State.redTakes (s : State) (i : RedIn) (m : GMsg) (kind : Nat) (s1 : State) : Prop :=
  s.fw = true ∧ m.ty = 8 ∧ tagKind m = kind ∧ s.adderBusy = false ∧ s.redTake i m = some s1 ∧ s.redStale m = false

/-- The RESIDUE of a reduction message is that of its words (R257). -/
abbrev residueOk (m : GMsg) : Prop := residue (payload m) = bits m.aux.toNat 0 8

/-- An edge carries messages of a channel: its partner, where it has one, has that channel (R394). -/
abbrev State.takesChannel (s : State) (e v : Nat) : Prop := (s.edge e).peer = false ∨ v < s.peerVchs e

/-- Words that an arrival leaving an edge's ingress burst queue shows: USED of a channel (R404). -/
def usedWord (o : Nat) : Prop := ∃ e v, o = Reg.LINK_VCQ e v

/-- The message that a doorbell command names does not wait in the tile: it is delivered with the command (R288). -/
abbrev State.bellAtOnce (s : State) (v : DWord) : Prop :=
  s.ctlWaits (fun m => cmSub m == 1 && leNat (m.data.take 8) == v.toNat) = none

/-- The ready report, or the beat master's answer, that a READY_REPORT takes (R319). -/
def State.reportWaits (s : State) (tile : Fin 8) (tiles : Byte) : Option GMsg :=
  s.ctlWaits fun m => cmSub m == cmReady && cmFrom m % 8 == tile.val && cmVal m == tiles.toNat

/-- The beat master's word that the reports disagree (R319). -/
def State.mismatchWaits (s : State) : Option GMsg := s.ctlWaits fun m => cmSub m == cmMismatch

/-- The message is not behind another of its channel on this edge (R389). -/
abbrev State.nextOn (s : State) (e : Nat) (m : GMsg) : Prop :=
  (s.edge e).ingress.contains m = true → ((s.edge e).ingress.find? fun x => x.vch == m.vch) = some m

/-- The packet at a queue's HEAD, read without poison: its queue is the next in turn (R291, R292, R295, R296). -/
abbrev State.packetAt (s : State) (q w : Nat) : Prop :=
  s.fw = true ∧ s.sleep = 0 ∧ s.nextQueue = some q ∧ s.pkgBad (s.sqBase q + 64 * s.fld (Reg.SQ_PTR_HEAD q)) 64 = false
    ∧ w = leNat (s.pkgRead (s.sqBase q + 64 * s.fld (Reg.SQ_PTR_HEAD q)) 64)

/-- Nothing but one edge's link state, and registers, changed: the clusters, the other edges and package memory are as before. -/
def State.onlyEdge (s t : State) (e : Nat) : Prop :=
  (∀ k, k ≠ e → t.edge k = s.edge k) ∧ t.clusters = s.clusters ∧ s.sameMem t ∧ t.inbox = s.inbox

/-- The one error of the tile waits for the test of array `a` of a matrix cluster that can still be swapped: it stopped a block, and
nothing else waits for the test. -/
abbrev State.failsArray (s : State) (a : Fin 4) (e : PErr) (c : Site) : Prop :=
  s.awake = true ∧ s.recovers = true ∧ s.flights = [] ∧ s.mon.test = none ∧ s.mon.input = [] ∧ s.tile.errs = [e]
    ∧ e.unit = .unit c (Fin.ofNat 16 (a + 1)) ∧ e.ready = true ∧ e.site = some c.val ∧ e.level = 1 ∧ e.blk ≠ 0 ∧ e.cls ≠ 0x0C ∧ e.slot < 4
    ∧ s.slotState c e.slot = slFault ∧ s.clean c ∧ s.canSwap c = true

/-- The monitor answered with these lines, each ended by CR LF, and then its prompt (R436), or with nothing; and the tile's clusters and
package memory are as before. -/
def State.says (s t : State) (l : List String) : Prop :=
  t.mon.out = s.mon.out ++ (l.map fun x => x ++ "\r\n") ++ (if l = [] then [] else ["> "]) ∧ t.clusters = s.clusters ∧ s.sameMem t

/-- An offset that no register, no window and no debug view occupies (R9). -/
abbrev State.freeOffset (s : State) (o : Nat) : Prop := s.windowAt o = none ∧ s.debugWord o = none ∧ regInfo o = none

/-- A register that a read returns as it stands: aligned, present, one word, nothing cleared. -/
abbrev State.plainReg (s : State) (o : Nat) (r : RegInfo) : Prop :=
  o % 4 = 0 ∧ o < 0x600000 ∧ s.windowAt o = none ∧ s.debugWord o = none ∧ regInfo o = some r ∧ r.acc.rc = 0 ∧ r.pair = false
    ∧ s.absent o = false ∧ pstoreSite o = none

end Sys2Proof.Machine
end

