-- ==== Sys2Proof/Certificates/Slice0/Obligations.lean ====
section
/-! DEFINITION. The statements for the provers. -/

open Sys2Proof Sys2Proof.Machine

/-! ## Steps and reset -/

/-- A command at the front of the queue is carried out with the queue's rest. -/
def Obligations.StepRunsFrontCommand : Prop :=
  ∀ (s : State) (c : Instr) (rest : List Instr), s.pending = c :: rest → step s = exec c { s with pending := rest }

/-- With no command waiting, a step is one cycle of REFCLK: `TIME_NOW` counts 10 ns and saturates, and in OFF nothing changes (R6, R373).
That a tick is what a step does on an empty queue is the model's choice (log entry 1). -/
def Obligations.IdleStepCountsTime : Prop :=
  (∀ s : State, s.pending = [] → s.ts = tsOff → step s = .next s) ∧
  ∀ s : State, s.pending = [] → s.ts ≠ tsOff → s.clk.refclk = true →
    ∃ t, step s = .next t ∧ t.rd64 Reg.TIME_NOW = min (2 ^ 64 - 1) (s.rd64 Reg.TIME_NOW + 10) ∧ t.pending = [] ∧ t.ts = s.ts ∧ s.sameMem t
      ∧ s.sameSlices t

/-- What reset leaves where the spec gives a value: AON, the part's identity, no queue enabled, no job, `BEAT_CFG` and the limits at
their reset values. -/
def Obligations.ResetHoldsSpecValues : Prop :=
  State.reset.ts = tsAon ∧ State.reset.fld Reg.TILE_ID_PART = 0x160 ∧ State.reset.fld Reg.BEAT_CFG_K = 12
    ∧ State.reset.flag Reg.TILE_CTL_JOB_EN = false ∧ State.reset.fld Reg.PWR_CAP_CAP = 1500
    ∧ State.reset.fld Reg.ERR_CFG_REPEAT_MAX = 3 ∧ State.reset.fld Reg.ERR_CFG_CE_LIMIT = 16
    ∧ State.reset.fld Reg.SB_ADDR_ADDR = 0xFF ∧ State.reset.rd Reg.LINK_ROUTE = 0xFFFFFFFF#32
    ∧ (∀ q, q < 8192 → State.reset.fld (Reg.QUEUE_STATE_STATE q) = 0) ∧ State.reset.flights = [] ∧ State.reset.pending = []

/-- The reset state meets the invariants that every step keeps: package memory, the control space and every slice in canonical form. -/
def Obligations.ResetMeetsInvariants : Prop := State.reset.memOk ∧ State.reset.regsWf ∧ State.reset.slicesOk

/-! ## Supplies, release and boot -/

/-- POR samples the straps, and no other command changes them or the fuses (R419, R420). POR, OFF, and the loss and return of REFCLK
(R13, R310, R373, R452). That package memory stays through POR and OFF is the model's choice (log entry 3). -/
def Obligations.SuppliesAndClocks : Prop :=
  (∀ (s : State) (st : Straps), Answers (.vddAonRise st) s fun t =>
    t.ts = tsAon ∧ t.regs = [] ∧ t.dev.primarySel = st.primarySel ∧ t.dev.tileSel = st.tileSel ∧ t.dev.bootEdge = st.bootEdge
      ∧ t.dev.testMode = st.testMode ∧ t.dev.sbClk = st.sbClk ∧ t.dev.aonClk = st.aonClk ∧ t.dev.keyHash0 = s.dev.keyHash0 ∧ t.clusters = [] ∧ t.flights = [] ∧ s.sameMem t) ∧
  (∀ (c : Instr) (s t : State), (∀ st, c ≠ .vddAonRise st) → exec c s = .next t → t.dev = s.dev) ∧
  (∀ s : State, Answers .vddAonFall s fun t => t.ts = tsOff ∧ t.clusters = [] ∧ t.flights = [] ∧ t.dev = s.dev ∧ s.sameMem t) ∧
  (∀ s : State, Answers .refclkLoss s fun t => t.clk.refclk = false ∧ (s.clk.stopped = true → t.clk.stopped = true)
    ∧ (tsBootRom ≤ s.ts → s.sleep < 2 → t.clk.stopped = true) ∧ (s.ts = tsAon → s.clk.stopped = false → t.clk.stopped = false)
    ∧ t.regs = s.regs ∧ t.clusters = s.clusters ∧ s.sameMem t) ∧
  (∀ s : State, Answers .refclkReturn s fun t => t.clk.refclk = true ∧ t.clk.stopped = s.clk.stopped
    ∧ t.rd64 Reg.TIME_NOW = s.rd64 Reg.TIME_NOW ∧ t.regs = s.regs ∧ t.clusters = s.clusters ∧ s.sameMem t)

/-- A release from AON enters BOOT_ROM at boot step 1, on management core 0: by the tile itself, once after POR (R422), or by
RESET_RELEASE (R423); without `AONCLK` the tile stays in AON (R2).
RESET_HOLD is a TILE reset in every state that hears it (R13, R423): the tile waits in AON with every word of TILE or JOB scope at its
reset value, but for MASTER where the claim of 0x08 failed (R36) and the status of a retired array (R151), and nothing in flight; slices,
package memory and the POR-scope identity stay. -/
def Obligations.ReleaseAndResetHold : Prop :=
  (∀ s : State, s.ts = tsAon → s.sb.released = false → s.dev.aonClk = true →
    (s.dev.testMode = true ∨ (s.leads = true ∧ s.sbHeld = true ∧ s.fld Reg.SB_ADDR_ADDR = 0x08 ∧ s.sb.held = false)) →
    Answers .selfRelease s fun t => t.ts = tsBootRom ∧ t.fld Reg.TILE_STATE_PREV = tsAon ∧ t.fld Reg.BOOT_STATUS_STEP = 1
      ∧ t.sb.released = true ∧ t.boot.flashOff = 0 ∧ (t.boot.mgmt.map fun c => (c.on, c.priv)) = firstCore
      ∧ s.sameRegs t releaseRegs ∧ s.sameMem t ∧ t.clusters = s.clusters) ∧
  (∀ s : State, s.dev.aonClk = false → Answers .selfRelease s fun t => t = s) ∧
  (∀ (s : State) (f : Frame), s.dev.aonClk = false → Answers (.resetRelease f) s fun t => t.ts = s.ts ∧ t.boot = s.boot) ∧
  (∀ (s : State) (f : Frame), s.ts = tsAon → s.hears f → f.payload = [] → (f.src = 0x00 ∨ (f.src = 0x08 ∧ s.leads = false)) →
    s.dev.aonClk = true → Answers (.resetRelease f) s fun t => t.ts = tsBootRom ∧ t.fld Reg.TILE_STATE_PREV = tsAon ∧ t.fld Reg.BOOT_STATUS_STEP = 1
      ∧ t.sb.released = true ∧ t.boot.flashOff = 0 ∧ (t.boot.mgmt.map fun c => (c.on, c.priv)) = firstCore ∧ s.sameMem t
      ∧ t.clusters = s.clusters) ∧
  (∀ (s : State) (f : Frame), s.hears f → f.payload = [] → resetSource f = true →
    Answers (.resetHold f) s fun t => t.ts = tsAon ∧ t.flights = [] ∧ t.checks = [] ∧ t.edges = [] ∧ t.job = {} ∧ t.clk.stopped = false
      ∧ (∀ o, (hasScope .tile o = true ∨ hasScope .job o = true) → o ≠ Reg.BEAT_CFG →
          (∀ (c : Site) (a : Fin 4), (s.fld (Reg.CL_RETIRED_UNITS c)).testBit (a + 1) = true → o ≠ Reg.ARR_STATUS c a) →
          t.rd o = resetWord s.dev o)
      ∧ (s.flag Reg.SB_ADDR_PRIMARY_LOST = false → t.rd Reg.BEAT_CFG = resetWord s.dev Reg.BEAT_CFG)
      ∧ (s.flag Reg.SB_ADDR_PRIMARY_LOST = true → t.flag Reg.BEAT_CFG_MASTER = false)
      ∧ t.dev = s.dev ∧ t.rd Reg.TILE_ID = s.rd Reg.TILE_ID ∧ s.sameMem t ∧ s.sameSlices t)

/-- Steps of the boot ROM (R426, R427, R455): step 1 checks the fuses and step 2 moves to point 0; step 3 records the ports found, and in
stand-alone test mode ends in MONITOR; step 4 ends with its edge enabled; step 5 reads the header, and step 7 the body, and a poisoned
line fails either; steps 6 and 8 check the key and the signature, a failure entering MONITOR; step 9 starts the management cores at
ENTRY in FW_READY. A step that failed at its retry timer runs again. What this says beyond the rules' words is the model's reading
(log entries 87, 91 and 93). -/
def Obligations.BootRomSteps : Prop :=
  (∀ (s : State) (b : BootIn), s.romRuns 1 → s.dev.fuseOk = true → (∀ m, s.pwr.move = some m → m.starter = none) →
    Answers (.bootRomStep b) s fun t => t.bootStep = 2 ∧ t.flag Reg.PWR_OP_BUSY = true ∧ t.fld Reg.PWR_OP_REQ = 0
      ∧ (t.pwr.move.map fun m => m.target) = some 0 ∧ s.sameMem t ∧ s.sameSlices t) ∧
  (∀ (s : State) (b : BootIn), s.romRuns 1 → s.dev.fuseOk = false →
    Answers (.bootRomStep b) s fun t => t.bootStep = 1 ∧ t.fld Reg.BOOT_STATUS_REASON = 0x070C ∧ t.ts = tsBootRom) ∧
  (∀ (s : State) (b : BootIn), s.romRuns 2 → b ≠ .fail → s.pwr.move = none →
    Answers (.bootRomStep b) s fun t => t.bootStep = 3 ∧ t.ts = tsBootRom ∧ s.sameMem t) ∧
  (∀ s : State, s.romRuns 2 →
    Answers (.bootRomStep .fail) s fun t => t.bootStep = 2 ∧ t.boot.retry = true ∧ t.fld Reg.BOOT_STATUS_REASON = 0x070B) ∧
  (∀ (s : State) (up : Byte) (single : List (BitVec 13)), s.romRuns 3 → s.dev.testMode = false →
    Answers (.bootRomStep (.ports up single)) s fun t => t.bootStep = (if up = 0 then 3 else 4) ∧ t.boot.retry = decide (up = 0)
      ∧ (up = 0 → t.fld Reg.BOOT_STATUS_REASON = 0x070D)
      ∧ (∀ p, p < 8 → t.fld (Reg.VPORT_STATUS_STATE p) = (up.getLsbD p).toNat
          ∧ t.fld (Reg.VPORT_STATUS_SINGLE p) = (single.getD p 0).toNat ∧ (up.getLsbD p = true → t.fld (Reg.VPORT_STATUS_REMAP p) = p)
          ∧ (up ≠ 0 → up.getLsbD (t.fld (Reg.VPORT_STATUS_REMAP p)) = true))
      ∧ t.ts = tsBootRom ∧ s.sameMem t) ∧
  (∀ (s : State) (good : Byte) (single : List (BitVec 13)), s.romRuns 3 → s.dev.testMode = true →
    Answers (.bootRomStep (.ports good single)) s fun t => t.ts = tsMonitor ∧ t.fld Reg.BOOT_STATUS_REASON = 0x070E
      ∧ (∀ p, p < 8 → t.flag (Reg.VPORT_LOOP_DONE p) = true ∧ (good.getLsbD p = true → t.fld (Reg.VPORT_LOOP_FAILED p) = 0))
      ∧ (∀ e, e < 4 → t.fld (Reg.LINK_STATUS_STATE e) = 5) ∧ s.sameMem t) ∧
  (∀ (s : State) (b : BootIn), s.romRuns 4 → s.flag (Reg.LINK_CTL_EN s.dev.bootEdge.toNat) = true →
    Answers (.bootRomStep b) s fun t => t.bootStep = 5 ∧ t.boot.header = [] ∧ t.boot.body = [] ∧ t.ts = tsBootRom ∧ s.sameMem t) ∧
  (∀ (s : State) (l : List Byte), s.romRuns 5 → 256 ≤ l.length → (∀ m, s.flashReply = some m → bits m.aux.toNat 48 16 = 0) →
    Answers (.bootRomStep (.data l)) s fun t => t.fld Reg.BOOT_STATUS_REASON
        = (if headerCheck (l.take 256) = 0 then s.fld Reg.BOOT_STATUS_REASON else headerCheck (l.take 256))
      ∧ (headerCheck (l.take 256) = 0 → t.bootStep = 6 ∧ t.boot.header = l.take 256 ∧ t.ts = tsBootRom)
      ∧ (headerCheck (l.take 256) ≠ 0 → t.ts = tsMonitor)) ∧
  (∀ (s : State) (b : BootIn), s.romRuns 6 → s.keyCheck s.boot.header = 0 →
    Answers (.bootRomStep b) s fun t => t.bootStep = 7 ∧ t.boot.header = s.boot.header ∧ t.ts = tsBootRom ∧ s.sameMem t) ∧
  (∀ (s : State) (b : BootIn), s.romRuns 6 → s.keyCheck s.boot.header ≠ 0 →
    Answers (.bootRomStep b) s fun t => t.ts = tsMonitor ∧ t.fld Reg.BOOT_STATUS_REASON = s.keyCheck s.boot.header
      ∧ t.boot.header = [] ∧ t.boot.body = []) ∧
  (∀ (s : State) (l : List Byte) (m : GMsg), s.romRuns 5 ∨ s.romRuns 7 → s.flashReply = some m → bits m.aux.toNat 48 16 ≠ 0 →
    Answers (.bootRomStep (.data l)) s fun t => t.ts = tsMonitor ∧ t.fld Reg.BOOT_STATUS_REASON = 0x070A) ∧
  (∀ (s : State) (l : List Byte), s.romRuns 7 → (∀ m, s.flashReply = some m → bits m.aux.toNat 48 16 = 0) →
    Answers (.bootRomStep (.data l)) s fun t => t.boot.body = (s.boot.body ++ l).take (hdr s.boot.header 16 4)
      ∧ t.bootStep = (if t.boot.body.length < hdr s.boot.header 16 4 then 7 else 8) ∧ t.ts = tsBootRom ∧ s.sameMem t) ∧
  (∀ (s : State) (b : BootIn), s.romRuns 8 →
    ecdsaVerify (beNat ((s.boot.header.drop 64).take 96)) (imageDigest s.boot.header s.boot.body)
      (beNat ((s.boot.header.drop 160).take 96)) = false →
    Answers (.bootRomStep b) s fun t => t.ts = tsMonitor ∧ t.fld Reg.BOOT_STATUS_REASON = 0x0709) ∧
  (∀ (s : State) (b : BootIn), s.romRuns 9 →
    Answers (.bootRomStep b) s fun t => t.ts = tsFwReady ∧ t.boot.running = true
      ∧ ∀ c ∈ t.boot.mgmt, c.on = true ∧ c.priv = .machine ∧ c.pc = BitVec.ofNat 64 (hdr s.boot.header 20 4)) ∧
  (∀ s : State, s.alive = true → s.ts = tsBootRom → s.boot.retry = true → (∀ m, s.pwr.move = some m → m.starter = none) →
    Answers .bootRetry s fun t => t.boot.retry = false ∧ t.bootStep = s.bootStep ∧ t.ts = tsBootRom ∧ s.sameMem t)

/-! ## The sideband -/

/-- A primary's firmware releases the other tiles (R424): it asks every drop for its capabilities, takes the tiles in ascending
order, releases each that waits in AON, and records what each reports or that it does not report. What this says beyond the
rules' words is the model's reading (log entries 15 and 17). -/
def Obligations.PrimaryReleasesTiles : Prop :=
  (∀ (s : State) (f : Frame) (left marked : List Nat), s.hears f → f.payload.length = 16 → s.fw = true →
    s.sb.phase = .asking f.src.toNat left marked →
    Answers (.capReply f) s fun t =>
      let m := if leNat (f.payload.take 2) = 0x1B5A ∧ f.payload.getD 2 0 = 0 ∧ leNat ((f.payload.drop 3).take 2) = 0x160
        then marked ++ [f.src.toNat] else marked
      t.sb.phase = (match left with
        | a :: r => .asking a r m
        | [] => phaseNext (m.mergeSort (· ≤ ·))) ∧ t.ts = s.ts ∧ s.sameMem t) ∧
  (∀ (s : State) (f : Frame) (left : List Nat), s.hears f → f.payload.length = 8 → s.fw = true →
    s.sb.phase = .health f.src.toNat left → f.payload.getD 0 0 = 1 → s.sb.txq.length ≤ 1 → f.src ≠ 0 → rstRoom s f.src.toNat →
    Answers (.healthReply f) s fun t => t.sb.phase = .waiting f.src.toNat left ∧ rstHolds t f.src.toNat 0
      ∧ (∃ x ∈ t.sb.txq, x.ty = 0x11 ∧ x.dst = f.src) ∧ s.sameMem t) ∧
  (∀ (s : State) (f : Frame) (left : List Nat), s.hears f → f.payload.length = 8 → s.fw = true →
    s.sb.phase = .health f.src.toNat left → f.payload.getD 0 0 ≠ 1 → f.src ≠ 0 → rstRoom s f.src.toNat →
    Answers (.healthReply f) s fun t => t.sb.phase = phaseNext left ∧ rstHolds t f.src.toNat 5) ∧
  (∀ (s : State) (f : Frame) (left : List Nat), s.hears f → f.payload.length = 1 → s.fw = true → s.leads = true →
    s.sb.phase = .waiting f.src.toNat left → f.src ≠ 0 → rstRoom s f.src.toNat →
    Answers (.bootStatus f) s fun t => t.sb.phase = phaseNext left ∧ rstHolds t f.src.toNat (resultOf (leNat f.payload))) ∧
  (∀ (s : State) (a : Nat) (left : List Nat), s.fw = true → s.sb.phase = .waiting a left → a ≠ 0 → a < 256 → rstRoom s a →
    Answers .followerReportTimeout s fun t => t.sb.phase = phaseNext left ∧ rstHolds t a 4) ∧
  (∀ (s : State) (a : Nat) (left : List Nat), s.fw = true → s.sb.phase = .health a left →
    Answers .followerReportTimeout s fun t => t.sb.phase = phaseNext left ∧ ∀ i, i < 8 → t.fld (Reg.RST_LOG_ADDR i) = s.fld (Reg.RST_LOG_ADDR i)) ∧
  (∀ (s : State) (a : Nat) (left marked : List Nat), s.fw = true → s.sb.phase = .asking a left marked →
    Answers .followerReportTimeout s fun t => t.sb.phase = (match left with
      | b :: r => .asking b r marked
      | [] => phaseNext (marked.mergeSort (· ≤ ·))))

/-- Claims, frames sent, and frames that no rule uses (R407 to R410, R412 to R414, R424). A claimed address is recorded once, in order of
first arrival, where `BOOT_PEER` has room; another tile's claim of the address is defended where it is held, and fails the candidate in its
contest window. A window that ends holds the address. A send takes the first frame: an acknowledged one leaves the queue and opens a
claim's window; lost arbitration is counted, and fails a claim of the same address; an attempt without acknowledgement or with a bus
fault is repeated eight times. A frame with a bad CRC, of an unknown type or of a wrong length is counted. What this says beyond the
rules' words is the model's reading (log entries 15 and 16). -/
def Obligations.ClaimsAndFrames : Prop :=
  (∀ (s : State) (f : Frame), s.hears f → f.payload.length = 8 →
    Answers (.addrClaim f) s fun t => t.ts = s.ts ∧ s.sameMem t ∧ t.clusters = s.clusters
      ∧ (s.peerHolds f.src.toNat ∨ (∃ i, i < 32 ∧ s.flag (Reg.BOOT_PEER_VALID i) = false) → t.peerHolds f.src.toNat)
      ∧ (∀ i, i < 32 → s.flag (Reg.BOOT_PEER_VALID i) = true → t.flag (Reg.BOOT_PEER_VALID i) = true
          ∧ t.fld (Reg.BOOT_PEER_ADDR i) = s.fld (Reg.BOOT_PEER_ADDR i))) ∧
  (∀ (s : State) (f : Frame), s.hears f → f.payload.length = 8 → f.src.toNat = s.fld Reg.SB_ADDR_ADDR →
    leNat f.payload ≠ s.rd64 Reg.SB_UID → s.sbHeld = true → s.sb.txq.length ≤ 2 →
    Answers (.addrClaim f) s fun t => s.claimFrame false ∈ t.sb.txq ∧ t.sbHeld = true
      ∧ t.fld Reg.SB_CONTEST_COUNT = min (2 ^ 32 - 1) (s.fld Reg.SB_CONTEST_COUNT + 1)) ∧
  (∀ (s : State) (f : Frame), s.hears f → f.payload.length = 8 → f.src.toNat = s.fld Reg.SB_ADDR_ADDR →
    leNat f.payload ≠ s.rd64 Reg.SB_UID → s.sbHeld = false → s.sb.window = true →
    Answers (.addrClaim f) s fun t => t.claimFailed s) ∧
  (∀ s : State, s.sbOn = true → s.sb.window = true → Answers .sbClaimWindowEnd s fun t =>
    t.sbHeld = true ∧ t.fld Reg.SB_ADDR_ADDR = s.fld Reg.SB_ADDR_ADDR ∧ t.sb.window = false ∧ t.sb.txq = s.sb.txq
      ∧ s.sameRegs t (· = Reg.SB_ADDR) ∧ s.sameMem t ∧ t.clusters = s.clusters) ∧
  (∀ s : State, s.sbOn = false ∨ s.sb.window = false → Answers .sbClaimWindowEnd s fun t => t = s) ∧
  (∀ (s : State) (f : TxFrame), s.sends f →
    Answers (.sbFrameSend .acked) s fun t => t.sb.txq = s.sb.txq.erase f ∧ t.sb.sent = s.sb.sent ++ [{ f with src := s.frameSrc f }]
      ∧ t.sb.window = (s.sb.window || f.claim) ∧ t.regs = s.regs ∧ s.sameMem t ∧ t.clusters = s.clusters) ∧
  (∀ (s : State) (f : TxFrame) (o : SendEnd), s.sends f → o = .noAck ∨ o = .busFault → f.retries < 8 →
    Answers (.sbFrameSend o) s fun t => { f with retries := f.retries + 1 } ∈ t.sb.txq ∧ t.sb.txq.length = s.sb.txq.length
      ∧ t.fld Reg.SB_RETRY_COUNT = min (2 ^ 32 - 1) (s.fld Reg.SB_RETRY_COUNT + 1) ∧ s.sameRegs t (· = Reg.SB_RETRY)) ∧
  (∀ (s : State) (f : TxFrame) (o : SendEnd), s.sends f → o = .noAck ∨ o = .busFault → 8 ≤ f.retries →
    Answers (.sbFrameSend o) s fun t => t.fld Reg.SB_TX_FAIL_COUNT = min (2 ^ 32 - 1) (s.fld Reg.SB_TX_FAIL_COUNT + 1)
      ∧ (f.claim = false → t.sb.txq = s.sb.txq.erase f ∧ s.sameRegs t (· = Reg.SB_TX_FAIL)) ∧ (f.claim = true → t.claimFailed s)) ∧
  (∀ (s : State) (f : TxFrame) (same : Bool), s.sends f →
    Answers (.sbFrameSend (.arbLost same)) s fun t => t.fld Reg.SB_ARB_LOST_COUNT = min (2 ^ 32 - 1) (s.fld Reg.SB_ARB_LOST_COUNT + 1)
      ∧ (f.claim = false ∨ same = false → t.sb = s.sb ∧ s.sameRegs t (· = Reg.SB_ARB_LOST))
      ∧ (f.claim = true ∧ same = true → t.claimFailed s)) ∧
  (∀ (s : State) (c : Nat) (l : List Nat), s.sbOn = true → s.fld Reg.SB_ADDR_STATE = 0 → s.sb.cands = c :: l → s.sb.txq = [] →
    Answers (.sbFrameSend .acked) s fun t => t.fld Reg.SB_ADDR_STATE = 1 ∧ t.fld Reg.SB_ADDR_ADDR = c % 256 ∧ t.sb.cands = l
      ∧ t.sb.window = true ∧ t.sb.txq = [] ∧ t.sb.sent = s.sb.sent ++ [{ s.claimFrame true with src := BitVec.ofNat 8 c }] ∧ s.sameMem t) ∧
  (∀ (s : State) (o : SendEnd),
    s.sbOn = false ∨ (s.sb.txq = [] ∧ (s.fld Reg.SB_ADDR_STATE ≠ 0 ∨ s.sb.cands = []) ∧ s.claimAgain = s) →
    Answers (.sbFrameSend o) s fun t => t = s) ∧
  (∀ (s : State) (w : SbFault), s.sbOn = true → Answers (.sbFrameDiscard w) s fun t =>
    t.fld Reg.SB_BAD_COUNT = min (2 ^ 32 - 1) (s.fld Reg.SB_BAD_COUNT + 1) ∧ s.sameRegs t (· = Reg.SB_BAD) ∧ t.sb = s.sb ∧ s.sameMem t
      ∧ t.clusters = s.clusters) ∧
  (∀ (s : State) (ty : Byte) (f : Frame), s.hears f →
    Answers (.sbUnknownFrame ty f) s fun t =>
      t.fld Reg.SB_UNKNOWN_COUNT = (if sbTypes.contains (ty.toNat, f.payload.length) then s.fld Reg.SB_UNKNOWN_COUNT
          else min (2 ^ 32 - 1) (s.fld Reg.SB_UNKNOWN_COUNT + 1))
        ∧ t.fld Reg.SB_RX_OK_COUNT = min (2 ^ 32 - 1) (s.fld Reg.SB_RX_OK_COUNT + 1) ∧ t.ts = s.ts ∧ s.sameMem t ∧ t.clusters = s.clusters) ∧
  (∀ (s : State) (ty : Byte) (f : Frame), s.sbOn = true → f.dst ≠ 0xFF → (s.sbHeld = false ∨ f.dst.toNat ≠ s.fld Reg.SB_ADDR_ADDR) →
    Answers (.sbUnknownFrame ty f) s fun t => t.fld Reg.SB_UNKNOWN_COUNT = s.fld Reg.SB_UNKNOWN_COUNT
      ∧ t.fld Reg.SB_RX_OK_COUNT = s.fld Reg.SB_RX_OK_COUNT ∧ t.ts = s.ts ∧ s.sameMem t ∧ t.clusters = s.clusters) ∧
  (∀ (s : State) (ty : Byte) (f : Frame), s.sbOn = false → Answers (.sbUnknownFrame ty f) s fun t => t = s)

/-- Replies of the responder and the appointment of a beat master (R413, R416): with at most one frame waiting, the reply joins the
queue; an appointment is held until it expires, and while it is held a commit that names the same word sets MASTER and the package's beat
master (R36, R43); a commit that names another word is refused. -/
def Obligations.SidebandRepliesAndAppointment : Prop :=
  (∀ (s : State) (f : Frame), s.hears f → f.payload = [] → s.sb.txq.length ≤ 1 →
    Answers (.capQuery f) s fun t => s.capReplyFrame f.src ∈ t.sb.txq ∧ t.ts = s.ts ∧ s.sameMem t) ∧
  (∀ (s : State) (f : Frame), s.hears f → f.payload = [] → s.sb.txq.length ≤ 1 →
    Answers (.healthQuery f) s fun t => (∃ x ∈ t.sb.txq, x.ty = 0x42 ∧ x.dst = f.src ∧ x.payload.length = 8
      ∧ x.payload.take 2 = [BitVec.ofNat 8 s.ts, BitVec.ofNat 8 (s.fld Reg.TEMP_TJ_MAX)]) ∧ t.ts = s.ts ∧ s.sameMem t) ∧
  (∀ (s : State) (f : Frame), s.hears f → f.payload.length = 4 → s.outsideRun = true → s.sb.txq.length ≤ 1 →
    Answers (.beatAppoint f) s fun t => t.sb.appoint = some (BitVec.ofNat 32 (leNat f.payload))
      ∧ (∃ x ∈ t.sb.txq, x.ty = 0x21 ∧ x.payload = [0]) ∧ t.ts = s.ts ∧ s.sameMem t) ∧
  (∀ (s : State) (f : Frame), s.hears f → f.payload.length = 4 → s.outsideRun = false → s.sb.txq.length ≤ 1 →
    Answers (.beatAppoint f) s fun t => t.sb.appoint = s.sb.appoint ∧ (∃ x ∈ t.sb.txq, x.ty = 0x21 ∧ x.payload = [1])) ∧
  (∀ s : State, Answers .beatAppointExpiry s fun t => t.sb.appoint = none ∧ t.regs = s.regs ∧ t.sb.txq = s.sb.txq ∧ s.sameMem t
    ∧ t.clusters = s.clusters) ∧
  (∀ (s : State) (f : Frame), s.hears f → f.payload.length = 4 →
    (s.sb.appoint ≠ some (BitVec.ofNat 32 (leNat f.payload)) ∨ s.outsideRun = false) → s.sb.txq.length ≤ 1 →
    Answers (.beatCommit f) s fun t => t.sb.appoint = s.sb.appoint ∧ (∃ x ∈ t.sb.txq, x.ty = 0x21 ∧ x.payload = [1])
      ∧ t.flag Reg.BEAT_CFG_MASTER = s.flag Reg.BEAT_CFG_MASTER) ∧
  (∀ (s : State) (f : Frame), s.hears f → f.payload.length = 4 → s.sb.appoint = some (BitVec.ofNat 32 (leNat f.payload)) →
    s.outsideRun = true →
    Answers (.beatCommit f) s fun t => t.sb.appoint = s.sb.appoint ∧ t.flag Reg.BEAT_CFG_MASTER = s.namesMe (leNat f.payload)
      ∧ (s.namesMe (leNat f.payload) = true → t.fld Reg.BEAT_ALIGN_LOCAL_LAT = 0)
      ∧ (t.rd Reg.BAR_ROOT).toNat % 2 ^ 10 = 1 ∧ bits (t.rd Reg.BAR_ROOT).toNat 10 15 = bits (leNat f.payload) 10 15
      ∧ bits (t.rd Reg.BAR_ROOT).toNat 25 1 = 1 ∧ s.sameMem t)

/-- WAKE fires comparator 3 and leaves it armed, and a comparator whose condition sets in fires (R374, R414). What an onset is, and the
reading of comparator 1, are the model's reading (log entry 13). -/
def Obligations.WakeAndComparators : Prop :=
  (∀ (s : State) (f : Frame), s.hears f → f.payload = [] → s.flag (Reg.AON_CMP_EN 3) = true →
    Answers (.wake f) s fun t => t.flag (Reg.AON_CMP_FIRED 3) = true ∧ t.flag (Reg.AON_CMP_EN 3) = true ∧ t.ts = s.ts ∧ s.sameMem t) ∧
  (∀ (s : State) (n : Fin 4) (r : BitVec 10), s.ts ≠ tsOff → (n = 1 ∨ s.flag (Reg.AON_CMP_COND n) = false) →
    s.flag (Reg.AON_CMP_EN n) = true →
    (n = 1 ∧ r.toNat < s.rd64 (Reg.AON_CMP_VAL 1) % 2 ^ 10 ∨ n = 2 ∧ s.rd64 (Reg.AON_CMP_VAL 2) ≤ s.rd64 Reg.TIME_NOW
      ∨ n = 0 ∧ s.rd64 (Reg.AON_CMP_VAL 0) % 2 ^ 8 ≤ r.toNat % 2 ^ 8) →
    Answers (.comparatorFire n r) s fun t => t.flag (Reg.AON_CMP_FIRED n) = true ∧ t.flag (Reg.AON_CMP_COND n) = true ∧ t.ts = s.ts
      ∧ s.sameMem t)

/-- TIME_SET writes `TIME_NOW` in BOOT_ROM, MONITOR and FW_READY, and elsewhere only counts in `SB_UNKNOWN` (R373, R417). What the package
controller assigns is kept in `SB_ASSIGN` and used in FW_READY (R413, R429, R441). -/
def Obligations.PackageFramesSetTimeAndValues : Prop :=
  (∀ (s : State) (f : Frame), s.hears f → f.payload.length = 8 → (s.ts = tsBootRom ∨ s.ts = tsMonitor ∨ s.ts = tsFwReady) →
    Answers (.timeSet f) s fun t => t.rd64 Reg.TIME_NOW = leNat f.payload ∧ t.ts = s.ts ∧ s.sameMem t) ∧
  (∀ (s : State) (f : Frame), s.hears f → f.payload.length = 8 → s.ts ≠ tsBootRom → s.ts ≠ tsMonitor → s.ts ≠ tsFwReady →
    Answers (.timeSet f) s fun t => t.rd64 Reg.TIME_NOW = s.rd64 Reg.TIME_NOW
      ∧ t.fld Reg.SB_UNKNOWN_COUNT = min (2 ^ 32 - 1) (s.fld Reg.SB_UNKNOWN_COUNT + 1) ∧ t.ts = s.ts ∧ s.sameMem t) ∧
  (∀ (s : State) (f : Frame), s.hears f → f.payload.length = 2 →
    Answers (.pkgAssign f) s fun t => t.assign 0 12 = leNat f.payload % 2 ^ 12 ∧ t.assign 12 1 = 1
      ∧ (s.fwReady = true → t.fld Reg.PKG_ID_PKG = leNat f.payload % 2 ^ 12) ∧ t.ts = s.ts ∧ s.sameMem t) ∧
  (∀ (s : State) (f : Frame), s.hears f → f.payload.length = 15 →
    Answers (.queue0Cfg f) s fun t => t.assign 64 48 = leNat (f.payload.take 6) ∧ t.assign 128 48 = leNat ((f.payload.drop 6).take 6)
      ∧ t.assign 16 8 = leNat ((f.payload.drop 12).take 1) ∧ t.assign 32 16 = leNat (f.payload.drop 13) ∧ t.assign 13 1 = 1
      ∧ t.ts = s.ts ∧ s.sameMem t) ∧
  (∀ (s : State) (f : Frame), s.hears f → f.payload.length = 8 → s.configOk f.payload = true →
    Answers (.pkgConfig f) s fun t => t.assign 192 4 = (f.payload.getD 0 0).toNat % 16 ∧ t.assign 200 5 = (f.payload.getD 1 0).toNat % 32
      ∧ t.assign 208 6 = (f.payload.getD 2 0).toNat % 64 ∧ t.assign 242 1 = 1
      ∧ (s.fwReady = true → t.fld Reg.MEM_CFG_NSTACK = (f.payload.getD 1 0).toNat % 32
          ∧ t.fld Reg.MEM_CFG_STACK_LOG2 = (f.payload.getD 2 0).toNat % 64) ∧ t.ts = s.ts)

/-! ## Power and time -/

/-- A thermal trip and a trip of the regulators: TILE reset, the mesh without its rails, THERM_TRIP with its reason; TEMP still
reads (R375). What this says beyond the rules' words is the model's reading (log entry 59). -/
def Obligations.TripsResetTheTile : Prop :=
  (∀ (s : State) (r : Region) (temp : Byte), s.ts ≠ tsOff → 115 ≤ temp.toNat →
    Answers (.thermalTrip r temp) s fun t => t.ts = tsAon ∧ t.clusters = [] ∧ t.flights = [] ∧ t.flag Reg.PWR_STATUS_THERM_TRIP = true
      ∧ t.fld Reg.PWR_STATUS_REASON = 0x0506 ∧ t.fld Reg.TEMP_TJ_MAX = temp.toNat ∧ t.fld Reg.TEMP_REGION = r.val ∧ s.sameMem t) ∧
  (∀ (s : State) (w : Word) (crc : Byte), s.ts ≠ tsOff → regTakes (crc ++ w) 5 = true →
    Answers (.trip w crc) s fun t => t.ts = tsAon ∧ t.clusters = [] ∧ t.flights = [] ∧ t.flag Reg.PWR_STATUS_THERM_TRIP = true
      ∧ t.fld Reg.PWR_STATUS_REASON = 0x0506 ∧ t.fld Reg.TEMP_TJ_MAX = s.fld Reg.TEMP_TJ_MAX ∧ s.sameMem t)

/-- Moves of the operating point (R357 to R361): an accepted request starts one, which asks no rail for a voltage outside its
range; the last acknowledged rail ends it, a missing acknowledgement turns it back, and in the boot ROM fails its step; a frame
whose CRC fails, or of another type, changes nothing. Telemetry, the limiter, stretch requests and the droop detectors (R362 to
R367). What this says beyond the rules' words is the model's reading (log entries 11, 12, 19 and 90). -/
def Obligations.PowerIsLimited : Prop :=
  (∀ (s : State) (q : Requester) (v : Word), s.takesWrite q Reg.PWR_OP v.toNat → s.pwr.move = none →
    Answers (.pwrOpReq q v) s fun t => t.fld Reg.PWR_OP_REQ = v.toNat % 16 ∧ t.flag Reg.PWR_OP_BUSY = true
      ∧ (t.pwr.move.map fun m => (m.target, m.back)) = some (v.toNat % 16, false) ∧ t.fld Reg.PWR_OP_CUR = s.fld Reg.PWR_OP_CUR
      ∧ (t.pwr.move.map fun m => m.rails.all fun p => decide ((railRange p.1).1 ≤ p.2 ∧ p.2 ≤ (railRange p.1).2)) = some true
      ∧ s.sameRegs t (· = Reg.PWR_OP) ∧ s.sameMem t ∧ t.clusters = s.clusters) ∧
  (∀ (s : State) (w : Word) (crc : Byte) (m : Move) (v : Nat), s.powered = true → s.mon.input = [] → regTakes (crc ++ w) 2 = true →
    s.pwr.move = some m → m.rails = [(regRail (crc ++ w), v)] →
    Answers (.ackV w crc) s fun t => t.fld Reg.PWR_OP_CUR = m.target % 16 ∧ t.flag Reg.PWR_OP_BUSY = false ∧ t.pwr.move = none
      ∧ t.clusters = s.clusters) ∧
  (∀ (s : State) (w : Word) (crc : Byte) (m : Move) (v : Nat) (r : Nat × Nat) (l : List (Nat × Nat)), s.powered = true → s.mon.input = [] →
    regTakes (crc ++ w) 2 = true → s.pwr.move = some m → m.rails = (regRail (crc ++ w), v) :: r :: l →
    Answers (.ackV w crc) s fun t => t.pwr.move = some { m with rails := r :: l } ∧ t.regs = s.regs
      ∧ t.pwr.regTx = s.pwr.regTx ++ [regFrame 1 r.1 r.2] ∧ s.sameMem t ∧ t.clusters = s.clusters) ∧
  (∀ (s : State) (m : Move) (cur : Nat), s.powered = true → s.mon.input = [] → s.ts ≠ tsBootRom → s.pwr.move = some m → m.back = false →
    cur = s.fld Reg.PWR_OP_CUR →
    Answers .vreqNack s fun t => t.fld Reg.PWR_STATUS_REASON = 0x0502 ∧ t.fld Reg.PWR_OP_CUR = cur
      ∧ (s.backRails s.clockPoint cur ≠ [] →
        (t.pwr.move.map fun k => (k.target, k.back, k.rails)) = some (cur, true, s.backRails s.clockPoint cur)
          ∧ s.sameRegs t (· = Reg.PWR_STATUS))
      ∧ (s.backRails s.clockPoint cur = [] → t.pwr.move = none ∧ t.flag Reg.PWR_OP_BUSY = false)
      ∧ s.sameMem t ∧ t.clusters = s.clusters) ∧
  (∀ (s : State) (m : Move), s.powered = true → s.mon.input = [] → s.ts ≠ tsBootRom → s.pwr.move = some m → m.back = true →
    Answers .vreqNack s fun t => t.fld Reg.PWR_STATUS_REASON = 0x0502 ∧ t.fld Reg.PWR_OP_CUR = m.target % 16 ∧ t.flag Reg.PWR_OP_BUSY = false
      ∧ t.pwr.move = none ∧ t.clusters = s.clusters) ∧
  (∀ (s : State) (m : Move), s.alive = true → s.mon.input = [] → s.ts = tsBootRom → s.bootStep = 2 → s.boot.retry = false → s.pwr.move = some m →
    Answers .vreqNack s fun t => t.boot.retry = true ∧ t.fld Reg.BOOT_STATUS_REASON = 0x070B ∧ t.bootStep = 2 ∧ t.clusters = s.clusters) ∧
  (∀ (s : State) (head : Byte) (payload : BitVec 24) (crc : Byte) (r : Nat), s.alive = true →
    regTakes (crc ++ (payload ++ head)) 3 = true → r = bits head.toNat 4 3 → r < 6 →
    Answers (.telem head payload crc) s fun t => (t.rail r).mv = payload.toNat % 2 ^ 12 ∧ (t.rail r).current = payload.toNat / 2 ^ 12
      ∧ (t.rail r).fresh = true ∧ (∀ k, k ≠ r → t.rail k = s.rail k) ∧ t.regs = s.regs ∧ s.sameMem t ∧ t.clusters = s.clusters) ∧
  (∀ (s : State) (temp : Byte) (r : Region), s.fw = true → (∀ k, k < 6 → (s.rail k).fresh = true) →
    Answers (.limiterSample temp r) s fun t => t.pwr.samples = (s.power :: s.pwr.samples).take 100
      ∧ (∀ k, k < 6 → (t.rail k).fresh = false ∧ (t.rail k).missing = 0) ∧ t.fld Reg.TEMP_TJ_MAX = temp.toNat
      ∧ (above (latest (s.power :: s.pwr.samples) 5) 1800 = true → t.fld Reg.PWR_LIM_S_REQ = 15) ∧ s.sameMem t
      ∧ t.clusters = s.clusters) ∧
  (∀ (s : State) (e : Edge) (n : Fin 16), s.awake = true →
    ((s.fld Reg.LINK_BEAT_DOWN).testBit e = true →
      Answers (.stretchRequest e n) s fun t => (Store.get [] t.pwr.child e).head? = some (s.beatLow, s.clk.aclk, n.val)
        ∧ t.pwr.forwarded = t.stretchMax ∧ n.val ≤ t.stretchMax ∧ t.regs = s.regs ∧ s.sameMem t ∧ t.clusters = s.clusters)
    ∧ ((s.fld Reg.LINK_BEAT_DOWN).testBit e = false → exec (.stretchRequest e n) s = .next s)) ∧
  (∀ (s : State) (d : DroopRead), s.awake = true →
    ((s.droops 0 d.arr.toNat = true ∨ s.droops 1 d.log.toNat = true) →
      Answers (.droopTrip d) s fun t => (t.rd Reg.DROOP_TRIP).getLsbD d.region = true ∧ t.pwr.droop = true
        ∧ s.sameRegs t (· = Reg.DROOP_TRIP) ∧ s.sameMem t ∧ t.clusters = s.clusters)
    ∧ (s.droops 0 d.arr.toNat = false → s.droops 1 d.log.toNat = false → exec (.droopTrip d) s = .next s)) ∧
  (∀ s : State, s.awake = true →
    Answers .droopRecover s fun t => t.pwr.droop = false ∧ t.regs = s.regs ∧ s.sameMem t ∧ t.clusters = s.clusters) ∧
  (∀ (s : State) (w : Word) (crc : Byte), regTakes (crc ++ w) 2 = false → Answers (.ackV w crc) s fun t => t = s) ∧
  (∀ (s : State) (head : Byte) (payload : BitVec 24) (crc : Byte), regTakes (crc ++ (payload ++ head)) 3 = false →
    Answers (.telem head payload crc) s fun t => t = s) ∧
  (∀ (s : State) (w : Word) (crc : Byte), regTakes (crc ++ w) 5 = false → Answers (.trip w crc) s fun t => t = s)

/-- Regions and sleep (R371, R372): a region named in OFF goes down, one that has powered up is back; an accepted SLEEP_REQ
starts the entry, the entry ends asleep with the mesh dark, the wake ends awake. What this says beyond the rules' words is the
model's reading (log entries 14 and 58). -/
def Obligations.RegionsAndSleep : Prop :=
  (∀ (s : State) (q : Requester) (v : Word), s.takesWrite q Reg.PWR_REGION v.toNat →
    Answers (.pwrRegionWrite q v) s fun t => t.fld Reg.PWR_REGION_OFF = v.toNat % 256 ∧ (∀ r, r < 8 → v.getLsbD r = true → t.regionDown r = true)
      ∧ (∀ r, r < 8 → v.getLsbD r = false → t.regionDown r = s.regionDown r ∧ (s.regionDown r = true → r ∈ t.pwr.regionsUp)) ∧ s.sameMem t) ∧
  (∀ (s : State) (r : Region), s.alive = true → r.val ∈ s.pwr.regionsUp →
    Answers (.regionPowerUpDone r) s fun t => t.regionDown r = false ∧ r.val ∉ t.pwr.regionsUp ∧ s.sameMem t) ∧
  (∀ (s : State) (q : Requester) (v : Word), s.takesWrite q Reg.PWR_SLEEP v.toNat → v.getLsbD 0 = true → s.sleep = 0 →
    Answers (.pwrSleepReq q v) s fun t => t.sleep = 1 ∧ s.sameRegs t (· = Reg.PWR_SLEEP) ∧ t.clusters = s.clusters ∧ s.sameMem t) ∧
  (∀ s : State, s.alive = true → s.sleep = 1 → s.flights = [] → s.wakePending = none →
    Answers .sleepEntryDone s fun t => t.sleep = 2 ∧ t.clusters = [] ∧ t.ts = s.ts ∧ s.sameMem t) ∧
  (∀ (s : State) (n : Nat), s.alive = true → s.sleep = 1 → s.flights = [] → s.wakePending = some n →
    Answers .sleepEntryDone s fun t => t.sleep = 0 ∧ t.fld Reg.PWR_SLEEP_LAST = 2 ∧ t.clusters = s.clusters ∧ t.ts = s.ts ∧ s.sameMem t) ∧
  (∀ (s : State) (e : Edge), s.powered = true → s.sleep = 3 → s.pwr.move = none → s.pwr.restored = false → e.val ∈ s.sleptEdges →
    Answers .wakeDone s fun t => t.sleep = 3 ∧ t.fld (Reg.LINK_STATUS_STATE e) = 1 ∧ (t.edge e).train.step = 1 ∧ t.pwr.saved = [] ∧ s.sameMem t) ∧
  (∀ s : State, s.powered = true → s.sleep = 3 → s.pwr.move = none → s.sleptEdges = [] →
    (∀ e, e < 4 → s.fld (Reg.LINK_STATUS_STATE e) ≠ 1) → (s.pwr.restored = true → s.pwr.saved = []) →
    Answers .wakeDone s fun t => t.sleep = 0 ∧ t.fld Reg.PWR_SLEEP_LAST = 1 ∧ t.pwr.saved = [] ∧ s.sameMem t ∧ s.sameSlices t)

/-! ## The beat -/

/-- The beat master issues the mark of the next beat with its largest stretch request (R37, R364); the mark of the beat awaited,
in time, arms the local mark (R38); another number, or no mark in time, is a beat loss (R40); a loss not mended in time fails
the tile (R336). The local mark opens the beat that the armed mark names (R39, R336), with no repeat named and no bucket open at
this tile: the counter takes its number, the mark is spent. At it a waiting slot starts its block (R46), and a block not committed misses
its deadline in real-time mode (R56), but for a replay (R340), or enters LATE in throughput mode (R57). That a request counts in a mark from
256 cycles on is the model's reading (log entry 89); what else this says beyond the rules' words, too (log entries 35 and 36). -/
def Obligations.MarksKeepTheBeat : Prop :=
  (∀ s : State, s.marked = true → s.flag Reg.BEAT_CFG_MASTER = true → s.beat.armed = none → s.beat.lost = false →
    Answers .markIssue s fun t => t.beat.armed = some ((s.beatLow + 1) % 2 ^ 16, s.markStretch) ∧ t.beat.lost = false ∧ t.regs = s.regs
      ∧ t.clusters = s.clusters ∧ t.tile = s.tile ∧ s.sameMem t) ∧
  (∀ (s : State) (num : BitVec 16) (st : Fin 16), s.fw = true → s.flag Reg.BEAT_CFG_MASTER = false → s.ts ≠ tsJobLoaded →
    s.marked = true → s.beat.lost = false → num.toNat = (s.beatLow + 1) % 2 ^ 16 →
    Answers (.markReceipt num st true) s fun t => t.beat.armed = some (num.toNat, st.val) ∧ t.beat.lost = false ∧ t.regs = s.regs
      ∧ t.clusters = s.clusters ∧ t.tile = s.tile ∧ s.sameMem t) ∧
  (∀ (s : State) (num : BitVec 16) (st : Fin 16) (onTime : Bool), s.fw = true → s.flag Reg.BEAT_CFG_MASTER = false →
    s.ts ≠ tsJobLoaded → s.marked = true → s.beat.lost = false → (onTime = false ∨ num.toNat ≠ (s.beatLow + 1) % 2 ^ 16) →
    Answers (.markReceipt num st onTime) s fun t => t.beat.armed = none ∧ t.beat.lost = true
      ∧ (∃ e, t.tile.errs = s.tile.errs ++ [e] ∧ e.cls = 0x0C) ∧ t.clusters = s.clusters ∧ s.sameMem t) ∧
  (∀ s : State, s.marked = true → s.beat.started = true → s.flag Reg.BEAT_CFG_MASTER = false → s.beat.armed = none →
    s.beat.lost = false →
    Answers .beatLoss s fun t => t.beat.lost = true ∧ (∃ e, t.tile.errs = s.tile.errs ++ [e] ∧ e.cls = 0x0C)
      ∧ t.regs = s.regs ∧ t.clusters = s.clusters ∧ s.sameMem t) ∧
  (∀ s : State, s.alive = true → s.beat.lost = true → tsRunning ≤ s.ts → s.ts ≤ tsRecovering →
    Answers .resyncTimeout s fun t => t.ts = tsFailed ∧ t.fld Reg.TILE_STATE_REASON = 0x0217 ∧ t.clusters = s.clusters) ∧
  (∀ (s : State) (num st : Nat), s.beat.armed = some (num, st) → s.marked = true → s.beat.lost = false → num < 2 ^ 16 → st < 16 →
    s.tile.rep.named = none → s.tile.buckets = [] → s.rd64 Reg.BEAT_COUNT + 2 ^ 17 < 2 ^ 64 →
    Answers .localMark s fun t => t.rd64 Reg.BEAT_COUNT = beatAfter (s.rd64 Reg.BEAT_COUNT) num ∧ t.fld Reg.BEAT_CFG_STRETCH = st
      ∧ t.beat.armed = none) ∧
  (∀ (s : State) (num st : Nat) (site : Site) (n : SlotId), s.quietMark num st → s.startsBlocks = true → s.job.pauseAt = none →
    s.waitsMark site n = true → (s.slot site n).late = false → (s.slot site n).entTrap = 0 →
    Answers .localMark s fun t => (t.slot site n).pc = 0 ∧ (t.slot site n).blk.blockId = (s.slot site n).entId
      ∧ (t.slot site n).blk.last = (s.slot site n).entLast ∧ (t.slot site n).copied = false ∧ t.slotState site n = slRun
      ∧ (t.slot site n).x = (s.slot site n).x) ∧
  (∀ (s : State) (num st : Nat) (site : Site) (n : SlotId), s.quietMark num st → s.ts = tsRunning → s.live site = true →
    s.uncommitted site n = true →
    Answers .localMark s fun t => (t.slot site n).blk.id = (s.slot site n).blk.id ∧ (t.slot site n).pc = (s.slot site n).pc
      ∧ (s.flag Reg.BEAT_CFG_MODE = true → (t.slot site n).late = true
          ∧ t.slotState site n = (if s.slotState site n = slHalt then slHalt else slLate)
          ∧ t.fld Reg.BEAT_MISS_COUNT_MISSES = s.fld Reg.BEAT_MISS_COUNT_MISSES
          ∧ t.fld (Reg.SLOT_MISSES_MISSES site n) = s.fld (Reg.SLOT_MISSES_MISSES site n))
      ∧ (s.flag Reg.BEAT_CFG_MODE = false → (t.slot site n).late = (s.slot site n).late ∧ t.slotState site n = s.slotState site n
          ∧ ((s.slot site n).replay = false → (s.slot site n).blk.missed = false → (t.slot site n).blk.missed = true
            ∧ t.fld (Reg.SLOT_MISSES_MISSES site n) = min (2 ^ (Reg.SLOT_MISSES_MISSES site n).w - 1) (s.fld (Reg.SLOT_MISSES_MISSES site n) + 1))
          ∧ ((s.slot site n).replay = true → t.fld (Reg.SLOT_MISSES_MISSES site n) = s.fld (Reg.SLOT_MISSES_MISSES site n))))

/-- A late slot starts its next block with no mark (R57), and a block whose operations have all completed commits (R46, R48, R223): its
sends leave, its pending delta joins the object's committed value, and the slot goes to WAIT, or to IDLE after a LAST block. -/
def Obligations.BlocksStartAndCommit : Prop :=
  (∀ (s : State) (site : Site) (n : SlotId), s.startsBlocks = true → s.waitsMark site n = true → (s.slot site n).late = true →
    (s.slot site n).entTrap = 0 →
    Answers (.lateBlockStart site n) s fun t => (t.slot site n).pc = 0 ∧ (t.slot site n).blk.id = (s.cl site).nextBlk
      ∧ (t.slot site n).blk.blockId = (s.slot site n).entId ∧ (t.slot site n).copied = false ∧ t.slotState site n = slLate
      ∧ (t.slot site n).x = (s.slot site n).x ∧ s.onlySlot t site n ∧ s.sameRegs t (· = Reg.SLOT_STATUS site n)) ∧
  (∀ (s : State) (site : Site) (n : SlotId), s.alive = true → s.live site = true → s.committing site n = true →
    (s.slot site n).blk.id ≠ 0 → (s.slot site n).blk.failed = false →
    (s.cl site).opsLeft n (s.slot site n).blk.id = false → (s.slot site n).blk.deltas = [] → (s.slot site n).blk.held = [] →
    (s.slot site n).blk.sigs = [] → (s.slot site n).blk.bars = [] → (s.slot site n).blk.fills = [] → (s.slot site n).blk.drains = [] →
    (s.slot site n).replay = false →
    Answers (.blockCommit site n) s fun t => (t.slot site n).blk = {} ∧ (t.cl site).sends.length =
        (s.cl site).sends.length + (s.slot site n).blk.sends.length
      ∧ t.slotState site n = (if (s.slot site n).blk.last then slIdle else slWait)
      ∧ (∀ a, a < 4 → t.fld (Reg.ARR_STATUS_CBANK site a) =
          if (s.slot site n).blk.swaps.testBit a then 1 - s.fld (Reg.ARR_STATUS_CBANK site a) else s.fld (Reg.ARR_STATUS_CBANK site a))
      ∧ s.onlySlot t site n) ∧
  (∀ (s : State) (site : Site) (n : SlotId) (o : Nat) (v : Int), s.alive = true → s.live site = true → s.committing site n = true →
    (s.slot site n).blk.id ≠ 0 → (s.slot site n).blk.failed = false →
    (s.cl site).opsLeft n (s.slot site n).blk.id = false → (s.slot site n).blk.deltas = [(o, v)] → o < 48 → v ≠ 0 →
    (s.slot site n).blk.held = [] → (s.slot site n).blk.sigs = [] → (s.slot site n).blk.bars = [] → (s.slot site n).blk.fills = [] →
    (s.slot site n).blk.drains = [] → (s.slot site n).replay = false →
    Answers (.blockCommit site n) s fun t =>
      t.fld (Reg.SYNC_VAL_VALUE site o) = clampObj ((s.fld (Reg.SYNC_VAL_VALUE site o) : Int) + v) ∧ (t.slot site n).blk = {})


/-- Transfers that land (R59, R60, R63, R189, R193, R194, R226, R227). Mesh: in its link slot a committed send's bytes go to the
neighbour; where the copy of that neighbour's states shows the landing slot as not free the send is held and counted, and after SYNC_TMO
beats raises 0x0605; a ROUTED slot carries a message of its channel one hop further; an arrival lands whole. A LAND message lands in a
free slot of a live cluster, waits where it is when the slot is not free, and after SYNC_TMO marks is discarded with 0x0606. What this
says beyond the rules' words is the model's reading (log entries 28 and 65). -/
def Obligations.TransfersLand : Prop :=
  (∀ (s : State) (site : Site) (j : Fin 128) (r : SendRec), s.slotBegins site j → s.clean site → s.tile.net = [] →
    (s.cl site).sends = [r] → r.dir < 4 → r.j = j.val → r.since < s.rd64 Reg.BEAT_COUNT → s.schedEntry site r.dir j % 4 ≠ 3 →
    (s.neighbour site r.dir = none ∨ s.schedEntry site r.dir j % 4 = 0
      ∨ bits (s.schedEntry site r.dir j) 4 10 ∈ s.copyAt site r.dir j) →
    Answers (.linkSlotStart site j) s fun t => (t.cl site).slotAt = (s.beatLow, j.val + 1)
      ∧ (t.cl site).sends = [{ r with held := r.held + 1 }]
      ∧ t.fld (Reg.LAND_SEND_HELD_COUNT site) = min (2 ^ 32 - 1) (s.fld (Reg.LAND_SEND_HELD_COUNT site) + 1)
      ∧ s.sameRegs t (· = (Reg.LAND_SEND_HELD_COUNT site).off) ∧ s.otherClusters t site ∧ s.sameMem t ∧ s.sameSlices t ∧ t.tile = s.tile) ∧
  (∀ (s : State) (site : Site) (j : Fin 128) (r : SendRec) (k : Nat), s.slotBegins site j → s.clean site → s.tile.net = [] →
    (s.cl site).sends = [r] → r.dir < 4 → r.j = j.val → r.since < s.rd64 Reg.BEAT_COUNT → r.slot < 4 →
    s.neighbour site r.dir = some k → k ≠ site → s.schedEntry site r.dir j % 4 = 1 →
    bits (s.schedEntry site r.dir j) 4 10 ∉ s.copyAt site r.dir j → r.len ≤ 246 * 128 →
    Answers (.linkSlotStart site j) s fun t => (t.cl site).slotAt = (s.beatLow, j.val + 1) ∧ (t.cl site).sends = []
      ∧ (∃ h, (t.cl k).hops = (s.cl k).hops ++ [h] ∧ h.dir = r.dir ∧ h.j = j.val
          ∧ h.land = bits (s.schedEntry site r.dir j) 4 10 ∧ h.pass = none ∧ h.bytes = s.sliceGet site r.src r.len)
      ∧ s.sameMem t ∧ s.sameSlices t ∧ t.tile = s.tile) ∧
  (∀ (s : State) (site : Site) (j : Fin 128) (d : Edge) (m : NMsg) (k : Nat), s.slotBegins site j → s.clean site → (s.cl site).sends = [] →
    s.tile.net = [((site.val * 4 + d.val) * 16 + m.msg.vch.val, [m])] → s.tile.held = [] → s.schedEntry site d j % 4 = 3 →
    bits (s.schedEntry site d j) 14 4 = m.msg.vch.val → msgUnits m.msg ≤ slotUnits → m.hop.1 < s.rd64 Reg.BEAT_COUNT →
    s.route m.msg.dst.toNat = .self → s.neighbour site d = some k → m.goal = k →
    Answers (.linkSlotStart site j) s fun t => t.tile.net = []
      ∧ t.tile.arrived = s.tile.arrived ++ [{ m with hop := (s.rd64 Reg.BEAT_COUNT, j.val), path := 512 + 4 * site.val + d.val }]
      ∧ s.sameRegs t (fun o => ∃ b, b < 32 ∧ o = (Reg.BANK_STATE_PENDING k b).off) ∧ s.sameMem t ∧ s.sameSlices t) ∧
  (∀ (s : State) (site : Site) (d : Edge) (h : Hop), s.alive = true → s.live site = true → (s.cl site).hops = [h] → h.dir = d.val →
    h.pass = none → h.land < s.fld (Reg.LAND_NSLOT_NSLOT site) → h.land < 1024 → s.landFree site h.land = true → s.clean site →
    h.bytes.length ≤ s.landBytes site →
    Answers (.neighbourArrival site d) s fun t => (t.cl site).hops = [] ∧ t.land site h.land = ldFull
      ∧ (∀ i, i < h.bytes.length → memGet (t.cl site).slice (s.landAddr site h.land + i) = h.bytes.getD i 0)
      ∧ (∀ a, (a < s.landAddr site h.land ∨ s.landAddr site h.land + h.bytes.length ≤ a) →
          memGet (t.cl site).slice a = memGet (s.cl site).slice a) ∧ s.otherClusters t site ∧ s.sameMem t) ∧
  (∀ (s : State) (site : Site) (d : Edge) (r : SendRec), s.alive = true → s.live site = true → (s.cl site).sends = [r] → r.dir = d.val →
    r.timed = false → s.fld (Reg.SYNC_TMO_BEATS site) ≤ r.held → r.slot < 4 →
    Answers (.sendHeldTmo site d) s fun t => (t.cl site).sends = [{ r with timed := true }]
      ∧ (∃ e, t.tile.errs = s.tile.errs ++ [e] ∧ e.cls = 0x08 ∧ e.reason = 0x0605 ∧ e.site = some site.val)
      ∧ s.otherClusters t site ∧ s.sameMem t ∧ s.sameSlices t) ∧
  (∀ (s : State) (m : GMsg) (w : Way), s.fw = true → m.ty = 5 → s.toMe m.dst.toNat = true → bits m.dst.toNat 0 4 = 10 → bits m.dst.toNat 25 1 = 0 →
    (s.bring m).origin m = some w → s.live (msgSite m) = true → s.clean (msgSite m) → msgOff m = 0 → msgLast m = true →
    msgSlot m < s.fld (Reg.LAND_NSLOT_NSLOT (msgSite m)) → s.landFree (msgSite m) (msgSlot m) = true →
    s.writerFirst (msgSite m) (msgSlot m) = false → m.data.length ≤ s.landBytes (msgSite m) →
    Answers (.remoteArrival m) s fun t => t.land (msgSite m) (msgSlot m) = ldFull
      ∧ t.tile.arrived = (match w with
        | .mesh p => dropArrived p m (s.bring m).tile.arrived
        | _ => (s.bring m).tile.arrived)
      ∧ (∀ h ∈ t.tile.held, h.path ≠ w.num ∨ h.vch ≠ m.vch.val)
      ∧ (∀ i, i < m.data.length →
          memGet (t.cl (msgSite m)).slice (s.landAddr (msgSite m) (msgSlot m) + i) = m.data.getD i 0)
      ∧ (∀ a, (a < s.landAddr (msgSite m) (msgSlot m) ∨ s.landAddr (msgSite m) (msgSlot m) + m.data.length ≤ a) →
          memGet (t.cl (msgSite m)).slice a = memGet (s.cl (msgSite m)).slice a) ∧ s.otherClusters t (msgSite m) ∧ s.sameMem t) ∧
  (∀ (s : State) (m : GMsg) (w : Way), s.fw = true → m.ty = 5 → s.toMe m.dst.toNat = true → bits m.dst.toNat 0 4 = 10 → bits m.dst.toNat 25 1 = 0 →
    (s.bring m).origin m = some w → s.live (msgSite m) = true → msgOff m = 0 →
    msgSlot m < s.fld (Reg.LAND_NSLOT_NSLOT (msgSite m)) → s.landFree (msgSite m) (msgSlot m) = false →
    Answers (.remoteArrival m) s fun t => t.waits m = true ∧ (∃ h ∈ t.tile.held, h.path = w.num ∧ h.vch = m.vch.val)
      ∧ s.sameRegs t (fun o => ∃ b, b < 32 ∧ o = (Reg.BANK_STATE_PENDING (msgSite m) b).off) ∧ t.clusters = s.clusters ∧ s.sameMem t) ∧
  (∀ (s : State) (e : Edge) (h : Hold) (m : GMsg) (w : Way), s.fw = true → s.tile.held = [h] → h.vch < 16 →
    (h.path = e.val ∧ w = .edge h.path ∨ 4 ≤ h.path ∧ w = .mesh h.path) →
    s.wayHead w { vch := Fin.ofNat 16 h.vch, ty := 5, dst := 0, aux := 0, data := [] } = some m →
    s.fld (Reg.SYNC_TMO_BEATS (msgSite m)) ≤ h.marks →
    Answers (.remoteHeldTmo e) s fun t => t.tile.held = []
      ∧ (s.senderOf w m = none → (h.path, h.vch + 16 * msgSite m) ∈ t.tile.mute)
      ∧ (∃ x ∈ t.tile.errs, x.cls = 0x08 ∧ x.reason = 0x0606 ∧ x.site = some (msgSite m)) ∧ s.sameMem t ∧ s.sameSlices t)


/-! ## The control cores -/

/-- The integer instructions of a running slot (R53), as words and as the compressed instructions that stand for them: the result, the
next pc, one more instruction retired, nothing else changed; FENCE only retires, and the three counters are read. -/
def Obligations.IntegerInstructionsExecute : Prop :=
  (∀ (s : State) (site : Site) (n : SlotId) (w len f3 f7 : Nat) (f : DWord → DWord → DWord), s.fetches site n w len → w % 128 = 0x33 →
    w / 2 ^ 12 % 8 = f3 → wF7 w = f7 → (f3, f7, f) ∈ opTable →
    Answers (.rv64imac site n) s fun t => s.retired t site n len ∧ s.result t site n w (f (s.x site n (wRs1 w)) (s.x site n (wRs2 w)))
      ∧ s.onlySlot t site n ∧ s.sameRegs t (· = Reg.SLOT_STATUS site n)) ∧
  (∀ (s : State) (site : Site) (n : SlotId) (w len f3 f7 : Nat) (f : Word → Word → Word), s.fetches site n w len → w % 128 = 0x3B →
    w / 2 ^ 12 % 8 = f3 → wF7 w = f7 → (f3, f7, f) ∈ op32Table →
    Answers (.rv64imac site n) s fun t => s.retired t site n len
      ∧ s.result t site n w ((f ((s.x site n (wRs1 w)).setWidth 32) ((s.x site n (wRs2 w)).setWidth 32)).signExtend 64)
      ∧ s.onlySlot t site n ∧ s.sameRegs t (· = Reg.SLOT_STATUS site n)) ∧
  (∀ (s : State) (site : Site) (n : SlotId) (w len f3 : Nat) (f : DWord → DWord → DWord), s.fetches site n w len → w % 128 = 0x13 →
    w / 2 ^ 12 % 8 = f3 → (f3, f) ∈ immTable →
    Answers (.rv64imac site n) s fun t => s.retired t site n len ∧ s.result t site n w (f (s.x site n (wRs1 w)) (wImm w))
      ∧ s.onlySlot t site n ∧ s.sameRegs t (· = Reg.SLOT_STATUS site n)) ∧
  (∀ (s : State) (site : Site) (n : SlotId) (w len f3 top : Nat) (f : DWord → Nat → DWord), s.fetches site n w len → w % 128 = 0x13 →
    w / 2 ^ 12 % 8 = f3 → w / 2 ^ 26 % 64 = top → (f3, top, f) ∈ shTable →
    Answers (.rv64imac site n) s fun t => s.retired t site n len ∧ s.result t site n w (f (s.x site n (wRs1 w)) (w / 2 ^ 20 % 64))
      ∧ s.onlySlot t site n ∧ s.sameRegs t (· = Reg.SLOT_STATUS site n)) ∧
  (∀ (s : State) (site : Site) (n : SlotId) (w len : Nat), s.fetches site n w len → w % 128 = 0x1B → w / 2 ^ 12 % 8 = 0 →
    Answers (.rv64imac site n) s fun t => s.retired t site n len
      ∧ s.result t site n w (((s.x site n (wRs1 w) + wImm w).setWidth 32).signExtend 64)
      ∧ s.onlySlot t site n ∧ s.sameRegs t (· = Reg.SLOT_STATUS site n)) ∧
  (∀ (s : State) (site : Site) (n : SlotId) (w len f3 f7 : Nat) (f : Word → Nat → Word), s.fetches site n w len → w % 128 = 0x1B →
    w / 2 ^ 12 % 8 = f3 → wF7 w = f7 → (f3, f7, f) ∈ sh32Table →
    Answers (.rv64imac site n) s fun t => s.retired t site n len
      ∧ s.result t site n w ((f ((s.x site n (wRs1 w)).setWidth 32) (wRs2 w)).signExtend 64)
      ∧ s.onlySlot t site n ∧ s.sameRegs t (· = Reg.SLOT_STATUS site n)) ∧
  (∀ (s : State) (site : Site) (n : SlotId) (w len : Nat), s.fetches site n w len → (w % 128 = 0x37 ∨ w % 128 = 0x17) →
    Answers (.rv64imac site n) s fun t => s.retired t site n len
      ∧ s.result t site n w ((if w % 128 = 0x17 then BitVec.ofNat 64 (s.slot site n).pc else 0)
          + BitVec.ofInt 64 (sext (w / 2 ^ 12 % 2 ^ 20 * 2 ^ 12) 32))
      ∧ s.onlySlot t site n ∧ s.sameRegs t (· = Reg.SLOT_STATUS site n)) ∧
  (∀ (s : State) (site : Site) (n : SlotId) (len f3 rs1 rs2 : Nat) (off : Int) (f : DWord → DWord → Bool), rs1 < 32 → rs2 < 32 →
    -4096 ≤ off → off < 4096 → off % 2 = 0 → (f3, f) ∈ brTable → s.fetches site n (encB f3 rs1 rs2 off) len → (s.slot site n).pc < 2 ^ 64 →
    Answers (.rv64imac site n) s fun t => (t.slot site n).x = (s.slot site n).x ∧ s.onlySlot t site n
      ∧ ((t.slot site n).pc : Int)
          = (if f (s.x site n rs1) (s.x site n rs2) then ((s.slot site n).pc + off) else (s.slot site n).pc + len) % 2 ^ 64) ∧
  (∀ (s : State) (site : Site) (n : SlotId) (len rd : Nat) (off : Int), rd < 32 → -(2 ^ 20) ≤ off → off < 2 ^ 20 → off % 2 = 0 →
    s.fetches site n (encJ rd off) len → (s.slot site n).pc < 2 ^ 64 →
    Answers (.rv64imac site n) s fun t => ((t.slot site n).pc : Int) = ((s.slot site n).pc + off) % 2 ^ 64
      ∧ t.x site n rd = (if rd = 0 then 0 else BitVec.ofNat 64 ((s.slot site n).pc + len)) ∧ s.onlySlot t site n) ∧
  (∀ (s : State) (site : Site) (n : SlotId) (w len : Nat), s.fetches site n w len → opcodeIs w 0x67 0 →
    Answers (.rv64imac site n) s fun t => (t.slot site n).pc = (s.x site n (wRs1 w) + wImm w).toNat / 2 * 2
      ∧ s.result t site n w (BitVec.ofNat 64 ((s.slot site n).pc + len)) ∧ s.onlySlot t site n) ∧
  (∀ (s : State) (site : Site) (n : SlotId) (w len : Nat), s.fetches site n w len → opcodeIs w 0x0F 0 →
    Answers (.rv64imac site n) s fun t => s.retired t site n len ∧ (t.slot site n).x = (s.slot site n).x ∧ s.onlySlot t site n
      ∧ s.sameSlices t ∧ s.sameRegs t (· = Reg.SLOT_STATUS site n)) ∧
  (∀ (s : State) (site : Site) (n : SlotId) (w len k : Nat), s.fetches site n w len → w % 128 = 0x73 →
    (w / 2 ^ 12 % 8 = 2 ∨ w / 2 ^ 12 % 8 = 3 ∨ w / 2 ^ 12 % 8 = 6 ∨ w / 2 ^ 12 % 8 = 7) → wRs1 w = 0 → k < 3 →
    w / 2 ^ 20 % 2 ^ 12 = 0xC00 + k →
    Answers (.rv64imac site n) s fun t => s.retired t site n len
      ∧ s.result t site n w (BitVec.ofNat 64 (if k = 0 then s.clk.aclk else if k = 1 then s.rd64 Reg.TIME_NOW else (s.slot site n).instret))
      ∧ s.onlySlot t site n ∧ s.sameRegs t (· = Reg.SLOT_STATUS site n))

/-- Loads, stores and traps of a running slot (R53, R54), in a slice that reads without error: a load reads its bytes, a store writes
them and no others, LR and SC pair through the reservation, an AMO reads and writes; a misaligned access, one beyond the slice, ECALL,
a reserved instruction and a fetch beyond the code trap with their causes; EBREAK halts an unlocked slot and else traps. What this says
beyond the rules' words is the model's reading (log entries 29 and 30). -/
def Obligations.MemoryInstructionsAndTraps : Prop :=
  (∀ (s : State) (site : Site) (n : SlotId) (w len f3 : Nat), s.fetches site n w len → opcodeIs w 0x03 f3 → f3 < 7 → s.clean site →
    (s.x site n (wRs1 w) + wImm w).toNat % 2 ^ (f3 % 4) = 0 → (s.x site n (wRs1 w) + wImm w).toNat + 2 ^ (f3 % 4) ≤ sliceSize site →
    Answers (.rv64imac site n) s fun t => s.retired t site n len
      ∧ s.result t site n w (loaded f3 (leNat (s.sliceBytes site (s.x site n (wRs1 w) + wImm w).toNat (2 ^ (f3 % 4)))))
      ∧ s.onlySlot t site n ∧ s.sameSlices t ∧ s.sameRegs t (· = Reg.SLOT_STATUS site n)) ∧
  (∀ (s : State) (site : Site) (n : SlotId) (len f3 rs1 rs2 : Nat) (off : Int) (a : Nat), f3 < 4 → rs1 < 32 → rs2 < 32 → -2048 ≤ off →
    off < 2048 → s.fetches site n (encS 0x23 f3 rs1 rs2 off) len → s.clean site → a = (s.x site n rs1 + BitVec.ofInt 64 off).toNat →
    a % 2 ^ f3 = 0 → a + 2 ^ f3 ≤ sliceSize site →
    Answers (.rv64imac site n) s fun t => s.retired t site n len ∧ (t.slot site n).x = (s.slot site n).x
      ∧ leNat (t.sliceBytes site a (2 ^ f3)) = (s.x site n rs2).toNat % 2 ^ (8 * 2 ^ f3) ∧ s.sameOutside t site a (2 ^ f3)
      ∧ s.otherClusters t site ∧ s.sameMem t ∧ t.tile = s.tile) ∧
  (∀ (s : State) (site : Site) (n : SlotId) (w len f3 a : Nat), s.fetches site n w len → opcodeIs w 0x2F f3 → (f3 = 2 ∨ f3 = 3) →
    w / 2 ^ 27 % 32 = 2 → wRs2 w = 0 → s.clean site → a = (s.x site n (wRs1 w)).toNat → a % 2 ^ f3 = 0 → a + 2 ^ f3 ≤ sliceSize site →
    Answers (.rv64imac site n) s fun t => s.retired t site n len ∧ (t.slot site n).resv = some (a, 2 ^ f3)
      ∧ s.result t site n w (loaded f3 (leNat (s.sliceBytes site a (2 ^ f3)))) ∧ s.sameSlices t ∧ s.onlySlot t site n) ∧
  (∀ (s : State) (site : Site) (n : SlotId) (w len f3 a : Nat), s.fetches site n w len → opcodeIs w 0x2F f3 → (f3 = 2 ∨ f3 = 3) →
    w / 2 ^ 27 % 32 = 3 → s.clean site → a = (s.x site n (wRs1 w)).toNat → a % 2 ^ f3 = 0 → a + 2 ^ f3 ≤ sliceSize site →
    (s.slot site n).resv ≠ some (a, 2 ^ f3) →
    Answers (.rv64imac site n) s fun t => s.retired t site n len ∧ s.result t site n w 1 ∧ (t.slot site n).resv = none
      ∧ s.sameSlices t ∧ s.onlySlot t site n) ∧
  (∀ (s : State) (site : Site) (n : SlotId) (w len f3 a : Nat), s.fetches site n w len → opcodeIs w 0x2F f3 → (f3 = 2 ∨ f3 = 3) →
    w / 2 ^ 27 % 32 = 3 → s.clean site → a = (s.x site n (wRs1 w)).toNat → a % 2 ^ f3 = 0 → a + 2 ^ f3 ≤ sliceSize site →
    (s.slot site n).resv = some (a, 2 ^ f3) →
    Answers (.rv64imac site n) s fun t => s.retired t site n len ∧ s.result t site n w 0 ∧ (t.slot site n).resv = none
      ∧ leNat (t.sliceBytes site a (2 ^ f3)) = (s.x site n (wRs2 w)).toNat % 2 ^ (8 * 2 ^ f3) ∧ s.sameOutside t site a (2 ^ f3)
      ∧ s.otherClusters t site ∧ s.sameMem t) ∧
  (∀ (s : State) (site : Site) (n : SlotId) (w len f3 f5 a : Nat) (f : DWord → DWord → DWord) (old b : DWord), s.fetches site n w len →
    opcodeIs w 0x2F f3 → (f3 = 2 ∨ f3 = 3) → w / 2 ^ 27 % 32 = f5 → (f5, f) ∈ amoTable → s.clean site →
    a = (s.x site n (wRs1 w)).toNat → a % 2 ^ f3 = 0 → a + 2 ^ f3 ≤ sliceSize site → old = loaded f3 (leNat (s.sliceBytes site a (2 ^ f3))) →
    b = loaded f3 ((s.x site n (wRs2 w)).toNat % 2 ^ (8 * 2 ^ f3)) →
    Answers (.rv64imac site n) s fun t => s.retired t site n len ∧ s.result t site n w old
      ∧ leNat (t.sliceBytes site a (2 ^ f3)) = (f old b).toNat % 2 ^ (8 * 2 ^ f3)
      ∧ s.sameOutside t site a (2 ^ f3) ∧ s.otherClusters t site ∧ s.sameMem t) ∧
  (∀ (s : State) (site : Site) (n : SlotId) (w len f3 : Nat), s.fetches site n w len → opcodeIs w 0x03 f3 → f3 < 7 →
    (s.slot site n).blk.failed = false → (s.x site n (wRs1 w) + wImm w).toNat % 2 ^ (f3 % 4) ≠ 0 →
    Answers (.rv64imac site n) s fun t => t.trapped site n 4 ∧ s.givenUp t site n ∧ s.sameMem t) ∧
  (∀ (s : State) (site : Site) (n : SlotId) (w len f3 : Nat), s.fetches site n w len → opcodeIs w 0x03 f3 → f3 < 7 →
    (s.slot site n).blk.failed = false → (s.x site n (wRs1 w) + wImm w).toNat % 2 ^ (f3 % 4) = 0 →
    sliceSize site < (s.x site n (wRs1 w) + wImm w).toNat + 2 ^ (f3 % 4) →
    Answers (.rv64imac site n) s fun t => t.trapped site n 5 ∧ s.givenUp t site n ∧ s.sameMem t) ∧
  (∀ (s : State) (site : Site) (n : SlotId) (len f3 rs1 rs2 : Nat) (off : Int) (a : Nat), f3 < 4 → rs1 < 32 → rs2 < 32 → -2048 ≤ off →
    off < 2048 → s.fetches site n (encS 0x23 f3 rs1 rs2 off) len → (s.slot site n).blk.failed = false →
    a = (s.x site n rs1 + BitVec.ofInt 64 off).toNat → (a % 2 ^ f3 ≠ 0 ∨ sliceSize site < a + 2 ^ f3) →
    Answers (.rv64imac site n) s fun t => t.trapped site n (if a % 2 ^ f3 ≠ 0 then 6 else 7) ∧ s.givenUp t site n ∧ s.sameMem t) ∧
  (∀ (s : State) (site : Site) (n : SlotId), s.fetches site n 0x73 4 → (s.slot site n).blk.failed = false →
    Answers (.rv64imac site n) s fun t => t.trapped site n 11 ∧ s.givenUp t site n ∧ s.sameMem t) ∧
  (∀ (s : State) (site : Site) (n : SlotId) (len : Nat), s.fetches site n 0x100073 len → s.flag Reg.DBG_STATE_UNLOCKED = true →
    Answers (.rv64imac site n) s fun t => t.slotState site n = slHalt ∧ t.fld (Reg.SLOT_STATUS_TRAP site n) = 3
      ∧ (t.slot site n).pc = (s.slot site n).pc ∧ s.onlySlot t site n) ∧
  (∀ (s : State) (site : Site) (n : SlotId) (len : Nat), s.fetches site n 0x100073 len → s.flag Reg.DBG_STATE_UNLOCKED = false →
    (s.slot site n).blk.failed = false →
    Answers (.rv64imac site n) s fun t => t.trapped site n 3 ∧ s.givenUp t site n ∧ s.sameMem t) ∧
  (∀ (s : State) (site : Site) (n : SlotId) (c : Nat), s.runs site n = true → (s.slot site n).fetch = some (c, 2) → expandC c = none →
    (s.slot site n).blk.failed = false →
    Answers (.rv64imac site n) s fun t => t.trapped site n 2 ∧ s.givenUp t site n ∧ s.sameMem t) ∧
  (∀ (s : State) (site : Site) (n : SlotId), s.runs site n = true → (s.slot site n).buf.length ≤ (s.slot site n).pc →
    (s.slot site n).blk.failed = false →
    Answers (.rv64imac site n) s fun t => t.trapped site n 1 ∧ s.givenUp t site n ∧ s.sameMem t)

/-- A Barza opcode with a reserved field (R65), or an engine the cluster has not, traps with cause 2 (R54): BZ.ALOAD,
BZ.VRUN, BZ.SARM and BZ.MARK. What this says beyond the rules' words is the model's reading (log entry 24). -/
def Obligations.ReservedOpcodeFieldsTrap : Prop :=
  (∀ (s : State) (site : Site) (n : SlotId) (w : Nat), s.atWord site n w → opcodeIs w 0x0B 0 → (s.slot site n).blk.failed = false →
    (isVector site = true ∨ wRd w ≠ 0 ∨ wRs2 w ≠ 0 ∨ wF7 w % 16 = 0) →
    Answers (.bzAload site n) s fun t => t.trapped site n 2 ∧ s.givenUp t site n ∧ s.sameMem t) ∧
  (∀ (s : State) (site : Site) (n : SlotId) (w : Nat), s.atWord site n w → opcodeIs w 0x2B 1 → (s.slot site n).blk.failed = false →
    (wRd w ≠ 0 ∨ (isVector site = false ∧ 64 ≤ wF7 w)) →
    Answers (.bzVrun site n) s fun t => t.trapped site n 2 ∧ s.givenUp t site n ∧ s.sameMem t) ∧
  (∀ (s : State) (site : Site) (n : SlotId) (w : Nat), s.atWord site n w → opcodeIs w 0x5B 0 → (s.slot site n).blk.failed = false →
    (wRs2 w ≠ 0 ∨ 64 ≤ wF7 w) →
    Answers (.bzSarm site n) s fun t => t.trapped site n 2 ∧ s.givenUp t site n ∧ s.sameMem t) ∧
  (∀ (s : State) (site : Site) (n : SlotId) (w : Nat), s.atWord site n w → opcodeIs w 0x7B 6 → (s.slot site n).blk.failed = false →
    (wRs1 w ≠ 0 ∨ wRs2 w ≠ 0 ∨ wF7 w ≠ 0) →
    Answers (.bzMark site n) s fun t => t.trapped site n 2 ∧ s.givenUp t site n ∧ s.sameMem t)

/-- Issue to the arrays (R51, R65, R66, R68, R129, R148): the operation joins the queue of every array named, in order; with no room the
slot stalls and tries again; a stream of no rows writes a record of zeros and issues nothing; a bank swap is recorded for the commit;
BZ.ASTAT reads the status word. -/
def Obligations.ArrayOpcodesIssue : Prop :=
  (∀ (s : State) (site : Site) (n : SlotId) (w : Nat), s.atWord site n w → opcodeIs w 0x0B 0 → isVector site = false → wRd w = 0 →
    wRs2 w = 0 → wF7 w % 16 ≠ 0 → wF7 w / 32 ≠ 3 → (∀ a, a < 4 → (wF7 w).testBit a = true → roomIn (s.arr site a).queue n = true) →
    Answers (.bzAload site n) s fun t => s.retired4 t site n
      ∧ (∃ o, o.kind = .aload ∧ o.slot = n.val ∧ o.blk = (s.slot site n).blk.id ∧ o.f7 = wF7 w ∧ o.desc = (s.x site n (wRs1 w)).toNat
          ∧ ∀ a, a < 4 → (t.arr site a).queue = if (wF7 w).testBit a then (s.arr site a).queue ++ [o] else (s.arr site a).queue)
      ∧ s.onlySlot t site n ∧ s.sameSlices t) ∧
  (∀ (s : State) (site : Site) (n : SlotId) (w : Nat), s.atWord site n w → opcodeIs w 0x0B 0 → isVector site = false → wRd w = 0 →
    wRs2 w = 0 → wF7 w % 16 ≠ 0 → wF7 w / 32 ≠ 3 → (∃ a, a < 4 ∧ (wF7 w).testBit a = true ∧ roomIn (s.arr site a).queue n = false) →
    Answers (.bzAload site n) s fun t => s.stalled t site n ∧ ∀ a, t.arr site a = s.arr site a) ∧
  (∀ (s : State) (site : Site) (n : SlotId) (w : Nat), s.atWord site n w → opcodeIs w 0x0B 1 → isVector site = false → wRd w = 0 →
    wF7 w % 16 ≠ 0 → wF7 w < 16 → (s.x site n (wRs2 w)).toNat ≠ 0 → (s.x site n (wRs2 w)).toNat < 2 ^ 24 →
    (∀ a, a < 4 → (wF7 w).testBit a = true → roomIn (s.arr site a).queue n = true) →
    Answers (.bzAstream site n) s fun t => s.retired4 t site n
      ∧ (∃ o, o.kind = .astream ∧ o.slot = n.val ∧ o.arg = (s.x site n (wRs2 w)).toNat ∧ o.desc = (s.x site n (wRs1 w)).toNat
          ∧ ∀ a, a < 4 → (t.arr site a).queue = if (wF7 w).testBit a then (s.arr site a).queue ++ [o] else (s.arr site a).queue)
      ∧ s.onlySlot t site n ∧ s.sameSlices t) ∧
  (∀ (s : State) (site : Site) (n : SlotId) (w d : Nat), s.atWord site n w → opcodeIs w 0x0B 1 → isVector site = false → wRd w = 0 →
    wF7 w % 16 ≠ 0 → wF7 w < 16 → (s.x site n (wRs2 w)).toNat = 0 → s.clean site → s.descAt site (s.x site n (wRs1 w)).toNat = some d →
    streamDescOk d = true → bits d 256 23 + 16 ≤ sliceSize site → (∀ a, a < 4 → (wF7 w).testBit a = true → s.landSpan site d a 0 = true) →
    Answers (.bzAstream site n) s fun t => s.retired4 t site n
      ∧ (∀ i, i < 16 → memGet (t.cl site).slice (bits d 256 23 + i) = 0) ∧ s.sameOutside t site (bits d 256 23) 16
      ∧ (∀ a, t.arr site a = s.arr site a) ∧ s.otherClusters t site ∧ s.sameMem t) ∧
  (∀ (s : State) (site : Site) (n : SlotId) (w : Nat), s.atWord site n w → opcodeIs w 0x0B 2 → isVector site = false → wRd w = 0 →
    wRs2 w = 0 → wF7 w % 16 ≠ 0 → wF7 w < 32 → (∀ a, a < 4 → (wF7 w).testBit a = true → roomIn (s.arr site a).queue n = true) →
    Answers (.bzAinit site n) s fun t => s.retired4 t site n
      ∧ (∃ o, o.kind = .ainit ∧ o.slot = n.val ∧ o.f7 = wF7 w ∧ o.desc = (s.x site n (wRs1 w)).toNat
          ∧ ∀ a, a < 4 → (t.arr site a).queue = if (wF7 w).testBit a then (s.arr site a).queue ++ [o] else (s.arr site a).queue)
      ∧ s.onlySlot t site n ∧ s.sameSlices t) ∧
  (∀ (s : State) (site : Site) (n : SlotId) (w : Nat), s.atWord site n w → opcodeIs w 0x0B 3 → isVector site = false → wRd w = 0 →
    wRs1 w = 0 → wRs2 w = 0 → wF7 w ≠ 0 → wF7 w < 16 →
    Answers (.bzAbank site n) s fun t => s.retired4 t site n ∧ (t.slot site n).blk.swaps = (s.slot site n).blk.swaps ||| wF7 w
      ∧ s.onlySlot t site n ∧ s.sameRegs t (· = Reg.SLOT_STATUS site n) ∧ s.sameSlices t) ∧
  (∀ (s : State) (site : Site) (n : SlotId) (w : Nat), s.atWord site n w → opcodeIs w 0x0B 4 → isVector site = false → wRs1 w = 0 →
    wRs2 w = 0 → wF7 w < 4 →
    Answers (.bzAstat site n) s fun t => s.retired4 t site n ∧ s.result t site n w ((s.rd (Reg.ARR_STATUS site (wF7 w))).setWidth 64)
      ∧ s.onlySlot t site n ∧ s.sameRegs t (· = Reg.SLOT_STATUS site n) ∧ s.sameSlices t)

/-- The vector opcodes (R51, R152, R154, R165): BZ.VSETVL keeps min(rs1, 65536), an operation joins its engine's queue with the slot's
VL, BZ.VSTAT reads the status word, BZ.YMV moves between the files. -/
def Obligations.VectorOpcodesIssue : Prop :=
  (∀ (s : State) (site : Site) (n : SlotId) (w : Nat), s.atWord site n w → opcodeIs w 0x2B 0 → wRs2 w = 0 →
    (wF7 w = 0 ∨ (isVector site = true ∧ wF7 w = 64)) →
    Answers (.bzVsetvl site n) s fun t => s.retired4 t site n
      ∧ t.fld (Reg.SLOT_VL_VL site n (wF7 w / 64)) = min (s.x site n (wRs1 w)).toNat 65536
      ∧ s.result t site n w (BitVec.ofNat 64 (min (s.x site n (wRs1 w)).toNat 65536)) ∧ s.onlySlot t site n
      ∧ s.sameRegs t (fun o => o = Reg.SLOT_STATUS site n ∨ o = Reg.SLOT_VL site n (wF7 w / 64)) ∧ s.sameSlices t) ∧
  (∀ (s : State) (site : Site) (n : SlotId) (w : Nat), s.atWord site n w → opcodeIs w 0x2B 1 → wRd w = 0 →
    (isVector site = true ∨ wF7 w < 64) → roomIn (s.eng site (wF7 w / 64)).queue n = true →
    Answers (.bzVrun site n) s fun t => s.retired4 t site n
      ∧ (∃ o, (t.eng site (wF7 w / 64)).queue = (s.eng site (wF7 w / 64)).queue ++ [o] ∧ o.kind = .vrun ∧ o.slot = n.val
          ∧ o.vl = s.fld (Reg.SLOT_VL_VL site n (wF7 w / 64)) ∧ o.desc = (s.x site n (wRs1 w)).toNat)
      ∧ s.onlySlot t site n ∧ s.sameSlices t) ∧
  (∀ (s : State) (site : Site) (n : SlotId) (w : Nat), s.atWord site n w → opcodeIs w 0x2B 2 → wRd w = 0 → wRs2 w = 0 →
    wF7 w / 8 % 8 = 0 → wF7 w % 8 < 6 → (isVector site = true ∨ wF7 w < 64) → roomIn (s.eng site (wF7 w / 64)).queue n = true →
    Answers (.bzVred site n) s fun t => s.retired4 t site n
      ∧ (∃ o, (t.eng site (wF7 w / 64)).queue = (s.eng site (wF7 w / 64)).queue ++ [o] ∧ o.kind = .vred ∧ o.f7 = wF7 w
          ∧ o.vl = s.fld (Reg.SLOT_VL_VL site n (wF7 w / 64)))
      ∧ s.onlySlot t site n ∧ s.sameSlices t) ∧
  (∀ (s : State) (site : Site) (n : SlotId) (w : Nat), s.atWord site n w → opcodeIs w 0x2B 3 → wRd w = 0 → wRs2 w = 0 →
    (wF7 w = 0 ∨ (isVector site = true ∧ wF7 w = 64)) → roomIn (s.eng site (wF7 w / 64)).queue n = true →
    Answers (.bzVperm site n) s fun t => s.retired4 t site n
      ∧ (∃ o, (t.eng site (wF7 w / 64)).queue = (s.eng site (wF7 w / 64)).queue ++ [o] ∧ o.kind = .vperm)
      ∧ s.onlySlot t site n ∧ s.sameSlices t) ∧
  (∀ (s : State) (site : Site) (n : SlotId) (w : Nat), s.atWord site n w → opcodeIs w 0x2B 4 → wRd w = 0 → wRs2 w = 0 →
    wF7 w / 2 % 32 = 0 → (isVector site = true ∨ wF7 w < 64) → roomIn (s.eng site (wF7 w / 64)).queue n = true →
    Answers (.bzVcmpx site n) s fun t => s.retired4 t site n
      ∧ (∃ o, (t.eng site (wF7 w / 64)).queue = (s.eng site (wF7 w / 64)).queue ++ [o] ∧ o.kind = .vcmpx ∧ o.f7 = wF7 w)
      ∧ s.onlySlot t site n ∧ s.sameSlices t) ∧
  (∀ (s : State) (site : Site) (n : SlotId) (w : Nat), s.atWord site n w → opcodeIs w 0x2B 5 → wRs1 w = 0 → wRs2 w = 0 →
    (wF7 w = 0 ∨ (isVector site = true ∧ wF7 w = 64)) →
    Answers (.bzVstat site n) s fun t => s.retired4 t site n ∧ s.result t site n w ((s.rd (Reg.VE_STATUS site (wF7 w / 64))).setWidth 64)
      ∧ s.onlySlot t site n ∧ s.sameRegs t (· = Reg.SLOT_STATUS site n)) ∧
  (∀ (s : State) (site : Site) (n : SlotId) (w : Nat), s.atWord site n w → opcodeIs w 0x2B 6 → wRs2 w = 0 → wF7 w = 0 →
    Answers (.bzYmv site n) s fun t => s.retired4 t site n ∧ (t.slot site n).getY (wRd w) = (s.x site n (wRs1 w)).setWidth 32
      ∧ (t.slot site n).x = (s.slot site n).x ∧ s.onlySlot t site n ∧ s.sameRegs t (· = Reg.SLOT_STATUS site n)) ∧
  (∀ (s : State) (site : Site) (n : SlotId) (w : Nat), s.atWord site n w → opcodeIs w 0x2B 6 → wRs2 w = 0 → wF7 w = 1 →
    Answers (.bzYmv site n) s fun t => s.retired4 t site n ∧ s.result t site n w (((s.slot site n).getY (wRs1 w)).signExtend 64)
      ∧ s.onlySlot t site n ∧ s.sameRegs t (· = Reg.SLOT_STATUS site n))

/-- The stream opcodes (R196, R204, R206, R208): BZ.SARM arms an idle context and writes 0, fills its shadow and writes 1, or is refused
and writes 2; BZ.DEP adds a marker to the newest arm, or is counted as dropped where there is none; BZ.SCANCEL empties the context and returns its epoch, or stalls while the epoch
is busy. -/
def Obligations.StreamOpcodesArmAndCancel : Prop :=
  (∀ (s : State) (site : Site) (n : SlotId) (w r : Nat), s.atWord site n w → opcodeIs w 0x5B 0 → wRs2 w = 0 → wF7 w < 64 →
    s.clean site → s.descAt site (s.x site n (wRs1 w)).toNat = some r → s.armOk site r = true → (s.ctx site (wF7 w)).act = none →
    Answers (.bzSarm site n) s fun t => s.retired4 t site n ∧ s.result t site n w 0
      ∧ (∃ a, (t.ctx site (wF7 w)).act = some a ∧ a.desc = r ∧ a.home = (s.x site n (wRs1 w)).toNat ∧ a.next = 0 ∧ a.limit = bits r 184 24
          ∧ a.marks = [] ∧ a.sure = false)
      ∧ t.fld (Reg.STR_HOME_HOME site (wF7 w)) = (s.x site n (wRs1 w)).toNat % 2 ^ 23 ∧ t.flag (Reg.STR_HOME_VALID site (wF7 w)) = true
      ∧ s.onlySlot t site n ∧ s.sameSlices t) ∧
  (∀ (s : State) (site : Site) (n : SlotId) (w r : Nat) (a0 : Arm), s.atWord site n w → opcodeIs w 0x5B 0 → wRs2 w = 0 → wF7 w < 64 →
    s.clean site → s.descAt site (s.x site n (wRs1 w)).toNat = some r → s.armOk site r = true → (s.ctx site (wF7 w)).act = some a0 →
    (s.ctx site (wF7 w)).shd = none →
    Answers (.bzSarm site n) s fun t => s.retired4 t site n ∧ s.result t site n w 1 ∧ (t.ctx site (wF7 w)).act = some a0
      ∧ (∃ a, (t.ctx site (wF7 w)).shd = some a ∧ a.desc = r) ∧ t.rd (Reg.STR_HOME site (wF7 w)) = s.rd (Reg.STR_HOME site (wF7 w))
      ∧ s.onlySlot t site n ∧ s.sameSlices t) ∧
  (∀ (s : State) (site : Site) (n : SlotId) (w r : Nat) (a0 a1 : Arm), s.atWord site n w → opcodeIs w 0x5B 0 → wRs2 w = 0 → wF7 w < 64 →
    s.clean site → s.descAt site (s.x site n (wRs1 w)).toNat = some r → s.armOk site r = true → (s.ctx site (wF7 w)).act = some a0 →
    (s.ctx site (wF7 w)).shd = some a1 →
    Answers (.bzSarm site n) s fun t => s.retired4 t site n ∧ s.result t site n w 2 ∧ (∀ d, t.ctx site d = s.ctx site d)
      ∧ t.fld (Reg.FE_REFUSED_COUNT site) = min (2 ^ 32 - 1) (s.fld (Reg.FE_REFUSED_COUNT site) + 1) ∧ s.onlySlot t site n
      ∧ s.sameSlices t) ∧
  (∀ (s : State) (site : Site) (n : SlotId) (w : Nat) (a : Arm), s.atWord site n w → opcodeIs w 0x5B 1 → wRd w = 0 → wF7 w < 64 →
    (s.x site n (wRs1 w)).toNat < 2 ^ 16 → ownOk (s.x site n (wRs1 w)).toNat = true → (s.x site n (wRs2 w)).toNat < 2 ^ 48 →
    2 ^ 24 ≤ (s.x site n (wRs2 w)).toNat → (s.ctx site (wF7 w)).shd = none → (s.ctx site (wF7 w)).act = some a →
    a.next < armCount a.desc → a.marks.length < 8 →
    Answers (.bzDep site n) s fun t => s.retired4 t site n
      ∧ ((t.ctx site (wF7 w)).act.map fun b => b.marks) = some (a.marks ++ [⟨(s.x site n (wRs1 w)).toNat, (s.x site n (wRs2 w)).toNat % 2 ^ 24,
          (s.x site n (wRs2 w)).toNat / 2 ^ 24⟩])
      ∧ (∀ d, d ≠ wF7 w → t.ctx site d = s.ctx site d) ∧ s.onlySlot t site n ∧ s.sameSlices t) ∧
  (∀ (s : State) (site : Site) (n : SlotId) (w : Nat) (a : Arm), s.atWord site n w → opcodeIs w 0x5B 1 → wRd w = 0 → wF7 w < 64 →
    (s.x site n (wRs1 w)).toNat < 2 ^ 16 → ownOk (s.x site n (wRs1 w)).toNat = true → (s.x site n (wRs2 w)).toNat < 2 ^ 48 →
    2 ^ 24 ≤ (s.x site n (wRs2 w)).toNat → (s.ctx site (wF7 w)).shd = some a → a.next < armCount a.desc → a.marks.length < 8 →
    Answers (.bzDep site n) s fun t => s.retired4 t site n ∧ (t.ctx site (wF7 w)).act = (s.ctx site (wF7 w)).act
      ∧ ((t.ctx site (wF7 w)).shd.map fun b => b.marks) = some (a.marks ++ [⟨(s.x site n (wRs1 w)).toNat, (s.x site n (wRs2 w)).toNat % 2 ^ 24,
          (s.x site n (wRs2 w)).toNat / 2 ^ 24⟩]) ∧ s.onlySlot t site n ∧ s.sameSlices t) ∧
  (∀ (s : State) (site : Site) (n : SlotId) (w : Nat), s.atWord site n w → opcodeIs w 0x5B 1 → wRd w = 0 → wF7 w < 64 →
    (s.x site n (wRs1 w)).toNat < 2 ^ 16 → ownOk (s.x site n (wRs1 w)).toNat = true → (s.x site n (wRs2 w)).toNat < 2 ^ 48 →
    2 ^ 24 ≤ (s.x site n (wRs2 w)).toNat → (s.ctx site (wF7 w)).shd = none → (s.ctx site (wF7 w)).act = none →
    Answers (.bzDep site n) s fun t => s.retired4 t site n
      ∧ t.fld (Reg.FE_MK_DROP_COUNT site) = min (2 ^ 32 - 1) (s.fld (Reg.FE_MK_DROP_COUNT site) + 1)
      ∧ (∀ d, t.ctx site d = s.ctx site d) ∧ s.onlySlot t site n ∧ s.sameSlices t) ∧
  (∀ (s : State) (site : Site) (n : SlotId) (w : Nat), s.atWord site n w → opcodeIs w 0x5B 2 → wRs1 w = 0 → wRs2 w = 0 → wF7 w < 64 →
    s.epochBusy site (wF7 w) = false →
    Answers (.bzScancel site n) s fun t => s.retired4 t site n ∧ (t.ctx site (wF7 w)).act = none ∧ (t.ctx site (wF7 w)).shd = none
      ∧ (∀ x ∈ (t.ctx site (wF7 w)).xfers, x.dead = true)
      ∧ t.fld (Reg.STR_STATE_EPOCH site (wF7 w)) = (s.fld (Reg.STR_STATE_EPOCH site (wF7 w)) + 1) % 16
      ∧ s.result t site n w (BitVec.ofNat 64 ((s.fld (Reg.STR_STATE_EPOCH site (wF7 w)) + 1) % 16))
      ∧ (∀ m, m ≠ n.val → t.slot site m = s.slot site m) ∧ s.otherClusters t site ∧ s.sameMem t
      ∧ t.tile = { s.tile with net := t.tile.net, arrived := t.tile.arrived } ∧ s.sameSlices t) ∧
  (∀ (s : State) (site : Site) (n : SlotId) (w : Nat), s.atWord site n w → opcodeIs w 0x5B 2 → wRs1 w = 0 → wRs2 w = 0 → wF7 w < 64 →
    s.epochBusy site (wF7 w) = true →
    Answers (.bzScancel site n) s fun t => s.stalled t site n ∧ (t.slot site n).wait = some (.cancel (wF7 w), 0))

/-- BZ.SEND, BZ.FILL, BZ.COPY and BZ.SIG (R48, R51, R61, R212, R213, R221): a send and a signal are recorded for the block's commit; a
fill or copy joins its queue with its descriptor as read. -/
def Obligations.SendsFillsAndSignalsAreRecorded : Prop :=
  (∀ (s : State) (site : Site) (n : SlotId) (w j r : Nat), s.atWord site n w → opcodeIs w 0x5B 3 → wRd w = 0 → wF7 w < 4 → s.clean site →
    j = (s.x site n (wRs1 w)).toNat → r = (s.x site n (wRs2 w)).toNat → j < 128 → j < 2 ^ (s.fld Reg.BEAT_CFG_K - 9) →
    (s.schedEntry site (wF7 w) j % 4 = 1 ∨ s.schedEntry site (wF7 w) j % 4 = 2) → r < 2 ^ 40 → r / 2 ^ 23 % 2 = 0 →
    1 ≤ r / 2 ^ 24 → r / 2 ^ 24 ≤ 32768 → r % 2 ^ 23 % 128 = 0 → r % 2 ^ 23 + r / 2 ^ 24 ≤ sliceSize site →
    Answers (.bzSend site n) s fun t => s.retired4 t site n
      ∧ (∃ x, (t.slot site n).blk.sends = (s.slot site n).blk.sends ++ [x] ∧ x.dir = wF7 w ∧ x.j = j ∧ x.src = r % 2 ^ 23
          ∧ x.len = r / 2 ^ 24)
      ∧ (t.cl site).sends = (s.cl site).sends ∧ s.onlySlot t site n ∧ s.sameSlices t ∧ s.sameRegs t (· = Reg.SLOT_STATUS site n)) ∧
  (∀ (s : State) (site : Site) (n : SlotId) (w d : Nat), s.atWord site n w → opcodeIs w 0x5B 4 → wRd w = 0 → wF7 w = 0 → s.clean site →
    s.descAt site (s.x site n (wRs1 w)).toNat = some d → copyOk .fill d (sliceSize site) = true →
    roomIn ((s.cl site).fills.drop 1) n = true →
    Answers (.bzFill site n) s fun t => s.retired4 t site n
      ∧ (∃ o, (t.cl site).fills = (s.cl site).fills ++ [o] ∧ o.kind = .fill ∧ o.desc = d ∧ o.arg = (s.x site n (wRs2 w)).toNat)
      ∧ s.onlySlot t site n ∧ s.sameSlices t) ∧
  (∀ (s : State) (site : Site) (n : SlotId) (w d : Nat), s.atWord site n w → opcodeIs w 0x5B 5 → wRd w = 0 → wRs2 w = 0 → wF7 w = 1 →
    s.clean site → s.descAt site (s.x site n (wRs1 w)).toNat = some d → copyOk .xcopy d (sliceSize site) = true →
    roomIn ((s.cl site).xcopies.drop 1) n = true →
    Answers (.bzCopy site n) s fun t => s.retired4 t site n
      ∧ (∃ o, (t.cl site).xcopies = (s.cl site).xcopies ++ [o] ∧ o.kind = .xcopy ∧ o.desc = d) ∧ (t.cl site).fills = (s.cl site).fills
      ∧ s.onlySlot t site n ∧ s.sameSlices t) ∧
  (∀ (s : State) (site : Site) (n : SlotId) (w d : Nat), s.atWord site n w → opcodeIs w 0x5B 5 → wRd w = 0 → wRs2 w = 0 → wF7 w = 0 →
    s.clean site → s.descAt site (s.x site n (wRs1 w)).toNat = some d → copyOk .copy d (sliceSize site) = true →
    roomIn ((s.cl site).fills.drop 1) n = true →
    Answers (.bzCopy site n) s fun t => s.retired4 t site n
      ∧ (∃ o, (t.cl site).fills = (s.cl site).fills ++ [o] ∧ o.kind = .copy ∧ o.desc = d) ∧ s.onlySlot t site n ∧ s.sameSlices t) ∧
  (∀ (s : State) (site : Site) (n : SlotId) (w r : Nat), s.atWord site n w → opcodeIs w 0x7B 0 → wRd w = 0 → wF7 w = 0 →
    r = (s.x site n (wRs1 w)).toNat → (r < 48 ∨ (2 ^ 14 ≤ r ∧ r < 2 ^ 14 + 2 ^ 12)) → -(2 ^ 24 - 1) ≤ (s.x site n (wRs2 w)).toInt →
    (s.x site n (wRs2 w)).toInt ≤ 2 ^ 24 - 1 →
    Answers (.bzSig site n) s fun t => s.retired4 t site n
      ∧ (∃ g, (t.slot site n).blk.sigs = (s.slot site n).blk.sigs ++ [g] ∧ g.ref = r ∧ g.inc = (s.x site n (wRs2 w)).toInt)
      ∧ s.onlySlot t site n ∧ s.sameRegs t (· = Reg.SLOT_STATUS site n)) ∧
  (∀ (s : State) (site : Site) (n : SlotId) (w r o dst : Nat), s.atWord site n w → opcodeIs w 0x7B 0 → wRd w = 0 → wF7 w = 0 →
    r = (s.x site n (wRs1 w)).toNat → r = 3 * 2 ^ 14 + o + dst * 2 ^ 16 → o < 48 → dst < 2 ^ 32 → dst % 16 = 9 → dst / 2 ^ 25 % 2 = 0 →
    -(2 ^ 24 - 1) ≤ (s.x site n (wRs2 w)).toInt → (s.x site n (wRs2 w)).toInt ≤ 2 ^ 24 - 1 →
    Answers (.bzSig site n) s fun t => s.retired4 t site n
      ∧ (∃ g, (t.slot site n).blk.sigs = (s.slot site n).blk.sigs ++ [g] ∧ g.ref = 3 * 2 ^ 14 + o ∧ g.dst = dst
          ∧ g.inc = (s.x site n (wRs2 w)).toInt)
      ∧ s.onlySlot t site n ∧ s.sameRegs t (· = Reg.SLOT_STATUS site n))

/-- Waiting (R225 to R227): a BZ.WAIT whose threshold is met retires, a subtracting one takes it from the pending delta first and then
from the committed value; one not met stalls, retires when it is met, lower slots with a subtracting wait first, and after SYNC_TMO marks
is a timeout of the slot. A cancel stall ends when its epoch is free. A stream context, an array feed and an engine that have waited
SYNC_TMO marks stop with a timeout. -/
def Obligations.WaitsEnd : Prop :=
  (∀ (s : State) (site : Site) (n : SlotId) (w : Nat), s.atWord site n w → opcodeIs w 0x7B 1 → wRd w = 0 → wF7 w = 0 →
    (s.x site n (wRs1 w)).toNat < 2 ^ 16 → ownOk (s.x site n (wRs1 w)).toNat = true → (s.x site n (wRs2 w)).toNat < 2 ^ 24 →
    ((s.x site n (wRs2 w)).toNat : Int) ≤ s.seen site n (s.x site n (wRs1 w)).toNat →
    Answers (.bzWait site n) s fun t => s.retired4 t site n ∧ (t.slot site n).blk = (s.slot site n).blk ∧ s.onlySlot t site n
      ∧ s.sameRegs t (· = Reg.SLOT_STATUS site n)) ∧
  (∀ (s : State) (site : Site) (n : SlotId) (w o thr : Nat), s.atWord site n w → opcodeIs w 0x7B 1 → wRd w = 0 → wF7 w = 1 →
    o = (s.x site n (wRs1 w)).toNat → thr = (s.x site n (wRs2 w)).toNat → o < 48 → thr < 2 ^ 24 → (thr : Int) ≤ s.seen site n o →
    Answers (.bzWait site n) s fun t => s.retired4 t site n ∧ s.took t site n o thr ∧ s.onlySlot t site n ∧ s.sameSlices t
      ∧ s.sameRegs t (fun a => a = Reg.SLOT_STATUS site n ∨ a = Reg.SYNC_VAL site o)) ∧
  (∀ (s : State) (site : Site) (n : SlotId) (w : Nat), s.atWord site n w → opcodeIs w 0x7B 1 → wRd w = 0 → wF7 w < 2 →
    (s.x site n (wRs1 w)).toNat < 2 ^ 16 → ownOk (s.x site n (wRs1 w)).toNat = true →
    (wF7 w = 1 → (s.x site n (wRs1 w)).toNat < 48) → (s.x site n (wRs2 w)).toNat < 2 ^ 24 →
    s.seen site n (s.x site n (wRs1 w)).toNat < ((s.x site n (wRs2 w)).toNat : Int) →
    Answers (.bzWait site n) s fun t => s.stalled t site n
      ∧ (t.slot site n).wait = some (.object (s.x site n (wRs1 w)).toNat (s.x site n (wRs2 w)).toNat (decide (wF7 w = 1)), 0)) ∧
  (∀ (s : State) (site : Site) (n : SlotId) (w : Nat), s.atWord site n w → opcodeIs w 0x7B 1 → (s.slot site n).blk.failed = false →
    (wRd w ≠ 0 ∨ 2 ≤ wF7 w ∨ 2 ^ 16 ≤ (s.x site n (wRs1 w)).toNat ∨ ownOk (s.x site n (wRs1 w)).toNat = false
      ∨ (wF7 w = 1 ∧ 2 ^ 14 ≤ (s.x site n (wRs1 w)).toNat) ∨ 2 ^ 24 ≤ (s.x site n (wRs2 w)).toNat) →
    Answers (.bzWait site n) s fun t => t.trapped site n 2 ∧ s.givenUp t site n ∧ s.sameMem t) ∧
  (∀ (s : State) (site : Site) (n : SlotId) (ref thr k : Nat), s.alive = true → (s.slot site n).wait = some (.object ref thr false, k) →
    (thr : Int) ≤ s.seen site n ref →
    Answers (.waitMet site n) s fun t => s.retired4 t site n ∧ (t.slot site n).wait = none ∧ (t.slot site n).blk = (s.slot site n).blk
      ∧ s.onlySlot t site n ∧ s.sameRegs t (· = Reg.SLOT_STATUS site n)) ∧
  (∀ (s : State) (site : Site) (n : SlotId) (o thr k : Nat), s.alive = true → (s.slot site n).wait = some (.object o thr true, k) →
    o < 48 → thr < 2 ^ 24 → (thr : Int) ≤ s.seen site n o → s.servedFirst site n = false →
    Answers (.waitMet site n) s fun t => s.retired4 t site n ∧ (t.slot site n).wait = none ∧ s.took t site n o thr ∧ s.onlySlot t site n
      ∧ s.sameSlices t ∧ s.sameRegs t (fun a => a = Reg.SLOT_STATUS site n ∨ a = Reg.SYNC_VAL site o)) ∧
  (∀ (s : State) (site : Site) (n : SlotId) (d k : Nat), s.alive = true → (s.slot site n).wait = some (.cancel d, k) →
    s.epochBusy site d = false →
    Answers (.waitMet site n) s fun t => t.slot site n = { s.slot site n with wait := none } ∧ t.regs = s.regs ∧ s.onlySlot t site n
      ∧ s.sameSlices t) ∧
  (∀ (s : State) (site : Site) (n : SlotId), (s.waitHolds site n = false ∨ s.servedFirst site n = true) →
    Answers (.waitMet site n) s fun t => t = s) ∧
  (∀ (s : State) (site : Site) (n : SlotId) (w : Wait) (k : Nat), s.alive = true → s.live site = true →
    (s.slot site n).wait = some (w, k) → s.fld (Reg.SYNC_TMO_BEATS site) ≤ k → (s.slot site n).blk.failed = false →
    Answers (.waitTmo site (.slot n)) s fun t => t.slotState site n = slFault ∧ (t.slot site n).wait = none
      ∧ (∃ e ∈ t.tile.errs, e.cls = 0x07 ∧ e.reason = 0x0801 ∧ e.site = some site.val) ∧ s.givenUp t site n ∧ s.sameMem t) ∧
  (∀ (s : State) (site : Site) (d : CtxId) (a : Arm) (m : Marker) (l : List Marker), s.alive = true → s.live site = true →
    (s.ctx site d).act = some a → (s.ctx site d).stop = false → (s.ctx site d).stall = none → a.marks = m :: l →
    s.fld (Reg.SYNC_TMO_BEATS site) ≤ a.waited →
    Answers (.waitTmo site (.ctx d)) s fun t => (t.ctx site d).stop = true ∧ s.sameSlices t ∧ s.sameMem t) ∧
  (∀ (s : State) (site : Site) (d : CtxId) (a : Arm) (l k : Nat), s.alive = true → s.live site = true →
    (s.ctx site d).act = some a → (s.ctx site d).stop = false → (s.ctx site d).stall = some (l, k) → a.marks = [] →
    s.fld (Reg.SYNC_TMO_BEATS site) ≤ k →
    Answers (.waitTmo site (.ctx d)) s fun t => (t.ctx site d).stop = true ∧ (t.ctx site d).stall = none ∧ s.sameSlices t ∧ s.sameMem t) ∧
  (∀ (s : State) (site : Site) (a : ArrId) (r : Run) (l k : Nat), s.alive = true → s.live site = true → (s.arr site a).cur = some r →
    (s.arr site a).stall = some (l, k) → a.val ∈ r.op.arrays → s.fld (Reg.SYNC_TMO_BEATS site) ≤ k →
    (s.slot site r.op.slot).blk.failed = false →
    Answers (.waitTmo site (.array a)) s fun t => (t.arr site a).cur = none ∧ (t.arr site a).stall = none
      ∧ (∃ e ∈ t.tile.errs, e.cls = 0x07 ∧ e.reason = 0x0801 ∧ e.landing = true ∧ e.site = some site.val) ∧ s.sameSlices t ∧ s.sameMem t) ∧
  (∀ (s : State) (site : Site) (e : EngId) (r : VRun) (l k : Nat), s.alive = true → s.live site = true → (s.eng site e).cur = some r →
    (s.eng site e).stall = some (l, k) → s.fld (Reg.SYNC_TMO_BEATS site) ≤ k → (s.slot site r.op.slot).blk.failed = false →
    Answers (.waitTmo site (.engine e)) s fun t => (t.eng site e).cur = none ∧ (t.eng site e).stall = none
      ∧ (∃ x ∈ t.tile.errs, x.cls = 0x07 ∧ x.reason = 0x0801 ∧ x.landing = true ∧ x.site = some site.val) ∧ s.sameSlices t ∧ s.sameMem t)

/-- BZ.BAR, BZ.ENDB and BZ.MARK (R46, R47, R53, R231): an arrival is recorded with the generation it counts toward, or with 0xFFFF where
the slot does not take part; the end of a block leaves the slot COMMITTING with the next block's code in its buffer; BZ.MARK reads
`BEAT_COUNT`. That a slot of a tile which TILES leaves out takes no part is the model's reading (log entry 64). -/
def Obligations.BlockEndsAndArrivals : Prop :=
  (∀ (s : State) (site : Site) (n : SlotId) (w b : Nat), s.atWord site n w → opcodeIs w 0x7B 2 → wRs2 w = 0 → wF7 w < 2 → b < 64 →
    (s.x site n (wRs1 w)).toNat = b + 2 ^ 15 →
    (s.flag (Reg.BAR_CFG_EN b) = false ∨ (s.barMask site b).testBit n = false ∨ s.barTile b = false) →
    Answers (.bzBar site n) s fun t => s.retired4 t site n ∧ s.result t site n w 0xFFFF
      ∧ (t.slot site n).blk.bars = (s.slot site n).blk.bars ++ [(b, false, none)] ∧ s.onlySlot t site n
      ∧ s.sameRegs t (· = Reg.SLOT_STATUS site n)) ∧
  (∀ (s : State) (site : Site) (n : SlotId) (w b g : Nat), s.atWord site n w → opcodeIs w 0x7B 2 → wRs2 w = 0 → wF7 w < 2 → b < 64 →
    (s.x site n (wRs1 w)).toNat = b + 2 ^ 15 → s.flag (Reg.BAR_CFG_EN b) = true → (s.barMask site b).testBit n = true →
    s.barTile b = true →
    g = (Store.get 0 (s.slot site n).arrived b + ((s.slot site n).blk.bars.filter fun p => p.1 == b && p.2.2.isSome).length) % 2 ^ 16 →
    Answers (.bzBar site n) s fun t => s.retired4 t site n ∧ s.result t site n w (BitVec.ofNat 64 g)
      ∧ (t.slot site n).blk.bars = (s.slot site n).blk.bars ++ [(b, decide (wF7 w = 0), some g)]
      ∧ s.onlySlot t site n ∧ s.sameRegs t (· = Reg.SLOT_STATUS site n)) ∧
  (∀ (s : State) (site : Site) (n : SlotId) (w : Nat), s.atWord site n w → opcodeIs w 0x7B 3 → wRd w = 0 → wRs2 w = 0 → wF7 w = 0 →
    (s.slot site n).blk.last = true → (s.slot site n).blk.failed = false →
    Answers (.bzEndb site n) s fun t => t.committing site n = true ∧ (t.slot site n).copied = false
      ∧ (t.slot site n).blk = (s.slot site n).blk ∧ s.onlySlot t site n ∧ s.sameRegs t (· = Reg.SLOT_STATUS site n)) ∧
  (∀ (s : State) (site : Site) (n : SlotId) (w nxt : Nat), s.atWord site n w → opcodeIs w 0x7B 3 → wRd w = 0 → wRs2 w = 0 → wF7 w < 2 →
    (s.slot site n).blk.last = false → (s.slot site n).blk.failed = false → s.clean site →
    (wF7 w = 0 → nxt = (if s.fld (Reg.SLOT_CFG_ENTRIES site n) ≤ s.fld (Reg.SLOT_STATUS_ENTRY site n) + 1 then 0
      else s.fld (Reg.SLOT_STATUS_ENTRY site n) + 1)) →
    (wF7 w = 1 → nxt = (s.x site n (wRs1 w)).toNat ∧ nxt < s.fld (Reg.SLOT_CFG_ENTRIES site n)) →
    Answers (.bzEndb site n) s fun t => t.committing site n = true ∧ (t.slot site n).copied = true ∧ (t.slot site n).next = nxt
      ∧ (t.slot site n).blk.id = (s.slot site n).blk.id ∧ s.onlySlot t site n ∧ s.sameSlices t) ∧
  (∀ (s : State) (site : Site) (n : SlotId) (w : Nat), s.atWord site n w → opcodeIs w 0x7B 6 → wRs1 w = 0 → wRs2 w = 0 → wF7 w = 0 →
    Answers (.bzMark site n) s fun t => s.retired4 t site n ∧ s.result t site n w (BitVec.ofNat 64 (s.rd64 Reg.BEAT_COUNT))
      ∧ s.onlySlot t site n ∧ s.sameRegs t (· = Reg.SLOT_STATUS site n))

/-- The batcher (R68, R69): a row joins the batch and the count comes back (with the batcher off only the count: log entry 25), the 128th row releases the batch in that cycle, and while 128
rows wait for room BZ.BATCH stalls; BZ.BFLUSH and the batch limit release what has gathered: a stream of exactly those rows with the
template of `BATCH_DESC`, charged to `BATCH_CFG.SLOT`; an empty batch releases nothing. -/
def Obligations.BatcherGathersRows : Prop :=
  (∀ (s : State) (site : Site) (n : SlotId) (w : Nat), s.atWord site n w → opcodeIs w 0x7B 4 → isVector site = false → wRs2 w = 0 →
    wF7 w < 4 → s.flag (Reg.BATCH_CFG_EN site) = true → (s.arr site (wF7 w)).batch.length < 127 →
    Answers (.bzBatch site n) s fun t => s.retired4 t site n
      ∧ (t.arr site (wF7 w)).batch = (s.arr site (wF7 w)).batch ++ [(s.x site n (wRs1 w)).toNat]
      ∧ s.result t site n w (BitVec.ofNat 64 ((s.arr site (wF7 w)).batch.length + 1))
      ∧ t.fld (Reg.BATCH_STATUS_ROWS site (wF7 w)) = (s.arr site (wF7 w)).batch.length + 1
      ∧ (∀ a, a ≠ wF7 w → t.arr site a = s.arr site a) ∧ s.onlySlot t site n
      ∧ s.sameRegs t (fun o => o = Reg.SLOT_STATUS site n ∨ o = Reg.BATCH_STATUS site (wF7 w))) ∧
  (∀ (s : State) (site : Site) (n : SlotId) (w : Nat) (rows : List Nat), s.atWord site n w → opcodeIs w 0x7B 4 → isVector site = false →
    wRs2 w = 0 → wF7 w < 4 → s.flag (Reg.BATCH_CFG_EN site) = true →
    rows = (s.arr site (wF7 w)).batch ++ [(s.x site n (wRs1 w)).toNat] → rows.length = 128 →
    Answers (.bzBatch site n) s fun t => s.retired4 t site n ∧ s.result t site n w 128
      ∧ (if roomIn (s.arr site (wF7 w)).queue (s.fld (Reg.BATCH_CFG_SLOT site)) then
          (t.arr site (wF7 w)).batch = []
            ∧ ∃ o, (t.arr site (wF7 w)).queue = (s.arr site (wF7 w)).queue ++ [o] ∧ o.kind = .astream ∧ o.batch = some rows
              ∧ o.arg = 128 ∧ o.desc = s.fld (Reg.BATCH_DESC_ADDR site (wF7 w))
              ∧ o.slot = s.fld (Reg.BATCH_CFG_SLOT site)
        else (t.arr site (wF7 w)).batch = rows ∧ (t.arr site (wF7 w)).queue = (s.arr site (wF7 w)).queue)
      ∧ (∀ a, a ≠ wF7 w → t.arr site a = s.arr site a) ∧ s.onlySlot t site n ∧ s.sameSlices t) ∧
  (∀ (s : State) (site : Site) (n : SlotId) (w : Nat), s.atWord site n w → opcodeIs w 0x7B 4 → isVector site = false → wRs2 w = 0 →
    wF7 w < 4 → s.flag (Reg.BATCH_CFG_EN site) = true → 128 ≤ (s.arr site (wF7 w)).batch.length →
    Answers (.bzBatch site n) s fun t => s.stalled t site n ∧ ∀ a, t.arr site a = s.arr site a) ∧
  (∀ (s : State) (site : Site) (n : SlotId) (w : Nat), s.atWord site n w → opcodeIs w 0x7B 4 → isVector site = false → wRs2 w = 0 →
    wF7 w < 4 → s.flag (Reg.BATCH_CFG_EN site) = false →
    Answers (.bzBatch site n) s fun t => s.retired4 t site n ∧ s.result t site n w (BitVec.ofNat 64 (s.arr site (wF7 w)).batch.length)
      ∧ (∀ a, t.arr site a = s.arr site a) ∧ s.onlySlot t site n ∧ s.sameRegs t (· = Reg.SLOT_STATUS site n)) ∧
  (∀ (s : State) (site : Site) (n : SlotId) (w : Nat), s.atWord site n w → opcodeIs w 0x7B 5 → isVector site = false → wRd w = 0 →
    wRs1 w = 0 → wRs2 w = 0 → wF7 w < 4 → (s.arr site (wF7 w)).batch ≠ [] →
    roomIn (s.arr site (wF7 w)).queue (s.fld (Reg.BATCH_CFG_SLOT site)) = false →
    Answers (.bzBflush site n) s fun t => s.stalled t site n ∧ ∀ a, t.arr site a = s.arr site a) ∧
  (∀ (s : State) (site : Site) (n : SlotId) (w : Nat), s.atWord site n w → opcodeIs w 0x7B 5 → isVector site = false → wRd w = 0 →
    wRs1 w = 0 → wRs2 w = 0 → wF7 w < 4 → (s.arr site (wF7 w)).batch = [] →
    Answers (.bzBflush site n) s fun t => s.retired4 t site n ∧ (∀ a, t.arr site a = s.arr site a) ∧ s.onlySlot t site n
      ∧ s.sameRegs t (· = Reg.SLOT_STATUS site n)) ∧
  (∀ (s : State) (site : Site) (n : SlotId) (w : Nat), s.atWord site n w → opcodeIs w 0x7B 5 → isVector site = false → wRd w = 0 →
    wRs1 w = 0 → wRs2 w = 0 → wF7 w < 4 → (s.arr site (wF7 w)).batch ≠ [] →
    roomIn (s.arr site (wF7 w)).queue (s.fld (Reg.BATCH_CFG_SLOT site)) = true →
    Answers (.bzBflush site n) s fun t => s.retired4 t site n ∧ (t.arr site (wF7 w)).batch = []
      ∧ (∃ o, (t.arr site (wF7 w)).queue = (s.arr site (wF7 w)).queue ++ [o] ∧ o.kind = .astream
          ∧ o.batch = some (s.arr site (wF7 w)).batch ∧ o.arg = (s.arr site (wF7 w)).batch.length
          ∧ o.desc = s.fld (Reg.BATCH_DESC_ADDR site (wF7 w))
          ∧ o.slot = s.fld (Reg.BATCH_CFG_SLOT site))
      ∧ s.onlySlot t site n ∧ s.sameSlices t) ∧
  (∀ (s : State) (site : Site) (a : ArrId), s.alive = true → (s.arr site a).batch = [] → exec (.batchLimitRelease site a) s = .next s) ∧
  ∀ (s : State) (site : Site) (a : ArrId), s.alive = true → s.live site = true → isVector site = false →
    (s.fld (Reg.BATCH_CFG_LIMIT_BEATS site) ≠ 0 ∧ s.fld (Reg.BATCH_CFG_LIMIT_BEATS site) ≤ s.fld (Reg.BATCH_STATUS_WAITED site a)
      ∨ 128 ≤ (s.arr site a).batch.length) →
    (s.arr site a).batch ≠ [] → roomIn (s.arr site a).queue (s.fld (Reg.BATCH_CFG_SLOT site)) = true →
    Answers (.batchLimitRelease site a) s fun t => (t.arr site a).batch = []
      ∧ (∃ o, (t.arr site a).queue = (s.arr site a).queue ++ [o] ∧ o.kind = .astream ∧ o.batch = some (s.arr site a).batch
          ∧ o.arg = (s.arr site a).batch.length ∧ o.desc = s.fld (Reg.BATCH_DESC_ADDR site a) ∧ o.slot = s.fld (Reg.BATCH_CFG_SLOT site))
      ∧ t.fld (Reg.BATCH_STATUS_ROWS site a) = 0 ∧ t.fld (Reg.BATCH_STATUS_WAITED site a) = 0
      ∧ (∀ b, b ≠ a → t.arr site b = s.arr site b) ∧ s.otherClusters t site ∧ s.sameMem t ∧ s.sameSlices t ∧ t.tile = s.tile


/-! ## Arrays, engines, streams -/

/-- Matrix arrays (R120, R125 to R134, R142, R145, R147): a load starts once the cells of its arrays are left, and fills them; a stream
starts once its arrays hold weights; an init writes its entries. Each row enters the arrays of its stream together, is counted and
advances the stream; one that lies in a landing slot binds it, and stalls where the slot is not FULL; after 64 rows, and after the
last, a checksum row enters; a failed check is counted and charged; idle cycles of an active array fill with dummy rows. Array
operations complete (R111, R112, R120, R130, R132, R134): a load leaves valid weights, and every operation its status record, the sum
of its arrays' shares, in the slice. What this says beyond the rules' words is the model's reading (log entries
26, 29, 34, 74, 79 and 80). -/
def Obligations.ArrayOperationsRunAndComplete : Prop :=
  (∀ (s : State) (site : Site) (a : ArrId) (o : Op) (as : List Nat) (d : Nat), s.alive = true → s.live site = true →
    isVector site = false → (s.arr site a).queue.head? = some o → o.kind = .aload → as = (if o.gang then o.arrays else [a.val]) →
    (∀ b ∈ as, s.atHead site b o ∧ ∀ r ∈ (s.arr site b).runs, r.done = true) →
    s.descAt site o.desc = some d → s.loadOk site o d = true → s.clean site → s.noFullBatch site →
    Answers (.arrayOpStart site a) s fun t =>
      (∀ b ∈ as, (t.arr site b).queue = (s.arr site b).queue.tail ∧ (t.arr site b).past = (s.arr site b).runs
        ∧ (∃ r, (t.arr site b).cur = some r ∧ r.op = o ∧ r.dv = d ∧ r.done = true)
        ∧ (t.arr site b).cells = s.loadCells site d (if o.gang then 0 else b * bits d 224 23) (probsOf o)
        ∧ (t.arr site b).k = bits d 133 9 ∧ (t.arr site b).n = bits d 142 7 ∧ t.fld (Reg.ARR_STATUS_WFMT site b) = bits d 128 5)
      ∧ (∀ b, b ∉ as → t.arr site b = s.arr site b) ∧ (t.cl site).acc = (s.cl site).acc
      ∧ s.otherClusters t site ∧ s.sameMem t ∧ s.sameSlices t ∧ t.tile = s.tile) ∧
  (∀ (s : State) (site : Site) (a : ArrId) (o : Op) (d : Nat), s.alive = true → s.live site = true → isVector site = false →
    (s.arr site a).queue.head? = some o → o.kind = .astream →
    (∀ b ∈ o.arrays, s.atHead site b o ∧ (s.arr site b).inits = [] ∧ ∀ r ∈ (s.arr site b).runs, r.op.kind = .aload ∧ r.done = true) →
    s.descAt site o.desc = some d → s.streamOk site o d = true → s.clean site → s.noFullBatch site →
    Answers (.arrayOpStart site a) s fun t =>
      (∀ b ∈ o.arrays, (t.arr site b).queue = (s.arr site b).queue.tail ∧ (t.arr site b).past = (s.arr site b).runs
        ∧ ∃ r, (t.arr site b).cur = some r ∧ r.op = o ∧ r.dv = d ∧ r.row = 0 ∧ r.fed = 0 ∧ r.bank = s.workBank site b
          ∧ r.done = (!s.weighted site b || (s.arr site b).k == 0 || (s.nextRow site d 0 o.arg).isNone))
      ∧ (∀ b, b ∉ o.arrays → t.arr site b = s.arr site b) ∧ (t.cl site).acc = (s.cl site).acc
      ∧ s.otherClusters t site ∧ s.sameMem t ∧ s.sameSlices t) ∧
  (∀ (s : State) (site : Site) (a : ArrId) (o : Op) (d : Nat), s.alive = true → s.live site = true → isVector site = false →
    (s.arr site a).queue.head? = some o → o.kind = .ainit →
    (∀ b ∈ o.arrays, s.atHead site b o ∧ s.bankHeld site b (s.workBank site b) = false
      ∧ ∀ r ∈ (s.arr site b).runs, r.op.kind = .aload ∨ r.done = true) →
    s.descAt site o.desc = some d → s.ainitOk site o d = true → s.clean site → s.noFullBatch site →
    bits d 21 5 = 0 → bits d 26 1 = 0 → bits o.f7 4 1 = 0 →
    Answers (.arrayOpStart site a) s fun t =>
      (∀ b ∈ o.arrays, (t.arr site b).queue = (s.arr site b).queue.tail ∧ t.flag (Reg.ARR_STATUS_INIT_BUSY site b) = true
        ∧ (∃ r, (t.arr site b).inits = (s.arr site b).inits ++ [r] ∧ r.op = o ∧ r.dv = d)
        ∧ ∀ c j, c < 64 → j < 1024 → (t.cl site).accGet (s.workBank site b) b c j =
            if ∃ i, i < bits d 10 11 ∧ j = (bits d 0 10 + i) % 1024 then 0 else (s.cl site).accGet (s.workBank site b) b c j)
      ∧ (∀ b, b ∉ o.arrays → t.arr site b = s.arr site b) ∧ s.otherClusters t site ∧ s.sameMem t ∧ s.sameSlices t ∧ t.tile = s.tile) ∧
  (∀ (s : State) (site : Site) (a : ArrId) (r : Run) (i : Nat), s.alive = true → s.live site = true → (s.arr site a).cur = some r →
    a.val ∈ r.op.arrays → r.done = false → r.op.kind = .astream → r.fed ≠ 64 →
    s.nextRow site r.dv r.row (r.op.arg - r.row) = some i → s.clean site →
    (∀ b ∈ s.feeders site r.op, s.bankHeld site b r.bank = false ∧ (s.rowRanges site b r.op r.dv i).2 = none) →
    Answers (.arrayRowEntry site a) s fun t =>
      (∀ b ∈ s.feeders site r.op, ∀ p, (s.arr site b).cur = some p → (∃ q, (t.arr site b).cur = some q ∧ q.op = p.op ∧ q.row = i + 1
          ∧ q.fed = p.fed + 1 ∧ q.total = p.total + 1 ∧ q.done = false)
        ∧ (t.arr site b).active = true ∧ (t.arr site b).idle = 0
        ∧ t.fld (Reg.ARR_ROWS_ROWS site b) = min (2 ^ 32 - 1) (s.fld (Reg.ARR_ROWS_ROWS site b) + 1))
      ∧ (∀ b, b ∉ s.feeders site r.op → (t.arr site b).cur = (s.arr site b).cur)
      ∧ s.otherClusters t site ∧ s.sameMem t ∧ s.sameSlices t) ∧
  (∀ (s : State) (site : Site) (a : ArrId) (r : Run) (i l : Nat), s.alive = true → s.live site = true → (s.arr site a).cur = some r →
    s.feeders site r.op = [a.val] → r.done = false → r.op.kind = .astream → r.fed ≠ 64 →
    s.nextRow site r.dv r.row (r.op.arg - r.row) = some i → s.clean site → s.bankHeld site a r.bank = false →
    (s.rowRanges site a r.op r.dv i).2 = some l → l < 1024 → r.bound.contains l = false → s.land site l = 2 →
    s.readerFirst site l (a + 1) = false →
    Answers (.arrayRowEntry site a) s fun t => (∃ q, (t.arr site a).cur = some q ∧ q.op = r.op ∧ q.row = i + 1 ∧ q.bound = r.bound ++ [l])
      ∧ t.land site l = (if s.slotLeft site r.op r.dv i l [a.val] then 3 else 0) ∧ (t.arr site a).stall = none
      ∧ s.otherClusters t site ∧ s.sameMem t ∧ s.sameSlices t) ∧
  (∀ (s : State) (site : Site) (a : ArrId) (r : Run) (i l : Nat), s.alive = true → s.live site = true → (s.arr site a).cur = some r →
    s.feeders site r.op = [a.val] → r.done = false → r.op.kind = .astream → r.fed ≠ 64 →
    s.nextRow site r.dv r.row (r.op.arg - r.row) = some i → s.clean site → s.bankHeld site a r.bank = false →
    (s.rowRanges site a r.op r.dv i).2 = some l → r.bound.contains l = false → s.land site l ≠ 2 →
    Answers (.arrayRowEntry site a) s fun t => (t.arr site a).cur = some r ∧ ((t.arr site a).stall.map fun q => q.1) = some l
      ∧ s.sameRegs t (fun _ => False) ∧ (t.cl site).acc = (s.cl site).acc
      ∧ s.otherClusters t site ∧ s.sameMem t ∧ s.sameSlices t ∧ t.tile = s.tile) ∧
  (∀ (s : State) (site : Site) (a : ArrId) (r : Run), s.alive = true → s.live site = true → (s.arr site a).cur = some r →
    a.val ∈ r.op.arrays → r.done = false → r.op.kind = .astream →
    (r.fed = 64 ∨ s.nextRow site r.dv r.row (r.op.arg - r.row) = none) →
    Answers (.arrayRowEntry site a) s fun t =>
      (∀ b ∈ s.feeders site r.op, ∀ p, (s.arr site b).cur = some p →
        (∃ q, (t.arr site b).cur = some q ∧ q.op = p.op ∧ q.row = p.row ∧ q.fed = 0 ∧ q.total = p.total)
        ∧ t.fld (Reg.ARR_CSROWS_ROWS site b) = min (2 ^ 32 - 1) (s.fld (Reg.ARR_CSROWS_ROWS site b) + 1))
      ∧ (∃ q, (t.arr site a).cur = some q ∧ q.done = (s.nextRow site r.dv r.row (r.op.arg - r.row)).isNone)
      ∧ (t.cl site).acc = (s.cl site).acc ∧ s.otherClusters t site ∧ s.sameMem t ∧ s.sameSlices t) ∧
  (∀ (s : State) (site : Site) (a : ArrId) (row : Bool) (entry : Fin 1024) (col : Fin 64) (r : Run), s.alive = true →
    s.live site = true → ((s.arr site a).runs.find? fun r => r.op.kind == .astream && r.total != 0) = some r →
    (s.slot site r.op.slot).blk.failed = false →
    Answers (.arrayCheckFail site a row entry col) s fun t =>
      t.fld (Reg.ARR_CS_FAIL_ROW site a) = min (2 ^ 16 - 1) (s.fld (Reg.ARR_CS_FAIL_ROW site a) + row.toNat)
      ∧ t.fld (Reg.ARR_CS_FAIL_COLUMN site a) = min (2 ^ 16 - 1) (s.fld (Reg.ARR_CS_FAIL_COLUMN site a) + (!row).toNat)
      ∧ t.fld (Reg.ARR_CS_LAST_ENTRY site a) = entry.val ∧ t.fld (Reg.ARR_CS_LAST_COLUMN site a) = (if row then col.val else 0)
      ∧ t.flag (Reg.ARR_CS_LAST_VALID site a) = true
      ∧ (∃ e ∈ t.tile.errs, e.cls = 0x01 ∧ e.site = some site.val) ∧ s.otherClusters t site ∧ s.sameMem t ∧ s.sameSlices t) ∧
  (∀ (s : State) (site : Site) (a : ArrId), s.alive = true → s.live site = true → (s.arr site a).active = true →
    (s.arr site a).loading = false → (s.arr site a).idle < 256 → s.flag (Reg.ARR_CTL_DUMMY_EN site a) = true →
    Answers (.dummyRow site a) s fun t => (t.arr site a).idle = (s.arr site a).idle + 1 ∧ (t.cl site).acc = (s.cl site).acc
      ∧ t.fld (Reg.ARR_DUMMY_ROWS site a) = min (2 ^ 32 - 1) (s.fld (Reg.ARR_DUMMY_ROWS site a) + 1)
      ∧ s.otherClusters t site ∧ s.sameMem t ∧ s.sameSlices t ∧ t.tile = s.tile) ∧
  (∀ (s : State) (site : Site) (a : ArrId), s.alive = true → s.live site = true → (s.arr site a).active = true →
    (s.arr site a).loading = false → ((s.arr site a).idle = 256 ∨ s.flag (Reg.ARR_CTL_DUMMY_EN site a) = false) →
    Answers (.arrayIdle site a) s fun t => (t.arr site a).active = false ∧ (t.arr site a).idle = 0
      ∧ s.sameRegs t (· = Reg.ARR_STATUS site a) ∧ s.otherClusters t site ∧ s.sameMem t ∧ s.sameSlices t ∧ t.tile = s.tile) ∧
  (∀ (s : State) (site : Site) (a : ArrId) (r : Run), s.alive = true → s.live site = true → s.firstDone site a = some r →
    r.op.kind = .aload → r.op.arrays = [a.val] → r.op.gang = false → s.clean site →
    Answers (.loadComplete site a) s fun t => t.over site a r.op ∧ t.flag (Reg.ARR_STATUS_WVALID site a) = true
      ∧ s.recordAt t site (bits r.dv 256 23) (shareSum [(a.val, (Store.get {} (s.cl site).parts r.op.id).merge r.stat)])
      ∧ (t.arr site a).cells = (s.arr site a).cells ∧ s.sameMem t) ∧
  (∀ (s : State) (site : Site) (a : ArrId) (r : Run) (sh : List (Nat × Rec)), s.alive = true → s.live site = true →
    s.firstDone site a = some r → r.op.kind = .aload → r.op.gang = true → s.sharesOf site r.op = some sh → s.clean site →
    Answers (.loadComplete site a) s fun t =>
      (∀ b ∈ r.op.arrays, t.over site b r.op ∧ t.flag (Reg.ARR_STATUS_WVALID site b) = true ∧ (t.arr site b).cells = (s.arr site b).cells)
      ∧ s.recordAt t site (bits r.dv 256 23) (shareSum sh) ∧ s.sameMem t) ∧
  (∀ (s : State) (site : Site) (a : ArrId) (r : Run) (sh : List (Nat × Rec)), s.alive = true → s.live site = true →
    s.firstDone site a = some r → r.op.kind = .astream → r.op.batch = none → s.sharesOf site r.op = some sh → s.clean site →
    Answers (.streamComplete site a) s fun t => (∀ b ∈ r.op.arrays, t.over site b r.op)
      ∧ s.recordAt t site (bits r.dv 256 23) (shareSum sh) ∧ (t.cl site).acc = (s.cl site).acc ∧ s.sameMem t) ∧
  (∀ (s : State) (site : Site) (a : ArrId) (r : Run) (sh : List (Nat × Rec)) (rows : List Nat), s.alive = true → s.live site = true →
    s.firstDone site a = some r → r.op.kind = .astream → r.op.batch = some rows → s.sharesOf site r.op = some sh → s.clean site →
    (bits r.dv 320 23 + 4 * rows.length ≤ bits r.dv 256 23 ∨ bits r.dv 256 23 + 16 ≤ bits r.dv 320 23) →
    Answers (.streamComplete site a) s fun t => (∀ b ∈ r.op.arrays, t.over site b r.op)
      ∧ t.sliceBytes site (bits r.dv 320 23) (4 * rows.length) = rows.flatMap (leBytes 4)
      ∧ leNat (t.sliceBytes site (bits r.dv 256 23) 16) = (shareSum sh).pack % 2 ^ 128
      ∧ (t.cl site).acc = (s.cl site).acc ∧ s.sameMem t) ∧
  (∀ (s : State) (site : Site) (a : ArrId) (r : Run) (l : List Run), s.alive = true → s.live site = true →
    (s.arr site a).inits = r :: l → r.op.arrays = [a.val] → s.clean site →
    Answers (.ainitComplete site a) s fun t => (t.arr site a).inits = l.filter (fun q => q.op.id != r.op.id)
      ∧ t.flag (Reg.ARR_STATUS_INIT_BUSY site a) = !(t.arr site a).inits.isEmpty
      ∧ s.recordAt t site (bits r.dv 128 23) (shareSum [(a.val, r.stat)])
      ∧ (t.cl site).acc = (s.cl site).acc ∧ s.sameMem t)

/-- Vector engines (R111, R112, R162, R163, R176, R179): a legal operation starts with its descriptor as it stands, and goes on where it
stalled; one whose first input slot is not FULL stalls there; one with an illegal descriptor traps its slot; completion leaves the
engine free and the status record in the slice; idle cycles fill with dummy operations, and 256 of them, or none where they are off,
end the activity. What this says beyond the rules' words is the model's reading (log entry 34). -/
def Obligations.VectorOperationsRun : Prop :=
  (∀ (s : State) (site : Site) (e : EngId) (o : Op) (l : List Op) (d : Nat), s.alive = true → s.live site = true →
    (s.eng site e).cur = none → s.fld (Reg.VE_STATUS_STATE site e) ≠ 6 → (s.eng site e).queue = o :: l →
    s.descAt site o.desc = some d → s.vecOk site e o d = true → s.clean site →
    Answers (.vectorOpStart site e) s fun t => (t.eng site e).queue = l
      ∧ (∃ r, (t.eng site e).cur = some r ∧ r.op = o ∧ r.dv = d) ∧ (t.eng site e).active = true ∧ (t.eng site e).idle = 0
      ∧ (∀ k, k ≠ e.val → (t.eng site k).cur = (s.eng site k).cur) ∧ s.otherClusters t site ∧ s.sameMem t) ∧
  (∀ (s : State) (site : Site) (e : EngId) (r : VRun), s.alive = true → s.live site = true →
    (s.eng site e).cur = some r → r.over = false →
    Answers (.vectorOpStart site e) s fun t => (t.eng site e).queue = (s.eng site e).queue
      ∧ (∃ q, (t.eng site e).cur = some q ∧ q.op = r.op ∧ q.dv = r.dv ∧ q.ros = r.ros) ∧ (t.eng site e).active = true
      ∧ (t.eng site e).idle = 0 ∧ (∀ k, k ≠ e.val → (t.eng site k).cur = (s.eng site k).cur) ∧ s.otherClusters t site ∧ s.sameMem t) ∧
  (∀ (s : State) (site : Site) (e : EngId) (o : Op) (l : List Op) (d k : Nat), s.alive = true → s.live site = true →
    (s.eng site e).cur = none → s.fld (Reg.VE_STATUS_STATE site e) ≠ 6 → (s.eng site e).queue = o :: l →
    s.descAt site o.desc = some d → s.vecOk site e o d = true → s.clean site → o.kind ≠ .vcmpx → 0 < o.vl →
    (opd d 0).kind = 2 → k = (opd d 0).addr % 1024 → s.land site k ≠ 2 →
    Answers (.vectorOpStart site e) s fun t => (t.eng site e).queue = l
      ∧ (∃ r, (t.eng site e).cur = some r ∧ r.op = o ∧ r.dv = d ∧ r.next = 0)
      ∧ ((t.eng site e).stall.map fun p => p.1) = some k ∧ t.fld (Reg.VE_STATUS_STATE site e) = 3 ∧ t.land site k = s.land site k
      ∧ s.otherClusters t site ∧ s.sameMem t ∧ s.sameSlices t ∧ t.tile = s.tile) ∧
  (∀ (s : State) (site : Site) (e : EngId) (o : Op) (l : List Op), s.alive = true → s.live site = true →
    (s.eng site e).cur = none → s.fld (Reg.VE_STATUS_STATE site e) ≠ 6 → (s.eng site e).queue = o :: l →
    (s.descAt site o.desc = none ∨ ∃ d, s.descAt site o.desc = some d ∧ s.vecOk site e o d = false) → s.clean site →
    s.open_ site o.slot o.blk = true → o.slot < 4 → (s.slot site o.slot).blk.failed = false →
    Answers (.vectorOpStart site e) s fun t => t.trapped site o.slot 2 ∧ (t.eng site e).cur = none
      ∧ s.givenUp t site o.slot ∧ s.sameMem t) ∧
  (∀ (s : State) (site : Site) (e : EngId) (r : VRun), s.alive = true → s.live site = true →
    (s.eng site e).cur = some r → r.over = true → s.clean site →
    Answers (.vectorOpComplete site e) s fun t => (t.eng site e).cur = none
      ∧ s.recordAt t site (bits r.dv 320 23) r.stat ∧ s.sameMem t) ∧
  (∀ (s : State) (site : Site) (e : EngId), s.alive = true → s.live site = true → (s.eng site e).active = true →
    (s.eng site e).cur = none → (s.eng site e).idle < 256 → s.flag (Reg.VE_CTL_DUMMY_EN site e) = true →
    Answers (.dummyOperation site e) s fun t => (t.eng site e).idle = (s.eng site e).idle + 1
      ∧ t.fld (Reg.VE_DUMMY_CYCLES site e) = min (2 ^ 32 - 1) (s.fld (Reg.VE_DUMMY_CYCLES site e) + 1)
      ∧ s.otherClusters t site ∧ s.sameMem t ∧ s.sameSlices t ∧ t.tile = s.tile) ∧
  (∀ (s : State) (site : Site) (e : EngId), s.alive = true → s.live site = true → (s.eng site e).active = true →
    (s.eng site e).cur = none → ((s.eng site e).idle = 256 ∨ s.flag (Reg.VE_CTL_DUMMY_EN site e) = false) →
    Answers (.vectorEngineIdle site e) s fun t => (t.eng site e).active = false ∧ (t.eng site e).idle = 0
      ∧ s.sameRegs t (· = Reg.VE_STATUS site e) ∧ s.otherClusters t site ∧ s.sameMem t ∧ s.sameSlices t ∧ t.tile = s.tile)

/-- Stream transfers, fills and copies (R198 to R200, R204, R207, R212, R333): the ready context whose turn it is issues its next
transfer, a STORE with the bytes it reads; a LOAD's line lands in the slice; a stale line only counts as wasted; a transfer that is
complete leaves the context, a STORE's bytes being in package memory; a met marker raises the limit; the fill or copy at the head of its
queue leaves its constant, or its source's bytes, and a transposer copy leaves when its turn has come. What this says beyond the rules'
words is the model's reading (log entries 28, 34, 60 and 91). -/
def Obligations.StreamTransfersMoveData : Prop :=
  (∀ (s : State) (site : Site) (d : CtxId) (a : Arm), s.alive = true → s.live site = true → s.testing site 7 = false →
    s.turn site = some d.val → s.ready site d = some a → armKind a.desc = 0 → s.classTurn 0 site = true → s.clean site →
    Answers (.streamTransferIssue site d) s fun t => ((t.ctx site d).act.map fun b => b.next) = some (a.next + 1)
      ∧ (∃ x, (t.ctx site d).xfers = (s.ctx site d).xfers ++ [x] ∧ x.idx = a.next ∧ x.desc = a.desc ∧ x.lines = 0 ∧ x.dead = false)
      ∧ (armLand a.desc = true → armSlot a.desc a.next < 1024 → t.land site (armSlot a.desc a.next) = 1)
      ∧ t.grantsLeft 0 = s.grantsLeft 0 - pieces a.desc a.next
      ∧ (t.cl site).served = (d.val + 1) % 64 ∧ s.otherClusters t site ∧ s.sameMem t ∧ s.sameSlices t) ∧
  (∀ (s : State) (site : Site) (d : CtxId) (a : Arm), s.alive = true → s.live site = true → s.testing site 7 = false →
    s.turn site = some d.val → s.ready site d = some a → armKind a.desc = 1 → armThrough a.desc = false → s.classTurn 1 site = true →
    s.clean site → (∀ x ∈ (s.ctx site d).xfers, x.id ≠ (s.cl site).nextOp) →
    Answers (.streamTransferIssue site d) s fun t => ((t.ctx site d).act.map fun b => b.next) = some (a.next + 1)
      ∧ (∃ x, (t.ctx site d).xfers = (s.ctx site d).xfers ++ [x] ∧ x.idx = a.next ∧ x.desc = a.desc ∧ x.bad = false ∧ x.acked = false
          ∧ x.data = s.sliceBytes site (s.armStart site a.desc a.next) (armBytes a.desc))
      ∧ t.grantsLeft 1 = s.grantsLeft 1 - pieces a.desc a.next
      ∧ (t.cl site).served = (d.val + 1) % 64 ∧ s.otherClusters t site ∧ s.sameMem t ∧ s.sameSlices t) ∧
  (∀ (s : State) (site : Site) (d : CtxId) (x : Xfer) (mem n : Nat) (low high : List (BitVec 16)), s.alive = true → s.live site = true →
    s.clean site → (s.ctx site d).xfers = [x] → armKind x.desc = 0 → armLand x.desc = false → armXpose x.desc = false → armDeal x.desc = false →
    x.lines < armLines x.desc → x.dead = false → x.epoch = s.fld (Reg.STR_STATE_EPOCH site d) →
    mem = bits x.desc 64 48 + x.idx * bits x.desc 128 32 + 128 * x.lines → n = min 128 (armBytes x.desc - 128 * x.lines) →
    mem + n ≤ s.memSize → s.poison = [] → (∀ k, k < 2 → (s.loadTries mem n ⟨d, low, high⟩ k).2 = false) →
    Answers (.loadLineArrival site ⟨d, low, high⟩) s fun t => (t.ctx site d).xfers = [{ x with lines := x.lines + 1 }]
      ∧ t.fld (Reg.VPORT_CRC_COUNT (s.portOf mem)) = min (2 ^ 32 - 1) (s.fld (Reg.VPORT_CRC_COUNT (s.portOf mem))
          + ((s.loadTries mem n ⟨d, low, high⟩ 0).1 + (s.loadTries mem n ⟨d, low, high⟩ 1).1))
      ∧ (∀ i, i < n → memGet (t.cl site).slice (s.armStart site x.desc x.idx + 128 * x.lines + i) = memGet s.pkgMem (mem + i))
      ∧ (∀ b, (b < s.armStart site x.desc x.idx + 128 * x.lines ∨ s.armStart site x.desc x.idx + 128 * x.lines + n ≤ b) →
          memGet (t.cl site).slice b = memGet (s.cl site).slice b)
      ∧ s.otherClusters t site ∧ s.sameMem t) ∧
  (∀ (s : State) (site : Site) (d : CtxId) (x : Xfer) (low high : List (BitVec 16)), s.alive = true → s.live site = true →
    (s.ctx site d).xfers = [x] → armKind x.desc = 0 → x.lines + 1 < armLines x.desc → x.dead = true → s.rd64 (Reg.WASTED_FETCH_BYTES site) + 128 < 2 ^ 64 →
    Answers (.loadLineArrival site ⟨d, low, high⟩) s fun t => (t.ctx site d).xfers = [{ x with lines := x.lines + 1 }]
      ∧ t.rd64 (Reg.WASTED_FETCH_BYTES site) = s.rd64 (Reg.WASTED_FETCH_BYTES site) + 128
      ∧ s.otherClusters t site ∧ s.sameMem t ∧ s.sameSlices t ∧ t.tile = s.tile) ∧
  (∀ (s : State) (site : Site) (d : CtxId) (x : Xfer) (mem : Nat), s.alive = true → s.live site = true → (s.ctx site d).xfers = [x] →
    (s.cl site).xline = [] → armKind x.desc = 1 → x.dead = false → x.bad = false → x.waits = false → x.acked = false → mem = bits x.desc 64 48 + x.idx * bits x.desc 128 32 →
    x.data.length = armBytes x.desc → mem + armBytes x.desc ≤ s.memSize → s.poison = [] →
    Answers (.streamTransferComplete site ⟨d, []⟩) s fun t => (t.ctx site d).xfers = [] ∧ t.pkgRead mem (armBytes x.desc) = x.data
      ∧ (∀ b, (b < mem ∨ mem + armBytes x.desc ≤ b) → memGet t.pkgMem b = memGet s.pkgMem b) ∧ t.poison = s.poison ∧ s.sameSlices t) ∧
  (∀ (s : State) (site : Site) (d : CtxId) (x : Xfer), s.alive = true → s.live site = true → (s.ctx site d).xfers = [x] →
    (s.cl site).xline = [] → armKind x.desc = 0 → armLines x.desc ≤ x.lines → x.dead = false → x.bad = false → x.waits = false →
    Answers (.streamTransferComplete site ⟨d, []⟩) s fun t => (t.ctx site d).xfers = []
      ∧ (armLand x.desc = true → armSlot x.desc x.idx < 1024 → t.land site (armSlot x.desc x.idx) = 2)
      ∧ s.sameMem t ∧ s.sameSlices t) ∧
  (∀ (s : State) (site : Site) (d : CtxId) (a : Arm) (m : Marker) (l : List Marker), s.alive = true → s.live site = true →
    (s.ctx site d).stop = false → (s.ctx site d).act = some a → a.marks = m :: l → m.thr ≤ s.refValue site m.ref →
    s.slotFirst site m.ref = false →
    Answers (.depMarkerMet site d) s fun t =>
      ((t.ctx site d).act.map fun b => (b.marks, b.limit, b.next)) = some (l, min 0xFFFFFF (a.limit + m.step), a.next)
      ∧ s.otherClusters t site ∧ s.sameMem t ∧ s.sameSlices t ∧ t.tile = s.tile) ∧
  (∀ (s : State) (site : Site) (o : Op) (l : List Op) (dst n : Nat), s.alive = true → s.live site = true → s.testing site 7 = false →
    s.clean site → (s.cl site).fills = o :: l → o.kind = .fill → bits o.desc 96 16 = 1 → dst = bits o.desc 23 23 → n = bits o.desc 64 23 →
    Answers (.fillCopyComplete site false) s fun t =>
      (∀ i, i < n → memGet (t.cl site).slice (dst + i) = BitVec.ofNat 8 (o.arg / 2 ^ (8 * (i % 8))))
      ∧ (∀ b, (b < dst ∨ dst + n ≤ b) → memGet (t.cl site).slice b = memGet (s.cl site).slice b)
      ∧ (o ∉ l → o ∉ (t.cl site).fills) ∧ s.sameMem t) ∧
  (∀ (s : State) (site : Site) (o : Op) (l : List Op) (dst n : Nat), s.alive = true → s.live site = true → s.testing site 7 = false →
    s.clean site → (s.cl site).fills = o :: l → o.kind = .copy → bits o.desc 96 16 = 1 → dst = bits o.desc 23 23 → n = bits o.desc 64 23 →
    Answers (.fillCopyComplete site false) s fun t =>
      (∀ i, i < n → memGet (t.cl site).slice (dst + i) = memGet (s.cl site).slice (bits o.desc 0 23 + i))
      ∧ s.sameOutside t site dst n ∧ (o ∉ l → o ∉ (t.cl site).fills) ∧ s.sameMem t) ∧
  (∀ (s : State) (site : Site) (o : Op) (l : List Op) (k : List (Nat × Nat)), s.alive = true → s.live site = true →
    s.testing site 8 = false → s.clean site → (s.cl site).xcopies = o :: l → (s.cl site).xline = (64, o.id) :: k → bits o.desc 96 16 = 0 →
    Answers (.fillCopyComplete site true) s fun t => (o ∉ l → o ∉ (t.cl site).xcopies) ∧ s.sameMem t ∧ s.sameSlices t)


/-- Banks, landing slots and element-program stores through the control space (R181, R214 to R216, R218): BANK_OFF_REQ starts a
drain, a drained bank goes OFF, one that cannot drain in 64 beats stays on with 0x0607, BANK_ON_REQ wakes, a woken bank reads
zero; CLEAR empties the landing slots; an access of VE_PSTORE_DATA advances the address, a narrow or wide one is not performed (R10). What this says beyond the rules' words
is the model's reading (log entry 58). -/
def Obligations.BanksAndStoresAnswerWrites : Prop :=
  (∀ (s : State) (q : Requester) (site : Site) (v : Word), s.takesWrite q (Reg.BANK_OFF_REQ site) v.toNat → s.live site = true →
    Answers (.bankOffReqWrite q site v) s fun t =>
      (∀ b, b < bankCount site → t.fld (Reg.BANK_STATE_POWER site b) =
        if v.getLsbD b = true ∧ s.fld (Reg.BANK_STATE_POWER site b) = 0 then 1 else s.fld (Reg.BANK_STATE_POWER site b))
      ∧ s.sameRegs t (fun o => Reg.BANK_STATE site 0 ≤ o ∧ o < Reg.BANK_STATE site 32) ∧ t.clusters = s.clusters ∧ s.sameMem t
      ∧ t.tile = s.tile) ∧
  (∀ (s : State) (q : Requester) (site : Site) (v : Word), s.takesWrite q (Reg.BANK_ON_REQ site) v.toNat → s.live site = true →
    Answers (.bankOnReqWrite q site v) s fun t =>
      (∀ b, b < bankCount site → t.fld (Reg.BANK_STATE_POWER site b) =
        if v.getLsbD b = true ∧ s.fld (Reg.BANK_STATE_POWER site b) = 1 then 0
        else if v.getLsbD b = true ∧ s.fld (Reg.BANK_STATE_POWER site b) = 2 then 3 else s.fld (Reg.BANK_STATE_POWER site b))
      ∧ t.clusters = s.clusters ∧ s.sameMem t ∧ t.tile = s.tile) ∧
  (∀ (s : State) (site : Site) (b : BankId), s.alive = true → s.live site = true → bankIn site b = true →
    s.fld (Reg.BANK_STATE_POWER site b) = 1 → s.fld (Reg.BANK_STATE_PENDING site b) = 0 →
    Answers (.bankPowerDown site b) s fun t => t.fld (Reg.BANK_STATE_POWER site b) = 2 ∧ t.fld (Reg.BANK_PWR_LAST_BANK site) = b.val
      ∧ t.fld (Reg.BANK_PWR_LAST_RESULT site) = 1 ∧ s.sameRegs t (fun o => o = Reg.BANK_STATE site b ∨ o = Reg.BANK_PWR_LAST site)
      ∧ t.clusters = s.clusters ∧ s.sameMem t ∧ t.tile = s.tile) ∧
  (∀ (s : State) (site : Site) (b : BankId), s.alive = true → s.live site = true → bankIn site b = true →
    s.fld (Reg.BANK_STATE_POWER site b) = 1 → s.fld (Reg.BANK_STATE_PENDING site b) ≠ 0 → 64 ≤ s.fld (Reg.BANK_STATE_WAITED site b) →
    Answers (.bankPdRefused site b) s fun t => t.fld (Reg.BANK_STATE_POWER site b) = 0 ∧ t.fld (Reg.BANK_PWR_LAST_RESULT site) = 2
      ∧ t.fld (Reg.BANK_PWR_LAST_REASON site) = 0x0607 ∧ t.clusters = s.clusters ∧ s.sameMem t ∧ t.tile = s.tile) ∧
  (∀ (s : State) (site : Site) (b : BankId), s.alive = true → s.live site = true → bankIn site b = true →
    s.fld (Reg.BANK_STATE_POWER site b) = 3 →
    Answers (.bankWakeDone site b) s fun t => t.fld (Reg.BANK_STATE_POWER site b) = 0
      ∧ (∀ a, memGet (t.cl site).slice a = if bankOf site a = b.val then 0 else memGet (s.cl site).slice a)
      ∧ s.otherClusters t site ∧ s.sameMem t
      ∧ ((∀ n, n < 4 → (s.slot site n).toCopy = false) → (s.cl site).xline = [] → t.tile = s.tile)) ∧
  (∀ (s : State) (q : Requester) (site : Site) (v : Word), s.takesWrite q (Reg.LAND_CTL site) v.toNat → s.live site = true →
    v.getLsbD 0 = true →
    Answers (.landCtlClear q site v) s fun t =>
      (∀ l, l < 1024 → t.land site l = ldEmpty ∧ t.flag (Reg.LAND_STATE_HOLD site l) = false
        ∧ t.fld (Reg.LAND_STATE_FILLS site l) = s.fld (Reg.LAND_STATE_FILLS site l)) ∧ t.clusters = s.clusters ∧ s.sameMem t) ∧
  (∀ (s : State) (q : Requester) (site : Site) (v : Word) (k : Nat), s.takesWrite q (Reg.VE_PSTORE_DATA site) v.toNat →
    s.live site = true → s.pstoreKey site = some k →
    Answers (.vePstoreDataAccess ⟨q, .word⟩ site (some v)) s fun t => Store.get 0 (t.cl site).pstore k = v
      ∧ (∀ j, j ≠ k → Store.get 0 (t.cl site).pstore j = Store.get 0 (s.cl site).pstore j)
      ∧ (t.rd (Reg.VE_PSTORE_ADDR site)).toNat % 2048 = ((s.rd (Reg.VE_PSTORE_ADDR site)).toNat + 1) % 2048
      ∧ s.sameRegs t (· = Reg.VE_PSTORE_ADDR site) ∧ s.sameSlices t ∧ s.sameMem t) ∧
  (∀ (s : State) (q : Requester) (site : Site), s.portOpen q = true → s.live site = true →
    Answers (.vePstoreDataAccess ⟨q, .word⟩ site none) s fun t => t.clusters = s.clusters
      ∧ (t.rd (Reg.VE_PSTORE_ADDR site)).toNat % 2048 = ((s.rd (Reg.VE_PSTORE_ADDR site)).toNat + 1) % 2048
      ∧ s.sameRegs t (· = Reg.VE_PSTORE_ADDR site) ∧ s.sameMem t) ∧
  (∀ (s : State) (q : Requester) (w : Width) (site : Site) (v : Option Word), s.portOpen q = true → w ≠ .word →
    Answers (.vePstoreDataAccess ⟨q, w⟩ site v) s fun t => t.rd (Reg.VE_PSTORE_ADDR site) = s.rd (Reg.VE_PSTORE_ADDR site)
      ∧ t.clusters = s.clusters ∧ s.sameMem t ∧ t.tile = s.tile)

/-! ## Synchronisation -/

/-- Signals and barriers (R221, R222, R229, R230, R232 to R234): a SIGNAL message changes its object by its increment, clamped; an
arrival is counted at its node, toward CUR, NEXT or as an overrun that is held; a complete count goes up once the earlier traffic of
its slots has completed; a release advances the nodes and frees the slots, a control release, which a message brings, at its beat.
What this says beyond the rules' words is the model's reading (log entries 21 and 40). -/
def Obligations.SignalsAndBarriersAdvance : Prop :=
  (∀ (s : State) (m : GMsg) (w : Way) (site o : Nat), s.fw = true → m.ty = 6 → s.waits m = true → s.origin m = some w →
    s.toMe m.dst.toNat = true → (w.num, m.vch.val) ∉ s.tile.mute → bits m.dst.toNat 25 1 = 0 → bits m.dst.toNat 0 4 = 9 → site = msgSite m →
    o = m.aux.toNat % 64 → o < 48 → s.live site = true →
    Answers (.remoteSignal m) s fun t =>
      t.fld (Reg.SYNC_VAL_VALUE site o) = clampObj ((s.fld (Reg.SYNC_VAL_VALUE site o) : Int) + sext (bits m.aux.toNat 16 24) 24)
      ∧ (w = .agent → t.inbox = s.inbox.erase m ∧ t.tile = s.tile) ∧ s.otherClusters t site ∧ s.sameMem t ∧ s.sameSlices t) ∧
  (∀ (s : State) (m : GMsg) (w : Way) (o : Nat), s.fw = true → m.ty = 6 → s.waits m = true → s.origin m = some w →
    s.toMe m.dst.toNat = true → (w.num, m.vch.val) ∉ s.tile.mute → bits m.dst.toNat 25 1 = 1 → bits m.dst.toNat 0 10 = 1 → bits m.aux.toNat 14 2 = 1 →
    o = m.aux.toNat % 256 →
    Answers (.remoteSignal m) s fun t =>
      t.fld (Reg.TOBJ_VAL_VALUE o) = clampObj ((s.fld (Reg.TOBJ_VAL_VALUE o) : Int) + sext (bits m.aux.toNat 16 24) 24)
      ∧ (w = .agent → t.inbox = s.inbox.erase m) ∧ t.clusters = s.clusters ∧ s.sameMem t) ∧
  (∀ (s : State) (b : BarId) (node : BarNode) (a : BArr), s.fw = true → s.flag (Reg.BAR_CFG_EN b) = true → s.tile.arrivals = [a] →
    a.bar = b.val → a.node = BarNode.key node → a.gen < 2 ^ 16 → s.counts b a.node a.who = true →
    (s.node b a.node).gen = a.gen → (s.node b a.node).inCur.length + 1 < s.expected b a.node →
    Answers (.barrierArrival b node (BitVec.ofNat 16 a.gen)) s fun t => t.tile.arrivals = []
      ∧ (t.node b a.node).inCur = (s.node b a.node).inCur ++ [a.who] ∧ (t.node b a.node).gen = a.gen
      ∧ (∀ k, k < 128 → k ≠ a.node → t.node b k = s.node b k) ∧ t.clusters = s.clusters ∧ s.sameMem t) ∧
  (∀ (s : State) (b : BarId) (node : BarNode) (a : BArr), s.fw = true → s.flag (Reg.BAR_CFG_EN b) = true → s.tile.arrivals = [a] →
    a.bar = b.val → a.node = BarNode.key node → a.gen < 2 ^ 16 → s.counts b a.node a.who = true →
    (a.gen + 2 ^ 16 - (s.node b a.node).gen) % 2 ^ 16 = 1 → (s.node b a.node).inCur.length < s.expected b a.node →
    Answers (.barrierArrival b node (BitVec.ofNat 16 a.gen)) s fun t => t.tile.arrivals = []
      ∧ (t.node b a.node).inNext = (s.node b a.node).inNext ++ [a.who] ∧ (t.node b a.node).gen = (s.node b a.node).gen
      ∧ t.clusters = s.clusters ∧ s.sameMem t) ∧
  (∀ (s : State) (b : BarId) (k : Site) (a : BArr), s.fw = true → s.flag (Reg.BAR_CFG_EN b) = true → s.tile.arrivals = [a] →
    a.bar = b.val → a.node = k.val → a.who < 4 → a.gen < 2 ^ 16 → 2 ≤ (a.gen + 2 ^ 16 - (s.node b k).gen) % 2 ^ 16 →
    (a.gen + 2 ^ 16 - (s.node b k).gen) % 2 ^ 16 < 2 ^ 15 →
    Answers (.barrierArrival b (.cluster k) (BitVec.ofNat 16 a.gen)) s fun t => t.flag (Reg.BAR_GEN_OVERRUN b) = true
      ∧ (t.node b k).ahead = (s.node b k).ahead ++ [(a.gen, a.who)] ∧ t.flag (Reg.BAR_SLOT_OVERRUN k a.who) = true
      ∧ (t.slot k a.who).holdBar = (s.slot k a.who).holdBar ++ [(b.val, (a.gen + 2 ^ 16 - 2) % 2 ^ 16)]
      ∧ s.otherClusters t k ∧ s.sameMem t ∧ s.sameSlices t) ∧
  (∀ (s : State) (b : BarId) (k : Site) (a : BArr), s.fw = true → s.flag (Reg.BAR_CFG_EN b) = true → s.tile.arrivals = [a] →
    a.bar = b.val → a.node = k.val → a.gen < 2 ^ 16 → s.trafficDone k a.who a.blk = true → s.nodeDone b k = true →
    (s.node b k).gen = a.gen → (s.node b k).sent = false → (s.node b k).inCur.length + 1 = s.expected b k →
    Answers (.barrierArrival b (.cluster k) (BitVec.ofNat 16 a.gen)) s fun t => (t.node b k).sent = true
      ∧ t.tile.arrivals = [{ bar := b.val, node := nRegion + k / 8, gen := a.gen, who := k.val }] ∧ t.clusters = s.clusters
      ∧ s.sameMem t) ∧
  (∀ (s : State) (b : BarId) (gen : BitVec 16), s.fw = true → s.flag (Reg.BAR_CFG_EN b) = true → s.barKind b = 0 → s.barSpan b = 0 →
    (s.node b nDie).gen = gen.toNat → (s.node b nDie).sent = true →
    Answers (.dataBarrierRelease b gen) s fun t => (t.node b nDie).gen = (gen.toNat + 1) % 2 ^ 16
      ∧ (∀ x n, x ∈ s.barSites b → n < 4 → (s.node b x).gen = gen.toNat →
          (t.slot x n).holdBar = (s.slot x n).holdBar.filter (· != (b.val, gen.toNat))) ∧ s.sameMem t ∧ s.sameSlices t) ∧
  (∀ (s : State) (b : BarId) (gen beat : BitVec 16) (m : GMsg), s.fw = true → s.flag (Reg.BAR_CFG_EN b) = true → s.barKind b = 1 →
    s.ctlWaits (fun m => cmSub m == cmRelease && cmBar m == b.val && cmGen m == gen.toNat && cmVal m == beat.toNat) = some m →
    2 ^ 15 ≤ s.passed beat.toNat →
    Answers (.controlRelease b gen beat) s fun t => t.tile.rels = s.tile.rels ++ [{ bar := b.val, gen := gen.toNat, beat := beat.toNat }]
      ∧ t.tile.nodes = s.tile.nodes ∧ t.clusters = s.clusters ∧ s.sameMem t) ∧
  (∀ (s : State) (b : BarId) (gen beat : BitVec 16) (m : GMsg), s.fw = true → s.flag (Reg.BAR_CFG_EN b) = true → s.barKind b = 1 →
    s.ctlWaits (fun m => cmSub m == cmRelease && cmBar m == b.val && cmGen m == gen.toNat && cmVal m == beat.toNat) = some m →
    s.passed beat.toNat < 2 ^ 15 → s.stepBar b = false → (s.node b nDie).gen = gen.toNat →
    Answers (.controlRelease b gen beat) s fun t => t.tile.rels = s.tile.rels ∧ (t.node b nDie).gen = (gen.toNat + 1) % 2 ^ 16
      ∧ s.sameMem t ∧ s.sameSlices t) ∧
  (∀ (s : State) (b : BarId) (r : Rel), s.fw = true → s.tile.rels = [r] → r.bar = b.val → s.passed r.beat = 0 → s.stepBar b = false →
    (s.node b nDie).gen = r.gen →
    Answers (.releaseApply b) s fun t => t.tile.rels = [] ∧ (t.node b nDie).gen = (r.gen + 1) % 2 ^ 16 ∧ s.sameMem t ∧ s.sameSlices t)

/-- The watchdogs (R235, R351): a cluster whose slots have been held at a barrier for its beats reports 0x0805; the tile's own
watchdog fails the tile. What this says beyond the rules' words is the model's reading (log entries 47 and 48). -/
def Obligations.WatchdogsReport : Prop :=
  (∀ (s : State) (site : Site), s.inBeat = true → s.live site = true → s.fld (Reg.CL_WDOG_BEATS site) ≤ (s.cl site).wdog →
    (∃ p ∈ (s.cl site).slots, p.2.holdBar ≠ []) →
    Answers (.clWdog site) s fun t => (t.cl site).wdog = 0
      ∧ (∃ e, t.tile.errs = s.tile.errs ++ [e] ∧ e.cls = 0x0D ∧ e.reason = 0x0805 ∧ e.site = some site.val)
      ∧ s.otherClusters t site ∧ s.sameMem t ∧ s.sameSlices t) ∧
  (∀ s : State, s.alive = true → (s.ts = tsRunning ∨ s.ts = tsRecovering) → s.fld Reg.TILE_WDOG_BEATS ≤ s.tile.wdog →
    Answers .tileWdog s fun t => t.ts = tsFailed ∧ t.fld Reg.TILE_STATE_REASON = 0x0217 ∧ t.clusters = s.clusters)

/-! ## Reduction -/

/-- Sealing and converting a bucket (R246 to R248, R252, R254, R267): a met seal object loses its threshold and the next bucket
converts, and a REDUCE_BUCKET that waited for it is replied to (R327); one whose descriptor fails its check is ABANDONED with 0x040B; NEXT advances, and after the last bucket sealing
closes; a bucket whose grants suffice delivers its lines and its trailer. What this says beyond the rules' words is the model's
reading (log entry 46). -/
def Obligations.BucketsSealAndConvert : Prop :=
  (∀ (s : State) (g : Fin 16) (i d : Nat), s.fw = true → s.sealOpen g = true → s.sealMet g = true →
    i = s.fld (Reg.REDUCE_GST_NEXT g) → d = s.redDesc g i → descOk (s.redArrival g) d = true → s.fld (Reg.REDUCE_GRP2_NBUCKET g) ≤ 4096 →
    Answers (.bucketSeal g) s fun t => (t.bucket g i).mine = true ∧ (t.bucket g i).converting = true
      ∧ (∀ j, j < 4096 → j ≠ i → t.bucket g j = s.bucket g j)
      ∧ t.fld (Reg.TOBJ_VAL_VALUE (bits d 176 8)) = s.fld (Reg.TOBJ_VAL_VALUE (bits d 176 8)) - bits d 192 24
      ∧ t.fld (Reg.REDUCE_GST_NEXT g) = (if i + 1 < s.fld (Reg.REDUCE_GRP2_NBUCKET g) then i + 1 else 0)
      ∧ (t.grp g).sealing = decide (i + 1 < s.fld (Reg.REDUCE_GRP2_NBUCKET g))
      ∧ (∀ f ∈ s.flights, sealNames g i f = true → t.left f)
      ∧ ((∀ f ∈ s.flights, sealNames g i f = false) → t.flights = s.flights ∧
          ∀ a, (a < s.redAddr g i ∨ s.redAddr g i + 64 ≤ a) → memGet t.pkgMem a = memGet s.pkgMem a)
      ∧ t.clusters = s.clusters) ∧
  (∀ (s : State) (g : Fin 16) (i d : Nat), s.fw = true → s.sealOpen g = true → s.sealMet g = true →
    i = s.fld (Reg.REDUCE_GST_NEXT g) → d = s.redDesc g i → descOk (s.redArrival g) d = false →
    Answers (.bucketSeal g) s fun t => (t.bucket g i).mine = false ∧ (t.grp g).aband = some 0x040B
      ∧ ((∀ f ∈ s.flights, sealNames g i f = false) → s.redAddr g i + 64 ≤ s.memSize → dState (t.redDesc g i) = 5)
      ∧ t.clusters = s.clusters) ∧
  (∀ (s : State) (g : Fin 16) (i : Nat) (b : Bucket) (d : Nat), s.fw = true → i < 4096 → s.tile.buckets = [(g.val * 4096 + i, b)] →
    b.converting = true → s.classTurn 0 64 = true → b.want ≤ s.grantsLeft 0 → d = s.redDesc g i →
    Answers (.conversionDone g) s fun t => (t.bucket g i).converting = false ∧ (t.bucket g i).mine = b.mine
      ∧ t.inbox.length = s.inbox.length + dElems d / upElems (s.redArrival g) + 1 ∧ t.clusters = s.clusters) ∧
  (∀ (s : State) (g : Fin 16) (i : Nat) (b : Bucket), s.fw = true → i < 4096 → s.tile.buckets = [(g.val * 4096 + i, b)] →
    b.converting = true → s.classTurn 0 64 = true → s.grantsLeft 0 < b.want →
    Answers (.conversionDone g) s fun t => (t.bucket g i).converting = true ∧ (t.bucket g i).want = b.want - s.grantsLeft 0
      ∧ t.grantsLeft 0 = 0 ∧ t.inbox = s.inbox ∧ t.regs = s.regs ∧ t.clusters = s.clusters ∧ s.sameMem t)

/-- A seal that arrives while the same bucket of the previous step is not yet DONE or ABANDONED is deferred until it is, and is no error
(R249): the bucket's place is still in use, so the seal object seals nothing and keeps its value, a REDUCE_BUCKET waits, nothing is
logged; once the place is free the deferred seal is done, by either trigger. -/
def Obligations.SealsAreDeferred : Prop :=
  (∀ (s : State) (g : Fin 16), (s.bucket g (s.fld (Reg.REDUCE_GST_NEXT g))).mine = true → exec (.bucketSeal g) s = .next s) ∧
  (∀ (s : State) (i : FlightId) (f : Flight) (g k : Nat), s.startsCmd i 0x41 f → g = f.p 0 4 → k = s.fld (Reg.REDUCE_GST_NEXT g) →
    f.p 16 12 = k → (s.bucket g k).mine = true →
    Answers (.reduceBucket i) s fun t => t.runsOn f ∧ t.regs = s.regs ∧ t.clusters = s.clusters ∧ t.tile = s.tile ∧ s.sameMem t) ∧
  (∀ (s : State) (g : Fin 16) (f : Flight) (k : Nat), s.fw = true → s.sealOpen g = true → s.flights = [f] → f.opcode = 0x41 →
    f.phase = .running → f.p 0 4 = g.val → k = s.fld (Reg.REDUCE_GST_NEXT g) → f.p 16 12 = k →
    descOk (s.redArrival g) (s.redDesc g k) = true →
    Answers (.deferredSeal g) s fun t => t.flights = [] ∧ (t.bucket g k).mine = true ∧ (t.bucket g k).converting = true
      ∧ t.clusters = s.clusters) ∧
  (∀ (s : State) (g : Fin 16) (k : Nat), s.fw = true → s.sealOpen g = true → s.sealMet g = true → s.flights = [] →
    k = s.fld (Reg.REDUCE_GST_NEXT g) → descOk (s.redArrival g) (s.redDesc g k) = true →
    Answers (.deferredSeal g) s fun t => t.flights = [] ∧ (t.bucket g k).mine = true ∧ (t.bucket g k).converting = true
      ∧ t.clusters = s.clusters)


/-- At an adding node (R253 to R257, R261): a line waits, its units not returned to the partner, until every input of the node has
delivered it; then the exact sum goes up; a sum that fails its check once is added again and goes up, counted; one that fails twice
marks its bucket; a trailer is kept until every input's is there, and then the node's own goes up; the root closes a bucket whose
trailers are late. What this says beyond the rules' words is the model's reading (log entries 45 and 84). -/
def Obligations.NodesAddAndForward : Prop :=
  (∀ (s s1 : State) (i : RedIn) (m : GMsg) (g k p u : Nat), s.redTakes i m rkUp s1 → g = m.vch.val → k = tagBucket m →
    (s.redMask g).testBit i = true → (s.bucket g k).closed = false → p ∈ s.redInputs g → p ≠ i.val →
    (∀ l ∈ Store.get [] (s.bucket g k).lines (tagLine m), l.inp ≠ p) →
    u = (if i.val < 4 ∧ (s.edge i).ingress.contains m then msgUnits m else 0) →
    Answers (.reductionLineArrival i m) s fun t =>
      Store.get [] (t.bucket g k).lines (tagLine m) = Store.get [] (s.bucket g k).lines (tagLine m) ++ [lineOf i u m]
      ∧ (∀ e, (t.edge e).out = (s.edge e).out ∧ (t.edge e).ingress = (s1.edge e).ingress
          ∧ ∀ v, Store.get 0 (t.edge e).owed v = Store.get 0 (s.edge e).owed v)
      ∧ t.inbox = s1.inbox ∧ t.vpOut = s.vpOut ∧ t.clusters = s.clusters ∧ s.sameMem t) ∧
  (∀ (s s1 : State) (i : RedIn) (m : GMsg) (g k u : Nat) (ls : List RLine), s.redTakes i m rkUp s1 → g = m.vch.val → k = tagBucket m →
    (s.redMask g).testBit i = true → (s.bucket g k).closed = false →
    u = (if i.val < 4 ∧ (s.edge i).ingress.contains m then msgUnits m else 0) →
    ls = Store.get [] (s.bucket g k).lines (tagLine m) ++ [lineOf i u m] → (∀ p ∈ s.redInputs g, ∃ l ∈ ls, l.inp = p) →
    (∀ l ∈ ls, residue l.words = l.res) → s.tile.upsets = [] → (addExact [] ls).good = true → s.redArrival g = false →
    s.redRoot g = false → s.redOut g < 4 → s.takesChannel (s.redOut g) g →
    Answers (.reductionLineArrival i m) s fun t =>
      (∃ x, (t.edge (s.redOut g)).out = (s.edge (s.redOut g)).out ++ [x] ∧ x.ty = 8 ∧ x.vch = m.vch
        ∧ x.data = (addExact [] ls).line.words.flatMap (leBytes 8))
      ∧ Store.get [] (t.bucket g k).lines (tagLine m) = [] ∧ t.clusters = s.clusters ∧ s.sameMem t) ∧
  (∀ (s s1 : State) (i : RedIn) (m : GMsg) (g k u : Nat) (up : List Int) (ls : List RLine), s.redTakes i m rkUp s1 → g = m.vch.val →
    k = tagBucket m → (s.redMask g).testBit i = true → (s.bucket g k).closed = false →
    u = (if i.val < 4 ∧ (s.edge i).ingress.contains m then msgUnits m else 0) →
    ls = Store.get [] (s.bucket g k).lines (tagLine m) ++ [lineOf i u m] → (∀ p ∈ s.redInputs g, ∃ l ∈ ls, l.inp = p) →
    (∀ l ∈ ls, residue l.words = l.res) → s.tile.upsets = [up] → (addExact up ls).good = false → (addExact [] ls).good = true →
    s.redArrival g = false → s.redRoot g = false → s.redOut g < 4 → s.takesChannel (s.redOut g) g →
    Answers (.reductionLineArrival i m) s fun t =>
      (∃ x, (t.edge (s.redOut g)).out = (s.edge (s.redOut g)).out ++ [x] ∧ x.data = (addExact [] ls).line.words.flatMap (leBytes 8))
      ∧ t.fld Reg.RED_RESIDUE_COUNT = min (2 ^ 32 - 1) (s.fld Reg.RED_RESIDUE_COUNT + 1) ∧ (t.bucket g k).marked = (s.bucket g k).marked
      ∧ t.tile.errs = s.tile.errs ∧ t.clusters = s.clusters ∧ s.sameMem t) ∧
  (∀ (s s1 : State) (i : RedIn) (m : GMsg) (g k u : Nat) (ls : List RLine), s.redTakes i m rkUp s1 → g = m.vch.val → k = tagBucket m →
    (s.redMask g).testBit i = true → (s.bucket g k).closed = false →
    u = (if i.val < 4 ∧ (s.edge i).ingress.contains m then msgUnits m else 0) →
    ls = Store.get [] (s.bucket g k).lines (tagLine m) ++ [lineOf i u m] → (∀ p ∈ s.redInputs g, ∃ l ∈ ls, l.inp = p) →
    (∃ l ∈ ls, residue l.words ≠ l.res) →
    Answers (.reductionLineArrival i m) s fun t => (t.bucket g k).marked = true ∧ Store.get [] (t.bucket g k).lines (tagLine m) = []
      ∧ t.fld Reg.RED_RESIDUE_COUNT = min (2 ^ 32 - 1) (s.fld Reg.RED_RESIDUE_COUNT + 1)
      ∧ (∃ e, t.tile.errs = s.tile.errs ++ [e] ∧ e.cls = 0x0A ∧ e.reason = 0x0405 ∧ e.unit = .adder)
      ∧ (∀ e, (t.edge e).out = (s.edge e).out) ∧ t.clusters = s.clusters ∧ s.sameMem t) ∧
  (∀ (s s1 : State) (i : RedIn) (m : GMsg) (g k p : Nat), s.redTakes i m rkUpEnd s1 → g = m.vch.val → k = tagBucket m →
    (s.redMask g).testBit i = true → (s.bucket g k).closed = false → residueOk m → s.redRoot g = false → p ∈ s.redInputs g → p ≠ i.val →
    (∀ q ∈ (s.bucket g k).trailers, q.1 ≠ p) →
    Answers (.reductionTrailerArrival i m) s fun t => (i.val, (payload m).headD 0) ∈ (t.bucket g k).trailers
      ∧ (t.bucket g k).closed = false ∧ t.edges = s1.edges ∧ t.inbox = s1.inbox ∧ t.clusters = s.clusters ∧ s.sameMem t) ∧
  (∀ (s s1 : State) (i : RedIn) (m : GMsg) (g k : Nat), s.redTakes i m rkUpEnd s1 → g = m.vch.val → k = tagBucket m →
    (s.redMask g).testBit i = true → (s.bucket g k).closed = false → residueOk m → s.redRoot g = false →
    s.redOut g < 4 → s.takesChannel (s.redOut g) g → (∀ p ∈ s.redInputs g, p = i.val ∨ ∃ q ∈ (s.bucket g k).trailers, q.1 = p) →
    Answers (.reductionTrailerArrival i m) s fun t => (t.bucket g k).closed = true
      ∧ (∃ x, (t.edge (s.redOut g)).out = (s.edge (s.redOut g)).out ++ [x] ∧ x.ty = 8 ∧ x.vch = m.vch)
      ∧ t.clusters = s.clusters ∧ s.sameMem t) ∧
  (∀ (s : State) (g : Fin 16) (i n : Nat) (b : Bucket), s.fw = true → s.redOn g = true → s.redRoot g = true → i < 4096 →
    s.tile.buckets = [(g.val * 4096 + i, b)] → b.closed = false → b.since = some n → s.fld (Reg.REDUCE_GRP1_DEADLINE g) ≤ n →
    s.trailersIn g i = false →
    Answers (.reductionDeadline g) s fun t => (t.bucket g i).closed = true
      ∧ (∀ q ∈ s.redInputs g, (t.bucket g i).missing.testBit q = !(b.trailers.any fun x => x.1 == q))
      ∧ (∃ x, t.inbox = s.inbox ++ [x] ∧ x.ty = 8 ∧ x.vch = g ∧ (payload x).getD 1 0 =
          if s.fld (Reg.REDUCE_GST_ATTEMPT g) = s.fld (Reg.REDUCE_GRP0_REPEAT_MAX g) then 0x0406 else 0x0403)
      ∧ t.clusters = s.clusters ∧ s.sameMem t)

/-- At a participant (R260 to R263): a result line goes on down the tree and lands in the result; a clean trailer makes the
bucket DONE and counts it; one to be repeated asks for a step repeat; an abandoned bucket fails the tile. What this says beyond the rules' words is the model's reading
(log entry 46). -/
def Obligations.ResultsComeDown : Prop :=
  (∀ (s s1 : State) (m : GMsg), s.fw = true → m.ty = 8 → tagKind m = rkDown → s.redRoot m.vch.val = false → s.redStale m = false →
    s.redLocal m.vch.val = false → s.downTake m = some s1 → residueOk m →
    Answers (.downLineArrival m) s fun t => t = s1.redSendDown m.vch.val m) ∧
  (∀ (s s1 : State) (m : GMsg) (d a n : Nat), s.fw = true → m.ty = 8 → tagKind m = rkDown → s.redRoot m.vch.val = false →
    s.redStale m = false → s.redLocal m.vch.val = true → d = s.redDesc m.vch.val (tagBucket m) →
    descOk (s.redArrival m.vch.val) d = true → s.grantsLeft 1 ≠ 0 → s.downTake m = some s1 → residueOk m → m.data.length = 64 →
    a = bits d 64 48 + 64 * tagLine m → n = min 64 (dElems d * dOutSize d - 64 * tagLine m) → a + n ≤ s.memSize →
    Answers (.downLineArrival m) s fun t => t.pkgRead a n = m.data.take n
      ∧ (∀ b, (b < a ∨ a + n ≤ b) → memGet t.pkgMem b = memGet s.pkgMem b) ∧ t.clusters = s.clusters) ∧
  (∀ (s s1 : State) (m : GMsg) (g i w : Nat), s.fw = true → m.ty = 8 → tagKind m = rkDownEnd → g = m.vch.val → i = tagBucket m →
    w = (payload m).headD 0 → s.downTake m = some s1 → s.redStale m = false → s.redLocal g = true → residueOk m → bits w 48 1 = 0 →
    bits w 47 1 = 0 → (s.bucket g i).marked = false →
    Answers (.downTrailerArrival m) s fun t => (t.bucket g i).mine = false ∧ (t.bucket g i).closed = true ∧ i ∈ (t.grp g).done
      ∧ t.fld Reg.RED_DONE_COUNT = min (2 ^ 32 - 1) (s.fld Reg.RED_DONE_COUNT + 1)) ∧
  (∀ (s s1 : State) (m : GMsg) (g i : Nat), s.fw = true → m.ty = 8 → tagKind m = rkDownEnd → g = m.vch.val → i = tagBucket m →
    s.downTake m = some s1 → s.redStale m = false → s.redLocal g = true → residueOk m → bits ((payload m).headD 0) 48 1 = 1 →
    (s.ts = tsRunning ∨ s.ts = tsRecovering) →
    Answers (.downTrailerArrival m) s fun t => t.ts = tsFailed ∧ (t.bucket g i).mine = false
      ∧ (t.grp g).aband = some ((payload m).getD 1 0 % 2 ^ 16)) ∧
  (∀ (s s1 : State) (m : GMsg) (g i w : Nat), s.fw = true → m.ty = 8 → tagKind m = rkDownEnd → g = m.vch.val → i = tagBucket m →
    w = (payload m).headD 0 → s.downTake m = some s1 → s.redStale m = false → s.redLocal g = true → residueOk m → bits w 48 1 = 0 →
    bits w 47 1 = 1 → (s.bucket g i).missing = 0 → s.flag Reg.ERR_CFG_STEP_EN = true →
    Answers (.downTrailerArrival m) s fun t => t.tile.rep.asked = true ∧ t.ts = s.ts ∧ (t.bucket g i).mine = (s.bucket g i).mine
      ∧ (s.redAddr g i + 64 ≤ s.memSize → dState (t.redDesc g i) = 4)
      ∧ t.fld Reg.RED_REPEAT_COUNT = min (2 ^ 32 - 1) (s.fld Reg.RED_REPEAT_COUNT + 1))

/-! ## Recovery -/

/-- Step repeat (R347, R348): the root grants the next attempt of the step for a request of the latest generation, and not
beyond REPEAT_MAX; a tile keeps the beat that a repeat names, rewinds there, restores its snapshot once it is idle, and the root
counts restart arrivals; an abandoned step fails the tile. What this says beyond the rules' words is the model's reading (log
entries 21, 38 and 40). -/
def Obligations.StepRepeats : Prop :=
  (∀ (s : State) (step : Word) (attempt : Fin 4) (gen : BitVec 16) (m : GMsg), s.fw = true → s.flag Reg.ERR_CFG_STEP_EN = true →
    s.holdsRoot s.stepBarrier = true →
    s.ctlWaits (fun m => cmSub m == cmRequest && cmBar m == s.stepBarrier + attempt.val * 64 && cmGen m == gen.toNat
      && cmVal m == step.toNat) = some m →
    (s.node s.stepBarrier nRoot).gen = gen.toNat → (s.node s.stepBarrier nRoot).sent = false →
    s.tile.rep.granted = none → s.fld Reg.ERR_STEP_ATTEMPT ≤ attempt.val →
    Answers (.repeatRequest step attempt gen) s fun t =>
      t.tile.rep.granted = (if attempt.val < s.fld Reg.ERR_CFG_REPEAT_MAX then some (step.toNat, attempt.val + 1) else none)
      ∧ t.ts = s.ts ∧ t.clusters = s.clusters ∧ s.sameMem t) ∧
  (∀ (s : State) (beat : BitVec 16) (attempt : Fin 4) (m : GMsg), s.fw = true → s.recovers = true →
    s.ctlWaits (fun m => cmSub m == cmRepeat && cmVal m == beat.toNat + attempt.val * 2 ^ 16) = some m →
    Answers (.repeatReceipt beat attempt) s fun t => t.tile.rep.named = some (beat.toNat, attempt.val) ∧ t.ts = s.ts
      ∧ t.clusters = s.clusters ∧ s.sameMem t) ∧
  (∀ (s : State) (beat attempt : Nat), s.fw = true → s.recovers = true → s.ts ≠ tsPaused → s.tile.rep.named = some (beat, attempt) →
    attempt < 4 → s.passed beat < 2 ^ 15 →
    Answers .repeatApply s fun t => t.ts = tsRecovering ∧ t.fld Reg.ERR_STEP_ATTEMPT = attempt ∧ t.flag Reg.ERR_STEP_REPEATING = true
      ∧ t.tile.rep.named = none ∧ t.tile.rep.rewound = true ∧ t.tile.rep.ready = false ∧ t.tile.rels = [] ∧ t.tile.arrivals = []
      ∧ t.tile.held = [] ∧ s.sameMem t ∧ s.sameSlices t) ∧
  (∀ (s : State) (p : Snap), s.fw = true → s.recovers = true → s.tile.rep.rewound = true → s.tile.rep.ready = false →
    s.unitsIdle = true → s.swapPending = false → s.tile.errs = [] → s.tile.snap = some p →
    p.regs.Pairwise (fun a b => a.1 < b.1) → p.slots = [] →
    Answers .restartReady s fun t => t.tile.rep.ready = true ∧ t.tile.nodes = p.nodes
      ∧ (∀ o, 0x80000 ≤ o → o < 0x80400 → t.rd o = Store.get (resetWord s.dev o) p.regs o)
      ∧ (∀ g, 1 ≤ g → g ≤ 12 → (t.grp g).sealing = true) ∧ s.sameMem t) ∧
  (∀ (s : State) (tile : Fin 8) (m : GMsg) (l : List Nat), s.fw = true → s.flag Reg.ERR_CFG_STEP_EN = true →
    s.holdsRoot s.stepBarrier = true →
    s.ctlWaits (fun m => cmSub m == cmRestart && cmBar m == s.stepBarrier && cmFrom m % 8 == tile.val) = some m →
    s.tile.rep.arrived = l → cmFrom m ∉ l →
    Answers (.restartArrival tile) s fun t =>
      t.tile.rep.arrived = (if s.expected s.stepBarrier nRoot ≤ l.length + 1 then [] else l ++ [cmFrom m])
      ∧ t.ts = s.ts ∧ t.clusters = s.clusters ∧ s.sameMem t) ∧
  (∀ (s : State) (m : GMsg), s.fw = true → s.recovers = true → s.ctlWaits (fun m => cmSub m == cmAbandon) = some m →
    Answers .stepAbandon s fun t => t.ts = tsFailed ∧ t.fld Reg.TILE_STATE_REASON = 0x0217 ∧ t.clusters = s.clusters)

/-- Self-tests and substitution (R20, R21, R340 to R344, R349): a test that passes starts a beat replay of the block it was for; an array
that fails is retired, and where its accumulator banks pass the next array carries its operations and the block is replayed, else the step
is repeated with a swap, and with STEP_EN 0 the tile fails; a lasting fault that no other unit and no swap can carry fails the tile, and
lanes of an edge that fail are left to its retraining (R401); a pending swap moves the cluster to the spare of its region, and where none is
left the tile fails; SPARE_SWAP does the same for a host. What this says beyond the rules' words is the model's reading (log entries 32, 92,
95 and 110). -/
def Obligations.TestsAndSwaps : Prop :=
  (∀ (s : State) (u : TestUnit) (e : PErr) (c : Site), s.awake = true → s.recovers = true → s.flights = [] →
    s.mon.test = none → s.mon.input = [] → s.tile.errs = [e] → e.unit = u → e.ready = true → e.site = some c.val → e.level = 1 → e.blk ≠ 0 → e.cls ≠ 0x0C → e.slot < 4 →
    s.slotState c e.slot = slFault → s.clean c →
    Answers (.selftestDone u .pass) s fun t => t.slotState c e.slot = slWait ∧ (t.slot c e.slot).replay = true
      ∧ (t.slot c e.slot).next = s.fld (Reg.SLOT_STATUS_ENTRY c e.slot)
      ∧ t.fld (Reg.CL_ERR_COUNT_TRANSIENT c) = min (2 ^ (Reg.CL_ERR_COUNT_TRANSIENT c).w - 1) (s.fld (Reg.CL_ERR_COUNT_TRANSIENT c) + 1)
      ∧ t.tile.errs = [] ∧ s.sameMem t) ∧
  (∀ (s : State) (u : TestUnit) (r : TestEnd) (e : PErr), s.awake = true → s.recovers = true → s.mon.input = [] →
    s.tile.errs = [e] → e.unit = u → e.ready = true → e.site = none → r ≠ .pass →
    Answers (.selftestDone u r) s fun t => t.ts = tsFailed ∧ t.tile.errs = []
      ∧ (∀ (k : Fin 4) (bad : BitVec 34), u = .edge k → r = .lanes bad → (s.edge k).test ≠ 0 → t.fld (Reg.LINK_STATUS_STATE k) = 1
          ∧ (t.edge k).train.step = 1 ∧ (t.edge k).train.bad = (s.edge k).train.bad ||| bad)) ∧
  (∀ (s : State) (a : Fin 4) (e : PErr) (c : Site) (accOk : Bool), s.failsArray a e c → s.flag Reg.ERR_CFG_STEP_EN = false →
    Answers (.selftestDone (.unit c (Fin.ofNat 16 (a + 1))) (.fail accOk)) s fun t => t.ts = tsFailed ∧ t.tile.rep.asked = s.tile.rep.asked) ∧
  (∀ (s : State) (a : Fin 4) (e : PErr) (c : Site), s.failsArray a e c → s.flag Reg.ERR_CFG_STEP_EN = true →
    s.fld (Reg.CL_RETIRED_UNITS c) = 0 → s.fld (Reg.CL_REDIRECT_MAP c) = 0xE4 → (s.fld (Reg.CL_REDIRECT_ACC_OK c)).testBit a = true →
    Answers (.selftestDone (.unit c (Fin.ofNat 16 (a + 1))) (.fail true)) s fun t =>
      bits (t.fld (Reg.CL_REDIRECT_MAP c)) (2 * a) 2 = (a + 1) % 4
      ∧ (∀ k, k < 4 → k ≠ a.val → bits (t.fld (Reg.CL_REDIRECT_MAP c)) (2 * k) 2 = k)
      ∧ t.fld (Reg.CL_RETIRED_UNITS c) = 2 ^ (a.val + 1) ∧ t.flag (Reg.CL_RETIRED_SWAP_PENDING c) = true
      ∧ t.slotState c e.slot = slWait ∧ (t.slot c e.slot).replay = true ∧ t.tile.rep = s.tile.rep ∧ s.sameMem t) ∧
  (∀ (s : State) (a : Fin 4) (e : PErr) (c : Site), s.failsArray a e c → s.flag Reg.ERR_CFG_STEP_EN = true →
    Answers (.selftestDone (.unit c (Fin.ofNat 16 (a + 1))) (.fail false)) s fun t =>
      t.fld (Reg.CL_REDIRECT_MAP c) = s.fld (Reg.CL_REDIRECT_MAP c) ∧ (t.fld (Reg.CL_REDIRECT_ACC_OK c)).testBit a = false
      ∧ (t.fld (Reg.CL_RETIRED_UNITS c)).testBit (a + 1) = true ∧ t.flag (Reg.CL_RETIRED_SWAP_PENDING c) = true
      ∧ t.tile.rep.asked = true ∧ s.sameMem t) ∧
  (∀ (s : State) (site : Site) (spare : Nat), s.fw = true → s.recovers = true → s.tile.swapping = true → s.live site = true →
    s.flag (Reg.CL_RETIRED_SWAP_PENDING site) = true →
    (∀ k, k < site.val → s.live k = true → s.flag (Reg.CL_RETIRED_SWAP_PENDING k) = false) → s.canSwap site = true →
    spare = site / 8 * 8 + s.fld (Reg.REGION_MAP_OUT_COL (site / 8)) → spare ≠ site.val →
    Answers .clusterSwap s fun t => t.active site = false ∧ t.active spare = true
      ∧ t.fld (Reg.CL_INFO_LOGICAL spare) = s.fld (Reg.CL_INFO_LOGICAL site)
      ∧ t.flag (Reg.REGION_MAP_SWAPPED (site / 8)) = true ∧ t.flag (Reg.REGION_MAP_NO_SPARE (site / 8)) = true
      ∧ t.fld (Reg.REGION_MAP_OUT_COL (site / 8)) = site % 8 ∧ s.sameMem t) ∧
  (∀ (s : State) (site : Site), s.fw = true → s.recovers = true → s.tile.swapping = true → s.live site = true →
    s.flag (Reg.CL_RETIRED_SWAP_PENDING site) = true →
    (∀ k, k < site.val → s.live k = true → s.flag (Reg.CL_RETIRED_SWAP_PENDING k) = false) → s.canSwap site = false →
    Answers .clusterSwap s fun t => t.ts = tsFailed ∧ t.clusters = s.clusters) ∧
  (∀ (s : State) (i : FlightId) (f : Flight) (site spare : Nat), s.startsCmd i 0x52 f → site = f.p 0 6 →
    spare = site / 8 * 8 + s.fld (Reg.REGION_MAP_OUT_COL (site / 8)) → spare ≠ site →
    Answers (.spareSwap i) s fun t => s.replied t f stOk 0 0 ∧ t.active site = false ∧ t.active spare = true
      ∧ t.fld (Reg.CL_INFO_LOGICAL spare) = s.fld (Reg.CL_INFO_LOGICAL site)
      ∧ t.flag (Reg.REGION_MAP_SWAPPED (site / 8)) = true ∧ t.tile.rep = s.tile.rep)

/-! ## Queues, enables and register writes -/

/-- Doorbells (R288 to R290): by message or by a write of `QDB`, a good index becomes TAIL of an ENABLED queue; one for a queue that is
not enabled is discarded and counted; one at or beyond its ring puts its queue into ERROR with 0x0105, or with 0x0106 for a completion
index. Fetching (R292 to R294, R299): a packet in sequence is consumed, and a legal one joins the commands in flight; one of an undefined
opcode is refused with 0x0109; one out of sequence is refused with 0x0103 and puts its queue into ERROR. That a DRAINING queue goes to
ERROR too is the model's reading (log entry 62). -/
def Obligations.QueuesFetchPackets : Prop :=
  (∀ (s : State) (v : DWord) (q : Nat), s.awake = true → s.bellAtOnce v → v.toNat < 2 ^ 32 → q = bits v.toNat 0 13 →
    bits v.toNat 14 2 = 0 → s.fld (Reg.QUEUE_STATE_STATE q) < 2 →
    Answers (.doorbell v) s fun t => t.fld Reg.QDB_DROP_COUNT = min (2 ^ 32 - 1) (s.fld Reg.QDB_DROP_COUNT + 1)
      ∧ s.sameRegs t (· = Reg.QDB_DROP) ∧ t.flights = s.flights ∧ t.clusters = s.clusters ∧ s.sameMem t) ∧
  (∀ (s : State) (v : DWord) (q : Nat), s.awake = true → s.bellAtOnce v → v.toNat < 2 ^ 32 → q = bits v.toNat 0 13 →
    bits v.toNat 13 3 = 1 → (s.fld (Reg.QUEUE_STATE_STATE q) = 2 ∨ s.fld (Reg.QUEUE_STATE_STATE q) = 3) →
    s.cqEntries q ≤ bits v.toNat 16 16 →
    Answers (.doorbell v) s fun t => t.fld (Reg.QUEUE_STATE_STATE q) = 4 ∧ t.fld (Reg.QUEUE_STATE_REASON q) = 0x0106
      ∧ t.fld (Reg.CQ_PTR_HEAD q) = s.fld (Reg.CQ_PTR_HEAD q) ∧ t.flights = s.flights ∧ t.clusters = s.clusters ∧ s.sameMem t) ∧
  (∀ (s : State) (v : DWord) (q : Nat), s.awake = true → s.bellAtOnce v → v.toNat < 2 ^ 32 → q = bits v.toNat 0 13 →
    bits v.toNat 13 3 = 0 → s.fld (Reg.QUEUE_STATE_STATE q) = 2 →
    Answers (.doorbell v) s fun t =>
      (bits v.toNat 16 16 < s.sqEntries q → t.fld (Reg.SQ_PTR_TAIL q) = bits v.toNat 16 16 ∧ s.sameRegs t (· = Reg.SQ_PTR q))
      ∧ (s.sqEntries q ≤ bits v.toNat 16 16 → t.fld (Reg.QUEUE_STATE_STATE q) = 4 ∧ t.fld (Reg.QUEUE_STATE_REASON q) = 0x0105
        ∧ t.fld (Reg.SQ_PTR_TAIL q) = s.fld (Reg.SQ_PTR_TAIL q))
      ∧ t.flights = s.flights ∧ t.clusters = s.clusters ∧ s.sameMem t) ∧
  (∀ (s : State) (r : Requester) (v : Word) (q : Nat), s.takesWrite r Reg.QDB v.toNat → q = bits v.toNat 0 13 →
    bits v.toNat 13 3 = 0 → s.fld (Reg.QUEUE_STATE_STATE q) = 2 →
    Answers (.qdbWrite r v) s fun t =>
      (bits v.toNat 16 16 < s.sqEntries q → t.fld (Reg.SQ_PTR_TAIL q) = bits v.toNat 16 16 ∧ s.sameRegs t (· = Reg.SQ_PTR q))
      ∧ (s.sqEntries q ≤ bits v.toNat 16 16 → t.fld (Reg.QUEUE_STATE_STATE q) = 4 ∧ t.fld (Reg.QUEUE_STATE_REASON q) = 0x0105
        ∧ t.fld (Reg.SQ_PTR_TAIL q) = s.fld (Reg.SQ_PTR_TAIL q))
      ∧ t.flights = s.flights ∧ t.clusters = s.clusters ∧ s.sameMem t) ∧
  (∀ (s : State) (q w : Nat), s.packetAt q w → s.ts ≤ tsFailed → bits w 16 16 = s.fld (Reg.QUEUE_SEQ_NEXT q) →
    (bits w 0 8 = 0 ∨ bits w 0 8 = 1) → bits w 9 7 = 0 → bits w 64 64 = 0 → s.fld (Reg.QUEUE_CTL_LOG2_SQ q) ≤ 16 →
    Answers .commandFetch s fun t =>
      (∃ lap, (∀ g ∈ s.flights, g.queue = q → g.seq = bits w 16 16 → g.lap < lap) ∧ t.flights = s.flights ++
        [{ queue := q, seq := bits w 16 16, opcode := bits w 0 8, tag := bits w 32 16, jobId := bits w 48 16, halt := bits w 8 1 == 1,
           head := (s.fld (Reg.SQ_PTR_HEAD q) + 1) % s.sqEntries q, param := 0, lap := lap }])
      ∧ t.fld (Reg.SQ_PTR_HEAD q) = (s.fld (Reg.SQ_PTR_HEAD q) + 1) % s.sqEntries q
      ∧ t.fld (Reg.QUEUE_SEQ_NEXT q) = (bits w 16 16 + 1) % 2 ^ 16 ∧ t.clusters = s.clusters ∧ s.sameMem t) ∧
  (∀ (s : State) (q w : Nat), s.packetAt q w → bits w 16 16 = s.fld (Reg.QUEUE_SEQ_NEXT q) → legalStates (bits w 0 8) = none →
    bits w 9 7 = 0 → bits w 70 58 = 0 → bits w 64 6 ≤ 48 → s.fld (Reg.QUEUE_CTL_LOG2_SQ q) ≤ 16 → s.replyAt q + 32 ≤ s.memSize →
    Answers .commandFetch s fun t =>
      t.pkgRead (s.replyAt q) 32 = leBytes 32 (replyBits (bits w 32 16) stInvalid 0x0109 (bits w 16 16) q
        ((s.fld (Reg.SQ_PTR_HEAD q) + 1) % s.sqEntries q) (bits w 48 16) 0 (s.qst q).phase)
      ∧ t.flights = s.flights ∧ t.fld (Reg.SQ_PTR_HEAD q) = (s.fld (Reg.SQ_PTR_HEAD q) + 1) % s.sqEntries q
      ∧ (∀ a, (a < s.replyAt q ∨ s.replyAt q + 32 ≤ a) → memGet t.pkgMem a = memGet s.pkgMem a) ∧ t.clusters = s.clusters) ∧
  (∀ (s : State) (q w : Nat), s.packetAt q w → bits w 16 16 ≠ s.fld (Reg.QUEUE_SEQ_NEXT q) → s.replyAt q + 32 ≤ s.memSize →
    Answers .commandFetch s fun t => t.fld (Reg.QUEUE_STATE_STATE q) = 4 ∧ t.fld (Reg.QUEUE_STATE_REASON q) = 0x0103
      ∧ t.pkgRead (s.replyAt q) 32 = leBytes 32 (replyBits (bits w 32 16) stInvalid 0x0103 (bits w 16 16) q (s.fld (Reg.SQ_PTR_HEAD q))
        (bits w 48 16) (s.fld (Reg.QUEUE_SEQ_NEXT q) + bits w 16 16 * 2 ^ 16) (s.qst q).phase)
      ∧ t.flights = s.flights ∧ t.fld (Reg.SQ_PTR_HEAD q) = s.fld (Reg.SQ_PTR_HEAD q) ∧ t.clusters = s.clusters)

/-- Writes of 1 and 0 to enable bits (R301, R304, R402): the bit stays 0 while its check waits or runs; a queue drains, an edge leaves
once its replay buffer is acknowledged. The end of a consistency check of a queue, an edge, the reduction engine or the job (R301, R304,
R305, R307): on a pass the bit reads 1 and a queue starts with its indices at 0 and its sequence at SEQ0; on a refusal the bit stays 0,
what the write had found stands again, and the reason stands in `CHK_REASON`. What this says beyond the rules' words is the model's
reading (log entry 18). -/
def Obligations.EnablesRunChecks : Prop :=
  (∀ (s : State) (r : Requester) (q : QueueId) (v : Word), s.takesWrite r (Reg.QUEUE_CTL q) (v ||| 1#32).toNat →
    s.fld (Reg.QUEUE_STATE_STATE q) = 0 →
    Answers (.queueCtlEnSet r q v) s fun t => t.fld (Reg.QUEUE_STATE_STATE q) = 1 ∧ t.checks = s.checks ++ [{ what := .queue q }]
      ∧ t.flag (Reg.QUEUE_CTL_EN q) = s.flag (Reg.QUEUE_CTL_EN q)
      ∧ t.fld (Reg.QUEUE_CTL_LIMIT q) = (v.extractLsb' (Reg.QUEUE_CTL_LIMIT q).lo (Reg.QUEUE_CTL_LIMIT q).w).toNat
      ∧ s.sameRegs t (fun o => o = Reg.QUEUE_CTL q ∨ o = Reg.QUEUE_STATE q) ∧ t.flights = s.flights ∧ t.clusters = s.clusters
      ∧ s.sameMem t) ∧
  (∀ (s : State) (r : Requester) (q : QueueId) (v : Word), s.takesWrite r (Reg.QUEUE_CTL q) (v &&& ~~~1#32).toNat →
    (s.fld (Reg.QUEUE_STATE_STATE q) = 2 ∨ s.fld (Reg.QUEUE_STATE_STATE q) = 4) →
    Answers (.queueCtlEnClear r q v) s fun t => t.flag (Reg.QUEUE_CTL_EN q) = false
      ∧ t.fld (Reg.QUEUE_STATE_STATE q) = (if s.fld (Reg.QUEUE_STATE_OUTST q) = 0 then 0 else 3)
      ∧ s.sameRegs t (fun o => o = Reg.QUEUE_CTL q ∨ o = Reg.QUEUE_STATE q) ∧ t.flights = s.flights ∧ t.clusters = s.clusters
      ∧ s.sameMem t) ∧
  (∀ (s : State) (r : Requester) (q : QueueId) (v : Word), s.takesWrite r (Reg.QUEUE_CTL q) (v &&& ~~~1#32).toNat →
    s.fld (Reg.QUEUE_STATE_STATE q) = 1 → s.checks = [{ what := .queue q }] →
    Answers (.queueCtlEnClear r q v) s fun t => t.fld (Reg.QUEUE_STATE_STATE q) = 0 ∧ t.fld (Reg.QUEUE_STATE_REASON q) = 0x0102
      ∧ t.checks = [] ∧ t.flights = s.flights ∧ t.clusters = s.clusters ∧ s.sameMem t) ∧
  (∀ (s : State) (r : Requester) (v : Word), s.takesWrite r Reg.TILE_CTL (v ||| 1#32).toNat → s.flag Reg.TILE_CTL_JOB_EN = false →
    (∀ c ∈ s.checks, c.what ≠ .job) →
    Answers (.jobEnSet r v) s fun t => t.flag Reg.TILE_STATE_JOB_CHECKING = true ∧ t.checks = s.checks ++ [{ what := .job }]
      ∧ t.flag Reg.TILE_CTL_JOB_EN = false ∧ t.ts = s.ts ∧ t.clusters = s.clusters ∧ s.sameMem t) ∧
  (∀ (s : State) (r : Requester) (e : Edge) (v : Word), s.takesWrite r (Reg.LINK_CTL e) (v ||| 1#32).toNat →
    s.flag (Reg.LINK_CTL_EN e) = false → s.checks = [] → s.linkPre e = 0 →
    Answers (.linkCtlEnSet r e v) s fun t => t.flag (Reg.LINK_CTL_CHECKING e) = true
      ∧ t.checks = [{ what := .link e, was := s.fld (Reg.LINK_STATUS_STATE e) }]
      ∧ t.flag (Reg.LINK_CTL_EN e) = false ∧ t.fld (Reg.LINK_STATUS_STATE e) = 1 ∧ (t.edge e).train.step = 1
      ∧ (∀ k, k ≠ e.val → t.edge k = s.edge k) ∧ t.clusters = s.clusters ∧ s.sameMem t) ∧
  (∀ (s : State) (r : Requester) (e : Edge) (v : Word), s.takesWrite r (Reg.LINK_CTL e) (v &&& ~~~1#32).toNat →
    s.flag (Reg.LINK_CTL_EN e) = true →
    Answers (.linkCtlEnClear r e v) s fun t => t.flag (Reg.LINK_CTL_EN e) = false
      ∧ ((s.edge e).replay = [] → t.fld (Reg.LINK_STATUS_STATE e) = 0)
      ∧ ((s.edge e).replay ≠ [] → t.fld (Reg.LINK_STATUS_STATE e) = s.fld (Reg.LINK_STATUS_STATE e) ∧ (t.edge e).leaving = true)
      ∧ (∀ k, k ≠ e.val → t.edge k = s.edge k) ∧ t.clusters = s.clusters ∧ s.sameMem t) ∧
  (∀ (s : State) (r : Requester) (v : Word), s.takesWrite r Reg.REDUCE_CTL (v ||| 1#32).toNat → s.flag Reg.REDUCE_CTL_EN = false →
    (∀ c ∈ s.checks, c.what ≠ .reduce) →
    Answers (.reduceCtlEnSet r v) s fun t => t.flag Reg.REDUCE_CTL_CHECKING = true ∧ t.checks = s.checks ++ [{ what := .reduce }]
      ∧ t.flag Reg.REDUCE_CTL_EN = false ∧ t.clusters = s.clusters ∧ s.sameMem t) ∧
  (∀ (s : State) (k : BitVec 5) (mode : Bool) (delay : BitVec 16) (q : QueueId), s.awake = true → s.checks = [{ what := .queue q }] →
    s.queueCheck q = 0 →
    Answers (.consistencyCheckEnd k mode delay) s fun t => t.checks = [] ∧ t.fld (Reg.QUEUE_STATE_STATE q) = 2
      ∧ t.flag (Reg.QUEUE_CTL_EN q) = true ∧ t.rd (Reg.SQ_PTR q) = 0 ∧ t.rd (Reg.CQ_PTR q) = 0
      ∧ t.fld (Reg.QUEUE_SEQ_NEXT q) = s.fld (Reg.QUEUE_SEQ_SEQ0 q) ∧ t.rd Reg.CHK_REASON = 0 ∧ (t.qst q).phase = true
      ∧ t.clusters = s.clusters ∧ s.sameMem t) ∧
  (∀ (s : State) (k : BitVec 5) (mode : Bool) (delay : BitVec 16) (q : QueueId), s.awake = true → s.checks = [{ what := .queue q }] →
    s.queueCheck q ≠ 0 →
    Answers (.consistencyCheckEnd k mode delay) s fun t => t.checks = [] ∧ t.fld (Reg.QUEUE_STATE_STATE q) = 0
      ∧ t.fld (Reg.QUEUE_STATE_REASON q) = s.queueCheck q ∧ t.flag (Reg.QUEUE_CTL_EN q) = s.flag (Reg.QUEUE_CTL_EN q)
      ∧ (t.rd Reg.CHK_REASON).toNat % 2 ^ 16 = s.queueCheck q ∧ t.clusters = s.clusters ∧ s.sameMem t) ∧
  (∀ (s : State) (k : BitVec 5) (mode : Bool) (delay : BitVec 16) (e : Edge) (was : Nat), s.awake = true →
    s.checks = [{ what := .link e, was := was }] → was < 8 →
    Answers (.consistencyCheckEnd k mode delay) s fun t =>
      (s.linkPre e ≠ 0 → t.checks = [] ∧ t.flag (Reg.LINK_CTL_CHECKING e) = false ∧ t.fld (Reg.LINK_STATUS_STATE e) = was
        ∧ t.flag (Reg.LINK_CTL_EN e) = s.flag (Reg.LINK_CTL_EN e) ∧ (t.rd Reg.CHK_REASON).toNat % 2 ^ 16 = s.linkPre e % 2 ^ 16)
      ∧ (s.linkPre e = 0 → (s.edge e).train.step = 0 → (s.edge e).train.reason = 0 → t.checks = []
        ∧ t.flag (Reg.LINK_CTL_CHECKING e) = false ∧ t.flag (Reg.LINK_CTL_EN e) = true ∧ t.rd Reg.CHK_REASON = 0)
      ∧ t.edges = s.edges ∧ t.clusters = s.clusters ∧ s.sameMem t) ∧
  (∀ (s : State) (k : BitVec 5) (mode : Bool) (delay : BitVec 16), s.awake = true → s.checks = [{ what := .reduce }] →
    Answers (.consistencyCheckEnd k mode delay) s fun t => t.checks = [] ∧ t.flag Reg.REDUCE_CTL_CHECKING = false
      ∧ t.flag Reg.REDUCE_CTL_EN = (s.flag Reg.REDUCE_CTL_EN || decide (s.reduceCheck = 0))
      ∧ (t.rd Reg.CHK_REASON).toNat % 2 ^ 16 = s.reduceCheck ∧ t.clusters = s.clusters ∧ s.sameMem t) ∧
  (∀ (s : State) (k : BitVec 5) (mode : Bool) (delay : BitVec 16), s.awake = true → s.checks = [{ what := .job }] →
    Answers (.consistencyCheckEnd k mode delay) s fun t => t.checks = [] ∧ t.flag Reg.TILE_STATE_JOB_CHECKING = false
      ∧ t.flag Reg.TILE_CTL_JOB_EN = (s.flag Reg.TILE_CTL_JOB_EN || decide (s.jobCheck k.toNat mode delay.toNat = 0))
      ∧ (t.rd Reg.CHK_REASON).toNat % 2 ^ 16 = s.jobCheck k.toNat mode delay.toNat ∧ t.clusters = s.clusters ∧ s.sameMem t)

/-- An offset that no register occupies (R9): a write changes nothing, whoever makes it, and a read, by the host or through the test access
port, returns 0; neither logs anything. -/
def Obligations.UnoccupiedOffsets : Prop :=
  (∀ (s : State) (q : Requester) (o : Nat) (v : Word), o % 4 = 0 → s.freeOffset o → s.monResume = s →
    exec (.registerWrite ⟨q, .word⟩ o v) s = .next s) ∧
  (∀ (s : State) (i : FlightId) (f : Flight), s.startsCmd i 0x02 f → f.p 32 3 = 1 → f.p 0 32 % 4 = 0 → s.freeOffset (f.p 0 32) →
    Answers (.regRead i) s fun t => s.replied t f stOk 0 0 ∧ t.clusters = s.clusters ∧ t.tile = s.tile
      ∧ s.sameRegs t fun o => o = Reg.QUEUE_STATE f.queue ∨ o = Reg.CQ_PTR f.queue ∨ o = Reg.Q_INFLIGHT) ∧
  (∀ (s : State) (dr : BitVec 66), s.alive = true → s.unlocked = true → dr.getLsbD 64 = false →
    (dr.extractLsb' 32 32).toNat % 4 = 0 → s.freeOffset (dr.extractLsb' 32 32).toNat →
    exec (.dbgAccess dr) s = .next { s with jtag := { s.jtag with
      ir := 0x20, tdo := scanBits 8 1 ++ scanBits 66 s.captureDbg, data := 0, done := true, err := false } })

/-- Register writes (R8, R11, R12, R31, R35, R456): a closed port and a refusal change nothing; a misaligned write is logged; a
field takes its value where it is in range; the low half of a 64-bit register waits for the high one; a window write stores four
bytes. What this says beyond the rules' words is the model's reading (log entry 20). -/
def Obligations.RegisterWrites : Prop :=
  (∀ (s : State) (q : Requester) (o : Nat) (v : Word),
    s.portOpen q = false ∨ (o % 4 = 0 ∧ (s.writeRefusal o v.toNat).1 ≠ stOk) → s.monResume = s →
    exec (.registerWrite ⟨q, .word⟩ o v) s = .next s) ∧
  (∀ (s : State) (q : Requester) (w : Width) (o : Nat) (v : Word), s.portOpen q = false → s.monResume = s →
    exec (.registerWrite ⟨q, w⟩ o v) s = .next s) ∧
  (∀ (s : State) (q : Requester) (w : Width) (o : Nat) (v : Word), s.portOpen q = true → (w ≠ .word ∨ o % 4 ≠ 0) →
    Answers (.registerWrite ⟨q, w⟩ o v) s fun t => t.fld Reg.ERR_STATUS_LAST_CLASS = 0x20
      ∧ t.fld Reg.ERR_TOTAL_COUNT = min (2 ^ Reg.ERR_TOTAL_COUNT.w - 1) (s.fld Reg.ERR_TOTAL_COUNT + 1)
      ∧ t.clusters = s.clusters ∧ t.tile = s.tile ∧ s.sameMem t) ∧
  (∀ (s : State) (q : Requester) (v : Word), s.takesWrite q Reg.TILE_WDOG v.toNat →
    Answers (.registerWrite ⟨q, .word⟩ Reg.TILE_WDOG v) s fun t =>
      t.fld Reg.TILE_WDOG_BEATS = (if bits v.toNat 0 24 = 0 then s.fld Reg.TILE_WDOG_BEATS else bits v.toNat 0 24)
      ∧ s.sameRegs t (· = Reg.TILE_WDOG) ∧ t.clusters = s.clusters ∧ t.tile = s.tile ∧ s.sameMem t) ∧
  (∀ (s : State) (q : Requester) (v : Word), s.takesWrite q Reg.BAR_ROOT v.toNat →
    Answers (.registerWrite ⟨q, .word⟩ Reg.BAR_ROOT v) s fun t => t.regs = s.regs ∧ t.clusters = s.clusters ∧ t.tile = s.tile ∧ s.sameMem t
      ∧ ∀ h : Word, t.takesWrite q (Reg.BAR_ROOT + 4) h.toNat →
          Answers (.registerWrite ⟨q, .word⟩ (Reg.BAR_ROOT + 4) h) t fun u => u.rd Reg.BAR_ROOT = v
            ∧ u.rd (Reg.BAR_ROOT + 4) = h ∧ s.sameRegs u (fun o => o = Reg.BAR_ROOT ∨ o = Reg.BAR_ROOT + 4)) ∧
  (∀ (s : State) (q : Requester) (site : Site) (a : Nat) (v : Word), s.portOpen q = true → s.live site = true → s.clean site →
    a % 4 = 0 → a < sliceSize site →
    Answers (.registerWrite ⟨q, .word⟩ (window site + a) v) s fun t => memRead (t.cl site).slice a 4 = leBytes 4 v.toNat
      ∧ (∀ b, (b < a ∨ a + 4 ≤ b) → memGet (t.cl site).slice b = memGet (s.cl site).slice b) ∧ t.regs = s.regs
      ∧ s.otherClusters t site ∧ s.sameMem t)

/-! ## Host commands -/

/-- Housekeeping (R294, R297, R299, R312, R316): NOP and FENCE complete, a FENCE behind every earlier command of its queue; REG_READ
returns a plain register; REG_WRITE writes nothing where its register refuses, and completes once what it starts has ended. -/
def Obligations.HousekeepingCommands : Prop :=
  (∀ (s : State) (i : FlightId) (f : Flight), s.startsCmd i 0x00 f →
    Answers (.nop i) s fun t => s.replied t f stOk 0 0 ∧ t.clusters = s.clusters ∧ t.tile = s.tile ∧ t.job = s.job
      ∧ (∀ a, (a < s.replyAt f.queue ∨ s.replyAt f.queue + 32 ≤ a) → memGet t.pkgMem a = memGet s.pkgMem a)
      ∧ s.sameRegs t fun o => o = Reg.QUEUE_STATE f.queue ∨ o = Reg.CQ_PTR f.queue ∨ o = Reg.Q_INFLIGHT) ∧
  (∀ (s : State) (i : FlightId) (f : Flight), s.startsCmd i 0x01 f →
    ((∀ g ∈ s.flights, g.queue = f.queue → g = f) →
      Answers (.fence i) s fun t => s.replied t f stOk 0 0 ∧ t.clusters = s.clusters ∧ t.tile = s.tile)
    ∧ ((∃ g ∈ s.flights, g.queue = f.queue ∧ g ≠ f) → exec (.fence i) s = .next s)) ∧
  (∀ (s : State) (i : FlightId) (f : Flight) (r : RegInfo), s.startsCmd i 0x02 f → f.p 32 3 = 1 → f.p 0 32 % 4 = 0 →
    s.windowAt (f.p 0 32) = none → s.debugWord (f.p 0 32) = none → regInfo (f.p 0 32) = some r → r.acc.rc = 0 → r.pair = false →
    s.absent (f.p 0 32) = false → pstoreSite (f.p 0 32) = none →
    Answers (.regRead i) s fun t => s.replied t f stOk 0 (s.rd (f.p 0 32)).toNat ∧ t.clusters = s.clusters ∧ t.tile = s.tile) ∧
  (∀ (s : State) (i : FlightId) (f : Flight) (o : Nat) (v : Word), s.startsCmd i 0x03 f → f.writes = [(o, v)] →
    (s.writeRefusal o v.toNat).1 ≠ stOk →
    Answers (.regWrite i) s fun t => s.replied t f (s.writeRefusal o v.toNat).1 (s.writeRefusal o v.toNat).2
        (if (s.writeRefusal o v.toNat).2 = 0x0110 then o else 0)
      ∧ t.clusters = s.clusters ∧ t.tile = s.tile
      ∧ s.sameRegs t fun o => o = Reg.QUEUE_STATE f.queue ∨ o = Reg.CQ_PTR f.queue ∨ o = Reg.Q_INFLIGHT) ∧
  (∀ (s : State) (i : FlightId) (f : Flight) (v : Word), s.startsCmd i 0x03 f → f.writes = [(Reg.TILE_WDOG, v)] →
    (s.writeRefusal Reg.TILE_WDOG v.toNat).1 = stOk → bits v.toNat 0 24 ≠ 0 → s.checks = [] → s.pwr.move = none →
    Answers (.regWrite i) s fun t => s.replied t f stOk 0 0 ∧ t.fld Reg.TILE_WDOG_BEATS = bits v.toNat 0 24
      ∧ t.clusters = s.clusters ∧ t.tile = s.tile) ∧
  (∀ (s : State) (i : FlightId) (f : Flight) (v : Word), s.startsCmd i 0x03 f → f.writes = [(Reg.TILE_CTL, v)] →
    (s.writeRefusal Reg.TILE_CTL v.toNat).1 = stOk → v.getLsbD 0 = true → s.flag Reg.TILE_CTL_JOB_EN = false → s.checks = [] →
    s.pwr.move = none →
    Answers (.regWrite i) s fun t => ({ f with phase := .running, checks := 1 } : Flight) ∈ t.flights
      ∧ t.checks = [{ what := .job, starter := some (f.queue, f.seq) }] ∧ t.flag Reg.TILE_CTL_JOB_EN = false
      ∧ t.clusters = s.clusters ∧ s.sameMem t)

/-- Data commands (R206, R324, R325, R397): COPY, FILL and TRANSPOSE run on; one whose grants do not suffice takes what is left and runs
on; a COPY that is complete has moved its bytes, a FILL has written its pattern; a poisoned source ends a COPY with 0x021B;
PREFETCH_CANCEL empties the contexts it names. What this says beyond the rules' words is the model's reading (log entries 41, 49 and 88). -/
def Obligations.DataCommands : Prop :=
  (∀ (s : State) (i : FlightId) (f : Flight), s.startsCmd i 0x20 f →
    Answers (.copy i) s fun t => t.runsOn f ∧ t.regs = s.regs ∧ t.clusters = s.clusters ∧ t.tile = s.tile ∧ s.sameMem t) ∧
  (∀ (s : State) (i : FlightId) (f : Flight), s.startsCmd i 0x21 f →
    Answers (.fill i) s fun t => t.runsOn f ∧ t.regs = s.regs ∧ t.clusters = s.clusters ∧ t.tile = s.tile ∧ s.sameMem t) ∧
  (∀ (s : State) (i : FlightId) (f : Flight), s.startsCmd i 0x22 f →
    Answers (.transpose i) s fun t => t.runsOn f ∧ t.regs = s.regs ∧ t.clusters = s.clusters ∧ t.tile = s.tile ∧ s.sameMem t) ∧
  (∀ (s : State) (i : FlightId) (f : Flight) (src dst n r : Nat), s.runsCmd i [0x20, 0x21, 0x22] f → f.opcode = 0x20 →
    awSpace (f.p 0 64) = 0 → awSpace (f.p 64 64) = 0 → src = awAddr (f.p 0 64) → dst = awAddr (f.p 64 64) → n = f.p 128 32 →
    r = s.replyAt f.queue → s.poison = [] → f.p 182 1 = 0 → dst + n ≤ s.memSize → (r + 32 ≤ dst ∨ dst + n ≤ r) →
    s.dataServed f →
    Answers (.dataCommandComplete i) s fun t => s.replied t f stOk 0 0 ∧ t.pkgRead dst n = s.pkgRead src n
      ∧ (∀ a, (a < dst ∨ dst + n ≤ a) → (a < r ∨ r + 32 ≤ a) → memGet t.pkgMem a = memGet s.pkgMem a)
      ∧ t.clusters = s.clusters) ∧
  (∀ (s : State) (i : FlightId) (f : Flight), s.runsCmd i [0x20, 0x21, 0x22] f → s.dataWaits f = false → ¬ s.dataServed f →
    Answers (.dataCommandComplete i) s fun t =>
      ({ f with want := some (f.wants.1 - s.dataTake 0 f.wants.1, f.wants.2 - s.dataTake 1 f.wants.2) } : Flight) ∈ t.flights
      ∧ t.regs = s.regs ∧ t.clusters = s.clusters ∧ s.sameMem t) ∧
  (∀ (s : State) (i : FlightId) (f : Flight) (dst n r : Nat), s.runsCmd i [0x20, 0x21, 0x22] f → f.opcode = 0x21 →
    awSpace (f.p 64 64) = 0 → dst = awAddr (f.p 64 64) → n = f.p 128 32 → r = s.replyAt f.queue → f.p 182 1 = 0 →
    dst + n ≤ s.memSize → (r + 32 ≤ dst ∨ dst + n ≤ r) → s.dataServed f →
    Answers (.dataCommandComplete i) s fun t => s.replied t f stOk 0 0
      ∧ (∀ k, k < n → memGet t.pkgMem (dst + k) = BitVec.ofNat 8 (f.p 0 64 / 2 ^ (8 * (k % 8))))
      ∧ t.clusters = s.clusters) ∧
  (∀ (s : State) (i : FlightId) (f : Flight) (a : Nat), s.runsCmd i [0x20, 0x21, 0x22] f → f.opcode = 0x20 →
    awSpace (f.p 0 64) = 0 → awSpace (f.p 64 64) = 0 → s.poisonAt (awAddr (f.p 0 64)) (f.p 128 32) = some a → s.dataServed f →
    Answers (.dataCommandComplete i) s fun t => s.replied t f stFaultAbandoned 0x021B (a % 2 ^ 48) ∧ t.clusters = s.clusters) ∧
  (∀ (s : State) (i : FlightId) (f : Flight), s.startsCmd i 0x23 f →
    Answers (.prefetchCancel i) s fun t => t.left f
      ∧ (∀ d, d < 64 → (f.p 0 64).testBit d = true → (t.ctx (f.p 64 6) d).act = none ∧ (t.ctx (f.p 64 6) d).shd = none)
      ∧ (∀ d, d < 64 → (f.p 0 64).testBit d = false → t.ctx (f.p 64 6) d = s.ctx (f.p 64 6) d)
      ∧ s.otherClusters t (f.p 64 6) ∧ s.sameSlices t)

/-- Sync commands (R220, R240, R326): SIGNAL adds its increment to a tile or cluster object, clamped; WAIT runs on, completes at
its threshold and can subtract it, or times out; QUERY returns the object's record. What this says beyond the rules' words is
the model's reading (log entry 41). -/
def Obligations.SyncCommands : Prop :=
  (∀ (s : State) (i : FlightId) (f : Flight) (o : Nat), s.startsCmd i 0x30 f → bits (f.p 0 16) 14 2 = 1 → o = f.p 0 16 % 256 →
    Answers (.signal i) s fun t => s.replied t f stOk 0 0
      ∧ t.fld (Reg.TOBJ_VAL_VALUE o) = clampObj ((s.fld (Reg.TOBJ_VAL_VALUE o) : Int) + sext (f.p 32 32) 32)
      ∧ (∀ k, k < 256 → k ≠ o → t.fld (Reg.TOBJ_VAL_VALUE k) = s.fld (Reg.TOBJ_VAL_VALUE k)) ∧ t.clusters = s.clusters) ∧
  (∀ (s : State) (i : FlightId) (f : Flight) (site o : Nat), s.startsCmd i 0x30 f → bits (f.p 0 16) 14 2 = 0 → site = f.p 16 6 →
    o = f.p 0 16 % 64 → o < 48 →
    Answers (.signal i) s fun t => s.replied t f stOk 0 0
      ∧ t.fld (Reg.SYNC_VAL_VALUE site o) = clampObj ((s.fld (Reg.SYNC_VAL_VALUE site o) : Int) + sext (f.p 32 32) 32)
      ∧ s.otherClusters t site ∧ s.sameSlices t ∧ t.tile = s.tile) ∧
  (∀ (s : State) (i : FlightId) (f : Flight), s.startsCmd i 0x31 f →
    Answers (.wait i) s fun t => t.runsOn f ∧ t.regs = s.regs ∧ t.clusters = s.clusters ∧ t.tile = s.tile ∧ s.sameMem t) ∧
  (∀ (s : State) (i : FlightId) (f : Flight) (o thr v : Nat), s.runsCmd i [0x31] f → bits (f.p 0 16) 14 2 = 1 → o = f.p 0 16 % 256 →
    thr = f.p 32 24 → v = s.fld (Reg.TOBJ_VAL_VALUE o) → thr ≤ v → (∀ g ∈ s.flights, g.opcode = 0x31 → g = f) →
    s.coreFirst f = false →
    Answers (.hostWaitMet i) s fun t => s.replied t f stOk 0 (if f.p 56 1 = 1 then v - thr else v)
      ∧ t.fld (Reg.TOBJ_VAL_VALUE o) = (if f.p 56 1 = 1 then v - thr else v) ∧ t.clusters = s.clusters) ∧
  (∀ (s : State) (i : FlightId) (f : Flight), s.runsCmd i [0x31] f →
    Answers (.hostWaitTmo i) s fun t => s.replied t f stTimeout 0x080C 0 ∧ t.clusters = s.clusters ∧ t.tile = s.tile) ∧
  (∀ (s : State) (i : FlightId) (f : Flight), s.startsCmd i 0x32 f →
    Answers (.query i) s fun t => s.replied t f stOk 0 (s.queryDetail f)
      ∧ (bits (f.p 0 16) 14 2 = 1 → bits (s.queryDetail f) 0 24 = s.fld (Reg.TOBJ_VAL_VALUE (f.p 0 16 % 256)))
      ∧ t.clusters = s.clusters ∧ t.tile = s.tile)

/-- Reduction commands (R247, R327): REDUCE_CFG writes the group's words, or none where one is refused; REDUCE_BUCKET seals the
NEXT bucket, and waits where it cannot be sealed yet. -/
def Obligations.ReductionCommands : Prop :=
  (∀ (s : State) (i : FlightId) (f : Flight) (g : Nat), s.startsCmd i 0x40 f → g = f.p 0 4 → 1 ≤ g → g ≤ 12 →
    s.firstRefused f.groupWords = none →
    Answers (.reduceCfg i) s fun t => s.replied t f stOk 0 0 ∧ t.fld (Reg.REDUCE_GRP0_OUT g) = bits (f.p 32 32) 10 3
      ∧ t.fld (Reg.REDUCE_GRP0_IN_MASK g) = bits (f.p 32 32) 4 6 ∧ t.fld (Reg.REDUCE_GRP1_PARTICIPANTS g) = bits (f.p 64 32) 0 16
      ∧ t.fld (Reg.REDUCE_GRP1_DEADLINE g) = bits (f.p 64 32) 16 16 ∧ t.fld (Reg.REDUCE_GRP2_NBUCKET g) = bits (f.p 96 32) 12 13
      ∧ t.clusters = s.clusters ∧ t.tile = s.tile) ∧
  (∀ (s : State) (i : FlightId) (f : Flight) (o st r : Nat), s.startsCmd i 0x40 f → s.firstRefused f.groupWords = some (o, st, r) →
    Answers (.reduceCfg i) s fun t => s.replied t f st r (if r = 0x0110 then o else 0) ∧ t.clusters = s.clusters ∧ t.tile = s.tile
      ∧ s.sameRegs t fun o => o = Reg.QUEUE_STATE f.queue ∨ o = Reg.CQ_PTR f.queue ∨ o = Reg.Q_INFLIGHT) ∧
  (∀ (s : State) (i : FlightId) (f : Flight) (g k : Nat), s.startsCmd i 0x41 f → g = f.p 0 4 → k = s.fld (Reg.REDUCE_GST_NEXT g) →
    (f.p 16 12 = k → s.sealOpen g = true → descOk (s.redArrival g) (s.redDesc g k) = true →
      Answers (.reduceBucket i) s fun t => t.left f ∧ (t.bucket g k).mine = true
        ∧ (t.bucket g k).converting = true ∧ t.clusters = s.clusters)
    ∧ (f.p 16 12 = k → s.sealOpen g = false →
      Answers (.reduceBucket i) s fun t => t.runsOn f ∧ t.regs = s.regs ∧ t.clusters = s.clusters ∧ t.tile = s.tile ∧ s.sameMem t))


/-- Health, power and security commands (R328, R329, R370, R431, R433, R434): ERR_QUERY copies log entries; SELFTEST takes its unit out
of service; CAP_SET changes the cap; ENERGY_READ, FW_INFO and ATTEST report; DEBUG_UNLOCK issues a challenge, locks, and refuses an answer
where none stands; a challenge lapses after 60 s. -/
def Obligations.HealthAndSecurityCommands : Prop :=
  (∀ (s : State) (i : FlightId) (f : Flight) (a r : Nat), s.startsCmd i 0x50 f → f.p 58 11 = 1 → a = f.p 0 48 → r = s.replyAt f.queue →
    a + 32 ≤ s.memSize → (r + 32 ≤ a ∨ a + 32 ≤ r) →
    Answers (.errQuery i) s fun t =>
      s.replied t f stOk 0 (s.fld Reg.ERR_STATUS_WR_IDX + (s.rd Reg.ERR_TOTAL).toNat * 2 ^ 32)
      ∧ t.pkgRead a 32 = leBytes 32 (s.rdWide (Reg.ERR_LOG (f.p 48 10)) 8)
      ∧ (∀ b, (b < a ∨ a + 32 ≤ b) → (b < r ∨ r + 32 ≤ b) → memGet t.pkgMem b = memGet s.pkgMem b) ∧ t.clusters = s.clusters) ∧
  (∀ (s : State) (i : FlightId) (f : Flight) (c : Site) (n : Fin 16), s.startsCmd i 0x51 f → f.unitTested = some (.unit c n) →
    1 ≤ n.val → n.val ≤ 4 →
    Answers (.selftest i) s fun t => t.runsOn f ∧ t.fld (Reg.ARR_STATUS_STATE c (n.val - 1)) = 6
      ∧ s.sameRegs t (· = Reg.ARR_STATUS c (n.val - 1)) ∧ t.clusters = s.clusters ∧ s.sameMem t) ∧
  (∀ (s : State) (i : FlightId) (f : Flight), s.startsCmd i 0x60 f →
    Answers (.capSet i) s fun t => s.replied t f stOk 0 (s.fld Reg.PWR_CAP_CAP) ∧ t.fld Reg.PWR_CAP_CAP = f.p 0 16 % 2 ^ 11
      ∧ t.clusters = s.clusters ∧ t.tile = s.tile) ∧
  (∀ (s : State) (i : FlightId) (f : Flight), s.startsCmd i 0x61 f →
    Answers (.energyRead i) s fun t =>
      s.replied t f stOk 0 (s.rd64 (Reg.ENERGY_JOB (f.p 0 4)) + s.rd64 Reg.TIME_NOW * 2 ^ 64) ∧ t.clusters = s.clusters
      ∧ t.tile = s.tile) ∧
  (∀ (s : State) (i : FlightId) (f : Flight) (a r : Nat), s.startsCmd i 0x70 f → a = f.p 0 48 → r = s.replyAt f.queue →
    a + 320 ≤ s.memSize → (r + 32 ≤ a ∨ a + 320 ≤ r) →
    Answers (.attest i) s fun t => s.replied t f stOk 0 320 ∧ t.pkgRead a 320 = s.report (leBytes 32 (f.p 64 256))
      ∧ t.clusters = s.clusters ∧ t.tile = s.tile) ∧
  (∀ (s : State) (i : FlightId) (f : Flight), s.startsCmd i 0x71 f →
    Answers (.fwInfo i) s fun t => s.replied t f stOk 0 (s.rdWide Reg.FW_ID 2 + s.rd64 Reg.FW_DIGEST * 2 ^ 64)
      ∧ t.clusters = s.clusters ∧ t.tile = s.tile) ∧
  (∀ (s : State) (i : FlightId) (f : Flight), s.startsCmd i 0x72 f →
    (f.p 0 2 = 0 → Answers (.debugUnlock i) s fun t =>
      (∃ c, t.boot.challenge = some c ∧ c.drop 8 = leBytes 8 (s.rd64 Reg.SB_UID) ∧ s.replied t f stOk 0 (leNat c))
        ∧ t.boot.challengeAt = s.rd64 Reg.TIME_NOW ∧ t.flag Reg.DBG_STATE_CHALLENGE = true ∧ t.unlocked = s.unlocked)
    ∧ (f.p 0 2 = 2 → Answers (.debugUnlock i) s fun t => s.replied t f stOk 0 0
      ∧ t.unlocked = (s.unlocked && !s.dev.lifecycle))
    ∧ (f.p 0 2 = 1 → s.boot.challenge = none → Answers (.debugUnlock i) s fun t => s.replied t f stRefusedState 0x0702 0
      ∧ t.unlocked = s.unlocked)) ∧
  (∀ s : State, Answers .challengeLapse s fun t => t.boot.challenge =
      (if s.boot.challengeAt + 60 * 10 ^ 9 ≤ s.rd64 Reg.TIME_NOW then none else s.boot.challenge)
      ∧ t.clusters = s.clusters ∧ t.tile = s.tile ∧ s.sameMem t) ∧
  (∀ (s : State) (q : Requester) (v : Word), s.takesWrite q Reg.DBG_STATE v.toNat →
    Answers (.dbgStateLock q v) s fun t => t.unlocked = (s.unlocked && !(v.getLsbD 2 && s.dev.lifecycle))
      ∧ s.sameRegs t (· = Reg.DBG_STATE) ∧ t.clusters = s.clusters ∧ s.sameMem t)

/-! ## Jobs and steps -/

/-- Loading and starting a job (R317 to R319): a good image starts its copy with the tile in FW_READY, a bad one is refused with 0x0209; a
copy that is done leaves JOB_LOADED with its JOB_ID, a late one fails with 0x020B; JOB_START arms the slots; the beat master keeps the
reports that messages bring, and its answer starts the job of another tile, or ends its JOB_START where TILES differ or no answer comes.
What this says beyond the rules' words is the model's reading (log entries 42 and 43). -/
def Obligations.JobsLoadAndStart : Prop :=
  (∀ (s : State) (i : FlightId) (f : Flight) (d : Nat), s.startsCmd i 0x10 f → s.imageCheck f = .error d →
    Answers (.jobLoad i) s fun t => s.replied t f stInvalid 0x0209 d ∧ t.ts = s.ts ∧ t.job = s.job ∧ t.clusters = s.clusters) ∧
  (∀ (s : State) (i : FlightId) (f : Flight) (l : List Section), s.startsCmd i 0x10 f → s.imageCheck f = .ok l → s.swapPending = false →
    s.fld Reg.PWR_REGION_DOWN = 0 →
    Answers (.jobLoad i) s fun t => t.runsOn f ∧ t.ts = tsFwReady ∧ t.job.image = l ∧ t.flag Reg.TILE_CTL_JOB_EN = false
      ∧ (∀ site n, t.slot site n = {}) ∧ s.sameMem t ∧ s.sameSlices t) ∧
  (∀ (s : State) (f : Flight) (r : State), s.fw = true → s.pwr.regionsUp = [] → s.runningOp 0x10 = some f →
    s.loadWords (s.job.image.flatMap Section.words) = (r, (s.job.image.flatMap Section.words).length) →
    Answers .jobLoadCopyDone s fun t => t.ts = tsJobLoaded ∧ t.fld Reg.TILE_CTL_JOB_ID = f.jobId % 2 ^ 16
      ∧ t.left f ∧ t.clusters = r.clusters) ∧
  (∀ (s : State) (f : Flight), s.fw = true → s.runningOp 0x10 = some f → f.queue < 8192 →
    Answers .jobLoadTmo s fun t => s.replied t f stTimeout 0x020B 0 ∧ t.fld Reg.TILE_CTL_JOB_ID = 0 ∧ s.sameSlices t) ∧
  (∀ (s : State) (i : FlightId) (f : Flight), s.startsCmd i 0x11 f → s.ts = tsJobLoaded →
    Answers (.jobStart i) s fun t => t.runsOn f ∧ t.job.tiles = f.p 0 8 ∧ t.ts = tsJobLoaded
      ∧ (∀ site n, s.live site = true → site < 64 → n < 4 → s.slotUsed site n = true →
          t.slotState site n = slWait ∧ (t.slot site n).next = 0 ∧ (s.clean site → (t.slot site n).copied = true))
      ∧ s.sameMem t ∧ s.sameSlices t) ∧
  (∀ (s : State) (tile : Fin 8) (tiles : Byte) (m : GMsg), s.fw = true → s.flag Reg.BEAT_CFG_MASTER = true →
    s.reportWaits tile tiles = some m → tile.val ≠ s.fld Reg.TILE_ID_TILE_NUM →
    (∀ r ∈ s.job.ready, r.1 ≠ s.fld Reg.TILE_ID_TILE_NUM) →
    Answers (.readyReport tile tiles) s fun t =>
      t.job.ready = (s.job.ready.filter fun r => r.1 != tile.val) ++ [(tile.val, tiles.toNat)] ∧ t.job.starting = s.job.starting
        ∧ s.sameRegs t usedWord ∧ t.clusters = s.clusters ∧ t.flights = s.flights ∧ s.sameMem t) ∧
  (∀ (s : State) (tile : Fin 8) (tiles : Byte) (m : GMsg), s.fw = true → s.flag Reg.BEAT_CFG_MASTER = false →
    (s.runningOp 0x11).isSome = true → s.mismatchWaits = none → s.reportWaits tile tiles = some m → tiles.toNat = s.job.tiles →
    Answers (.readyReport tile tiles) s fun t => t.job.starting = true ∧ s.sameRegs t usedWord ∧ t.clusters = s.clusters
      ∧ t.flights = s.flights ∧ s.sameMem t) ∧
  (∀ (s : State) (tile : Fin 8) (tiles : Byte) (f : Flight) (m : GMsg), s.fw = true → s.flag Reg.BEAT_CFG_MASTER = false →
    s.flights = [f] → f.opcode = 0x11 → f.phase = .running → f.queue < 8192 →
    (s.mismatchWaits = some m ∨ (s.mismatchWaits = none ∧ s.reportWaits tile tiles = some m ∧ tiles.toNat ≠ s.job.tiles)) →
    Answers (.readyReport tile tiles) s fun t => s.replied t f stRefusedConfig 0x020D 0 ∧ t.job.starting = false ∧ t.ts = s.ts) ∧
  (∀ (s : State) (f : Flight), s.fw = true → s.job.starting = false → s.flights = [f] → f.opcode = 0x11 → f.phase = .running →
    f.queue < 8192 →
    Answers .startTmo s fun t => s.replied t f stTimeout 0x020C 0 ∧ t.ts = s.ts ∧ t.job.starting = false)

/-- Pausing and stopping a job, and its steps (R320 to R322): a pause is armed and entered once every slot is quiet; JOB_STOP
cancels what runs, and the idle tile returns to FW_READY, or to FAILED where it hangs; STEP_BEGIN opens a step, and its STEP_END
ends when every bucket is DONE, or after its beats. What this says beyond the rules' words is the model's reading (log entry
43). -/
def Obligations.PausesStopsAndSteps : Prop :=
  (∀ (s : State) (i : FlightId) (f : Flight), s.startsCmd i 0x12 f →
    Answers (.jobPause i) s fun t => t.runsOn f ∧ t.flag Reg.TILE_STATE_PAUSE_PENDING = true ∧ t.job.pauseAt = some (f.p 0 32)
      ∧ t.ts = s.ts ∧ t.clusters = s.clusters ∧ s.sameMem t) ∧
  (∀ (s : State) (f : Flight), s.fw = true → s.ts = tsRunning → s.job.pausing = true → s.quiet = true → s.flights = [f] →
    f.opcode = 0x12 → f.phase = .running →
    Answers .pauseEntry s fun t => t.ts = tsPaused ∧ t.flag Reg.TILE_STATE_PAUSE_PENDING = false
      ∧ t.flag Reg.TILE_STATE_PAUSED_AT_STEP = s.job.pauseRel ∧ s.replied t f stOk 0 (s.rd64 Reg.BEAT_COUNT)
      ∧ t.clusters = s.clusters ∧ t.tile = s.tile) ∧
  (∀ (s : State) (i : FlightId) (f : Flight), s.startsCmd i 0x13 f →
    Answers (.jobStop i) s fun t => t.job.stopping = true ∧ t.job.pauseAt = none ∧ (∀ g ∈ t.flights, stopCancels g = false)
      ∧ t.tile.rels = [] ∧ t.tile.held = [] ∧ t.tile.rep.named = none ∧ t.ts = s.ts ∧ s.sameSlices t) ∧
  (∀ (s : State) (f : Flight), s.fw = true → s.unitsIdle = true → s.flights = [f] → f.opcode = 0x13 → f.phase = .running →
    f.queue < 8192 →
    Answers .jobStopIdle s fun t => t.ts = tsFwReady ∧ t.fld Reg.TILE_CTL_JOB_ID = 0 ∧ t.flag Reg.TILE_CTL_JOB_EN = false
      ∧ s.replied t f stOk 0 0 ∧ t.flights = [] ∧ s.sameSlices t) ∧
  (∀ (s : State) (f : Flight), s.fw = true → s.flights = [f] → f.opcode = 0x13 → f.phase = .running →
    Answers .stopHung s fun t => t.ts = tsFailed ∧ t.fld Reg.TILE_STATE_REASON = 0x0219 ∧ s.replied t f stFaultAbandoned 0x0219 0
      ∧ t.clusters = s.clusters) ∧
  (∀ (s : State) (i : FlightId) (f : Flight), s.startsCmd i 0x14 f →
    Answers (.stepBegin i) s fun t => s.replied t f stOk 0 0 ∧ (t.rd Reg.TILE_STEP).toNat = f.p 0 32
      ∧ t.flag Reg.TILE_STATE_STEP_OPEN = true ∧ (∀ g, 1 ≤ g → g ≤ 12 → (t.grp g).sealing = true ∧ (t.grp g).done = [])
      ∧ t.ts = s.ts ∧ s.sameSlices t) ∧
  (∀ (s : State) (i : FlightId) (f : Flight), s.startsCmd i 0x15 f →
    Answers (.stepEnd i) s fun t => t.runsOn f ∧ t.regs = s.regs ∧ t.clusters = s.clusters ∧ t.tile = s.tile ∧ s.sameMem t) ∧
  (∀ (s : State) (i : FlightId) (f : Flight), s.runsCmd i [0x15] f → s.abandoned = none → s.allDone = true → s.attempts = 0 →
    Answers (.stepEndDone i) s fun t => s.replied t f stOk 0 s.stepDetail ∧ t.flag Reg.TILE_STATE_STEP_OPEN = false
      ∧ t.clusters = s.clusters ∧ t.tile = s.tile) ∧
  (∀ (s : State) (i : FlightId) (f : Flight), s.runsCmd i [0x15] f → f.p 0 16 ≤ f.beats →
    Answers (.stepTmo i) s fun t => s.replied t f stTimeout 0x020E s.stepDetail
      ∧ t.flag Reg.TILE_STATE_STEP_OPEN = s.flag Reg.TILE_STATE_STEP_OPEN ∧ t.clusters = s.clusters ∧ t.tile = s.tile)

/-! ## Links -/

/-- Edges (R381 to R383, R391 to R394): a damaged flit and one out of order set NAK, one in order advances the sequence and
frees what it acknowledges; a failed lane is replaced by a spare, or the edge is DEGRADED or LOST; training goes on step by
step, and descriptors are sent and accepted. What this says beyond the rules' words is the model's reading (log entries 50,
51, 104 and 110). -/
def Obligations.EdgesReceiveAndTrain : Prop :=
  (∀ (s : State) (e : Edge) (f : Flit), s.alive = true → s.edgeUp e = true → flitOk f = false →
    Answers (.flitReceipt e f) s fun t => (t.edge e).nak = true ∧ (t.edge e).rxSeq = (s.edge e).rxSeq
      ∧ (t.edge e).refused = Store.upd 0 (s.edge e).refused (Flit.num f 0 2 % 4096) (· + 1) ∧ (t.edge e).ingress = (s.edge e).ingress
      ∧ t.fld (Reg.LINK_CRC_ERR_COUNT e) = min (2 ^ 32 - 1) (s.fld (Reg.LINK_CRC_ERR_COUNT e) + 1) ∧ s.onlyEdge t e) ∧
  (∀ (s : State) (e : Edge) (f : Flit), s.alive = true → s.edgeUp e = true → flitOk f = true →
    Flit.num f 0 2 % 4096 ≠ (s.edge e).rxSeq →
    Answers (.flitReceipt e f) s fun t => (t.edge e).nak = true ∧ (t.edge e).rxSeq = (s.edge e).rxSeq
      ∧ (t.edge e).ingress = (s.edge e).ingress ∧ s.onlyEdge t e) ∧
  (∀ (s : State) (e : Edge) (f : Flit) (seq ack : Nat), s.alive = true → s.edgeUp e = true → flitOk f = true →
    seq = Flit.num f 0 2 % 4096 → seq = (s.edge e).rxSeq → Flit.num f 0 2 / 4096 ≠ 1 → Flit.num f 4 4 % 4 ≠ 3 →
    ack = Flit.num f 2 2 % 4096 → (s.edge e).leaving = false →
    Answers (.flitReceipt e f) s fun t => (t.edge e).nak = false ∧ (t.edge e).rxSeq = (seq + 1) % 4096 ∧ (t.edge e).ack = seq
      ∧ (t.edge e).refused = [] ∧ (t.edge e).ackDue = true
      ∧ (t.edge e).replay = ((s.edge e).replay.filter fun x => 2048 ≤ (ack + 4096 - x.seq) % 4096)
      ∧ (bits (Flit.num f 2 2) 12 1 = 0 → (t.edge e).wire = (s.edge e).wire)
      ∧ (bits (Flit.num f 2 2) 12 1 = 1 → (t.edge e).wire = (s.edge e).wire ++ (t.edge e).replay.map fun x => flitBytes x seq false 0)
      ∧ t.fld (Reg.LINK_RETRY_COUNT e)
        = min (2 ^ 32 - 1) (s.fld (Reg.LINK_RETRY_COUNT e) + bits (Flit.num f 2 2) 12 1)
      ∧ (t.edge e).ingress = (s.edge e).ingress ∧ s.onlyEdge t e) ∧
  (∀ (s : State) (e : Edge) (lane : Fin 34) (why : LaneFail), s.alive = true → s.edgeUp e = true → s.laneOn e lane = true →
    s.laneBad e lane why = true → (s.edge e).plans = [] →
    Answers (.laneFailure e lane why) s fun t =>
      (s.freeSpares e ≠ [] → t.fld (Reg.LINK_STATUS_STATE e) = s.fld (Reg.LINK_STATUS_STATE e)
        ∧ t.fld (Reg.LINK_STATUS_LANES e) = s.fld (Reg.LINK_STATUS_LANES e) ∧ t.fld Reg.ERR_STATUS_LAST_CLASS = 0x26
        ∧ (t.edge e).lsym.length = (s.edge e).lsym.length + 1
        ∧ (t.edge e).plans = [{ seq := ((s.edge e).txSeq + 64) % 4096, logical := s.logicalOf e lane, spare := (s.freeSpares e).head?, own := true }])
      ∧ (s.freeSpares e = [] → 17 ≤ s.fld (Reg.LINK_STATUS_LANES e) → t.fld (Reg.LINK_STATUS_STATE e) = s.fld (Reg.LINK_STATUS_STATE e)
        ∧ t.fld (Reg.LINK_STATUS_LANES e) = s.fld (Reg.LINK_STATUS_LANES e)
        ∧ (t.edge e).plans = [{ seq := ((s.edge e).txSeq + 64) % 4096, logical := s.logicalOf e lane, spare := none, own := true }]
        ∧ ∃ x, t.tile.errs = s.tile.errs ++ [x] ∧ x.cls = 0x09 ∧ x.reason = 0x0307 ∧ x.unit = .edge e)
      ∧ (s.freeSpares e = [] → s.fld (Reg.LINK_STATUS_LANES e) ≤ 16 → t.fld (Reg.LINK_STATUS_STATE e) = 4
        ∧ ∃ x, t.tile.errs = s.tile.errs ++ [x] ∧ x.cls = 0x09 ∧ x.reason = 0x0308 ∧ x.unit = .edge e)
      ∧ s.onlyEdge t e) ∧
  (∀ (s : State) (e : Edge) (lane : Fin 34) (why : LaneFail), s.alive = true → s.edgeUp e = true → s.laneOn e lane = true →
    s.laneBad e lane why = false → exec (.laneFailure e lane why) s = .next s) ∧
  (∀ (s : State) (e : Edge) (p : LanePlan), p.logical < 32 → s.laneOn e p.logical = true → p.spare = none →
    1 ≤ s.fld (Reg.LINK_STATUS_LANES e) →
    (s.applyPlan e p).laneOn e p.logical = false
      ∧ (s.applyPlan e p).fld (Reg.LINK_STATUS_LANES e) = s.fld (Reg.LINK_STATUS_LANES e) - 1) ∧
  (∀ (s : State) (e : Edge) (lane : Fin 34), s.alive = true → s.edgeUp e = true → s.laneOn e lane = false →
    Answers (.laneFailure e lane .lock) s fun t => t.regs = s.regs ∧ (t.edge e).train.bad.getLsbD lane = true
      ∧ (t.edge e).ingress = (s.edge e).ingress ∧ (t.edge e).out = (s.edge e).out ∧ s.onlyEdge t e) ∧
  (∀ (s : State) (e : Edge) (n : Nat), s.alive = true → s.fld (Reg.LINK_STATUS_STATE e) = 1 → n = (s.edge e).train.step → n ≠ 0 →
    (∀ c ∈ s.checks, c.what ≠ .link e) →
    Answers (.linkTrainingStep e .fail) s fun t => (t.edge e).train.step = 0 ∧ (t.edge e).train.reason = 0x0302
      ∧ t.fld (Reg.LINK_STATUS_STATE e) = 4 ∧ s.onlyEdge t e) ∧
  (∀ (s : State) (e : Edge) (n : Nat), s.alive = true → s.fld (Reg.LINK_STATUS_STATE e) = 1 → n = (s.edge e).train.step →
    (n = 1 ∨ n = 2 ∨ n = 4 ∨ n = 5 ∨ n = 8) →
    Answers (.linkTrainingStep e .done) s fun t => (t.edge e).train.step = (if n = 8 then 0 else n + 1)
      ∧ t.fld (Reg.LINK_STATUS_STATE e) = (if n < 8 then 1 else if s.fld (Reg.LINK_STATUS_LANES e) = 32 then 2 else 3)
      ∧ s.onlyEdge t e) ∧
  (∀ (s : State) (e : Edge) (rt : BitVec 13), s.alive = true → s.fld (Reg.LINK_STATUS_STATE e) = 1 → (s.edge e).train.step = 6 →
    s.takesChannel e 0 →
    Answers (.linkTrainingStep e (.latency rt)) s fun t => t.fld (Reg.LINK_STATUS_HOP_LAT e) = rt.toNat / 2 ∧ (t.edge e).train.step = 7
      ∧ (∃ x, (t.edge e).out = (s.edge e).out ++ [x] ∧ x.ty = 9 ∧ x.data = leBytes 64 s.ownDesc) ∧ s.onlyEdge t e) ∧
  (∀ (s : State) (e : Edge) (m : GMsg), s.alive = true → m.ty = 9 → (s.edgeUp e = true ∨ s.fld (Reg.LINK_STATUS_STATE e) = 1) →
    m.data = [] → s.takesChannel e 0 →
    Answers (.cap e m) s fun t => (∃ x, (t.edge e).out = (s.edge e).out ++ [x] ∧ x.ty = 9 ∧ x.data = leBytes 64 s.ownDesc)
      ∧ s.onlyEdge t e) ∧
  (∀ (s : State) (e : Edge) (m : GMsg), s.alive = true → m.ty = 9 → s.fld (Reg.LINK_STATUS_STATE e) = 1 →
    (s.edge e).train.step = 7 → m.data.length = 64 → descriptorOk (leNat m.data) = true → bits (leNat m.data) 20 4 = 1 →
    16 ≤ s.fld (Reg.LINK_STATUS_LANES e) → 16 ≤ bits (leNat m.data) 32 6 →
    Answers (.cap e m) s fun t => (t.edge e).peer = true ∧ (t.edge e).train.step = 8 ∧ t.rdWide (Reg.LINK_PEER e) 16 = leNat m.data
      ∧ t.fld (Reg.LINK_STATUS_LANES e) = min (s.fld (Reg.LINK_STATUS_LANES e)) (bits (leNat m.data) 32 6)
      ∧ t.flag (Reg.LINK_STATUS_CAP_DEFAULT e) = false ∧ s.onlyEdge t e) ∧
  (∀ (s : State) (e : Edge), s.alive = true → s.fld (Reg.LINK_STATUS_STATE e) = 1 → (s.edge e).train.step = 7 →
    Answers (.capDescriptorTimeout e) s fun t => (t.edge e).peer = true ∧ (t.edge e).train.step = 8
      ∧ t.rdWide (Reg.LINK_PEER e) 16 = 0 ∧ t.flag (Reg.LINK_STATUS_CAP_DEFAULT e) = true ∧ s.onlyEdge t e)

/-- Traffic through the tile (R390, R395, R397, R399, R400): a forwarded write lands and is acknowledged, a forwarded read is
answered; an acknowledgement completes its STORE; other messages go on by `LINK_ROUTE`; LINK_BEAT asks for a probe, its reply
sets LOCAL_LAT; loop-back runs start and end. What this says beyond the rules' words is the model's reading (log entries 19,
21 and 52). -/
def Obligations.ForwardsProbesAndLoops : Prop :=
  (∀ (s : State) (e : Edge) (m : GMsg) (a n : Nat), s.awake = true → m.ty = 1 → s.toMe m.dst.toNat = true → bits m.dst.toNat 25 1 = 1 →
    0x18 ≤ bits m.dst.toNat 0 10 → bits m.dst.toNat 0 10 < 0x20 → s.nextOn e m → ((s.edge e).peer = true → s.peerBit e 48 = true) →
    a = bits m.aux.toNat 0 48 → n = m.data.length → s.forwardOk (memPieces a n) = true → a + n ≤ s.memSize →
    Answers (.memForward e m) s fun t => t.pkgRead a n = m.data
      ∧ (∀ b, (b < a ∨ a + n ≤ b) → memGet t.pkgMem b = memGet s.pkgMem b)
      ∧ (∀ k : Fin 4, s.route (Config.word s.free).toNat = .edge k → s.takesChannel k m.vch →
          ∃ x, (t.edge k).out = (s.edge k).out ++ [x] ∧ x.ty = 4 ∧ x.vch = m.vch)
      ∧ (s.route (Config.word s.free).toNat = .vport → ∃ x, t.vpOut = s.vpOut ++ [x] ∧ x.ty = 4 ∧ x.vch = m.vch)
      ∧ t.clusters = s.clusters) ∧
  (∀ (s : State) (e : Edge) (m : GMsg) (a n : Nat), s.awake = true → m.ty = 2 → s.toMe m.dst.toNat = true → bits m.dst.toNat 25 1 = 1 →
    0x18 ≤ bits m.dst.toNat 0 10 → bits m.dst.toNat 0 10 < 0x20 → s.nextOn e m → ((s.edge e).peer = true → s.peerBit e 48 = true) →
    a = bits m.aux.toNat 0 48 → n = bits m.aux.toNat 48 13 + 1 → n ≤ 1024 → s.forwardOk (memPieces a n) = true → a + n ≤ s.memSize →
    Answers (.memForward e m) s fun t =>
      (∀ k : Fin 4, s.route (Config.word s.free).toNat = .edge k → s.takesChannel k m.vch →
          ∃ x, (t.edge k).out = (s.edge k).out ++ [x] ∧ x.ty = 3 ∧ x.data = s.pkgRead a n ∧ x.vch = m.vch)
      ∧ (s.route (Config.word s.free).toNat = .vport → ∃ x, t.vpOut = s.vpOut ++ [x] ∧ x.ty = 3 ∧ x.data = s.pkgRead a n ∧ x.vch = m.vch)
      ∧ s.sameMem t ∧ t.clusters = s.clusters) ∧
  (∀ (s : State) (e : Edge) (m : GMsg), s.awake = true → (m.ty = 1 ∨ m.ty = 2) → (s.edge e).peer = true → s.peerBit e 48 = false →
    Answers (.memForward e m) s fun t => (∀ k, (t.edge k).out = (s.edge k).out) ∧ t.clusters = s.clusters ∧ s.sameMem t) ∧
  (∀ (s : State) (m : GMsg) (site d mem : Nat) (x : Xfer), s.awake = true → m.ty = 4 → site = bits m.aux.toNat 0 6 →
    d = bits m.aux.toNat 6 6 → bits m.aux.toNat 16 1 = 0 → s.live site = true → s.firstOfChannel m = true → s.poison = [] →
    (s.ctx site d).xfers = [x] → ackNames (bits m.aux.toNat 12 4) x = true → x.dead = false →
    mem = bits x.desc 64 48 + x.idx * bits x.desc 128 32 → x.data.length = armBytes x.desc → mem + armBytes x.desc ≤ s.memSize →
    Answers (.memAck m) s fun t => (t.ctx site d).xfers = [] ∧ t.pkgRead mem (armBytes x.desc) = x.data
      ∧ (∀ b, (b < mem ∨ mem + armBytes x.desc ≤ b) → memGet t.pkgMem b = memGet s.pkgMem b) ∧ s.sameSlices t) ∧
  (∀ (s : State) (m : GMsg) (k : Nat), s.awake = true → s.toMe m.dst.toNat = false → m.ty ≠ 8 → m.ty ≠ 9 →
    s.firstOfChannel m = true → s.route m.dst.toNat = .edge k → s.takesChannel k m.vch →
    Answers (.messageForward m) s fun t => (t.edge k).out = (s.edge k).out ++ [plainMsg m] ∧ t.clusters = s.clusters ∧ s.sameMem t) ∧
  (∀ (s : State) (m : GMsg), s.awake = true → s.toMe m.dst.toNat = false → m.ty ≠ 8 → m.ty ≠ 9 → s.firstOfChannel m = true →
    s.route m.dst.toNat = .vport →
    Answers (.messageForward m) s fun t => t.vpOut = s.vpOut ++ [plainMsg m] ∧ t.clusters = s.clusters ∧ s.sameMem t) ∧
  (∀ (s : State) (m : GMsg), s.awake = true → s.toMe m.dst.toNat = false → m.ty ≠ 8 → m.ty ≠ 9 → s.firstOfChannel m = true →
    s.route m.dst.toNat = .self →
    Answers (.messageForward m) s fun t => plainMsg m ∈ t.inbox ∧ t.clusters = s.clusters ∧ s.sameMem t) ∧
  (∀ (s : State) (m : GMsg), s.awake = true → s.toMe m.dst.toNat = false → m.ty ≠ 8 → m.ty ≠ 9 → s.firstOfChannel m = true →
    s.route m.dst.toNat = .none →
    Answers (.messageForward m) s fun t => t.fld Reg.ERR_STATUS_LAST_CLASS = 0x21 ∧ t.vpOut = s.vpOut
      ∧ (∀ k, (t.edge k).out = (s.edge k).out) ∧ t.clusters = s.clusters ∧ s.sameMem t) ∧
  (∀ (s : State) (q : Requester) (v : Word) (k : Nat), s.takesWrite q Reg.LINK_BEAT v.toNat → k = bits v.toNat 0 3 →
    Answers (.linkBeatWrite q v) s fun t => t.fld Reg.LINK_BEAT_UP = k
      ∧ (k < 4 → (t.edge k).lsym = (s.edge k).lsym ++ [7#32] ∧ s.sameRegs t (· = Reg.LINK_BEAT))
      ∧ (4 ≤ k → s.flag Reg.BEAT_CFG_MASTER = true → t.fld Reg.BEAT_ALIGN_LOCAL_LAT = 0)
      ∧ (∀ j, j ≠ k → t.edge j = s.edge j) ∧ t.clusters = s.clusters ∧ s.sameMem t) ∧
  (∀ (s : State) (latency : BitVec 24) (k : Nat), s.fw = true → s.flag Reg.BEAT_CFG_MASTER = false → k = s.fld Reg.LINK_BEAT_UP → k < 4 →
    Answers (.probeReply latency) s fun t =>
      t.fld Reg.BEAT_ALIGN_LOCAL_LAT = (latency.toNat + s.fld (Reg.LINK_STATUS_HOP_LAT k)) % 2 ^ 16
      ∧ s.sameRegs t (· = Reg.BEAT_ALIGN) ∧ t.clusters = s.clusters ∧ s.sameMem t) ∧
  (∀ (s : State) (q : Requester) (e : Edge) (v : Word), s.takesWrite q (Reg.LINK_LOOP e) (v ||| 4#32).toNat →
    (bits v.toNat 0 2 = 1 ∨ bits v.toNat 0 2 = 2) →
    Answers (.linkLoopRun q e v) s fun t => t.fld (Reg.LINK_LOOP_MODE e) = bits v.toNat 0 2 ∧ t.flag (Reg.LINK_LOOP_DONE e) = false
      ∧ t.fld (Reg.LINK_STATUS_STATE e) = 5 ∧ (t.edge e).loop = true ∧ s.onlyEdge t e) ∧
  (∀ (s : State) (q : Requester) (p : VPort) (v : Word), s.takesWrite q (Reg.VPORT_LOOP p) (v ||| 4#32).toNat →
    (bits v.toNat 0 2 = 1 ∨ bits v.toNat 0 2 = 2) →
    Answers (.vportLoopRun q p v) s fun t => t.fld (Reg.VPORT_LOOP_MODE p) = bits v.toNat 0 2
      ∧ t.flag (Reg.VPORT_LOOP_DONE p) = false ∧ t.fld (Reg.VPORT_STATUS_STATE p) = 2 ∧ t.clusters = s.clusters ∧ s.sameMem t) ∧
  (∀ (s : State) (e : Edge) (failed : BitVec 34), s.alive = true → (s.edge e).loop = true →
    Answers (.loopbackRunDone (.edge e) failed) s fun t => t.flag (Reg.LINK_LOOP_DONE e) = true
      ∧ t.rd64 (Reg.LINK_LOOP_FAIL e) = failed.toNat ∧ t.fld (Reg.LINK_STATUS_STATE e) = (if s.dev.testMode = true then 5 else 0)
      ∧ (t.edge e).loop = false ∧ s.onlyEdge t e) ∧
  (∀ (s : State) (p : VPort) (failed : BitVec 34), s.alive = true → s.fld (Reg.VPORT_STATUS_STATE p) = 2 →
    Answers (.loopbackRunDone (.vport p) failed) s fun t => t.flag (Reg.VPORT_LOOP_DONE p) = true
      ∧ t.fld (Reg.VPORT_STATUS_STATE p) = 0 ∧ t.clusters = s.clusters ∧ s.sameMem t)

/-! ## Serial monitor and JTAG -/

/-- The serial monitor (R428, R433, R435 to R437): what each command answers and does, and that input received while a test runs waits; a
locked tile answers 0x0711 to what needs debug access, and a command that is not legal answers its reason. What this says beyond the
rules' words is the model's reading (log entries 53, 106 and 107). -/
def Obligations.MonitorAnswers : Prop :=
  (∀ (s : State) (i : Instr) (a b : Option Nat) (w : Word) (r : Nat) (sig : List Byte) (c : Option Site) (k n u : Nat), s.awake = true →
    s.mon.busy = true →
    i ∈ [.monitorState, .monitorLog a b, .monitorBoot w, .monitorBaud r, .monitorUnlock, .monitorUnlockSignature sig, .monitorLock,
      .monitorPeek k n, .monitorPoke k w, .monitorSync c n, .monitorSelftest k n u, .monitorLineError sig] →
    (s.lineRefused i = false → exec i s = .next { s with mon := { s.mon with input := s.mon.input ++ [i] } })
    ∧ (s.lineRefused i = true → Answers i s fun t => s.says t ["err 0x070F"] ∧ t.mon.input = s.mon.input ∧ t.regs = s.regs)) ∧
  (∀ s : State, s.monitorOn = true →
    Answers .monitorState s fun t => (∃ l, l.length = 5 ∧ s.says t (l ++ ["ok"])) ∧ t.regs = s.regs) ∧
  (∀ s : State, s.monitorOn = true →
    (Answers (.monitorLog none none) s fun t => (∃ l, l.length = 16 ∧ s.says t (l ++ ["ok"])) ∧ t.regs = s.regs)
    ∧ ∀ f n : Nat, (n = 0 ∨ 1024 < n ∨ 1024 ≤ f) →
      Answers (.monitorLog (some f) (some n)) s fun t => s.says t ["err 0x0710"] ∧ t.regs = s.regs) ∧
  (∀ (s : State) (offset : Word), s.monitorOn = true →
    (s.ts = tsMonitor → Answers (.monitorBoot offset) s fun t => s.says t ["ok"] ∧ t.ts = tsBootRom ∧ t.boot.flashOff = offset.toNat
      ∧ t.fld Reg.BOOT_STATUS_STEP = 5)
    ∧ (s.ts ≠ tsMonitor → Answers (.monitorBoot offset) s fun t => s.says t ["err 0x" ++ hexText 4 (0x0220 + s.ts)] ∧ t.regs = s.regs)) ∧
  (∀ (s : State) (rate : Nat), s.monitorOn = true →
    (rate ∈ baudRates → Answers (.monitorBaud rate) s fun t => s.says t ["ok"] ∧ t.mon.baudPend = some rate ∧ t.regs = s.regs)
    ∧ (rate ∉ baudRates → Answers (.monitorBaud rate) s fun t => s.says t ["err 0x0710"] ∧ t.mon.baudPend = s.mon.baudPend)) ∧
  (∀ (s : State) (r : Nat), s.awake = true → s.mon.baudPend = some r → r ∈ baudRates →
    Answers .baudSwitch s fun t => s.says t [] ∧ t.mon.baudPend = none ∧ baudRates[t.fld Reg.MON_CFG_BAUD]? = some r) ∧
  (∀ s : State, s.monitorOn = true → s.monitorLegal 0x72 = true →
    Answers .monitorUnlock s fun t => (∃ c, t.boot.challenge = some c ∧ s.says t [bytesText c, "ok"])
      ∧ t.flag Reg.DBG_STATE_CHALLENGE = true ∧ t.unlocked = s.unlocked) ∧
  (∀ (s : State) (sig c : List Byte), s.monitorOn = true → s.monitorLegal 0x72 = true → sig.length = 96 → s.boot.challenge = some c →
    Answers (.monitorUnlockSignature sig) s fun t => t.boot.challenge = none ∧ t.flag Reg.DBG_STATE_CHALLENGE = false
      ∧ (s.challengeOld = false → s.answerOk c (beNat sig) = true → t.unlocked = true ∧ s.says t ["ok"])
      ∧ (s.challengeOld = false → s.answerOk c (beNat sig) = false → t.unlocked = s.unlocked ∧ s.says t ["err 0x0701"])
      ∧ (s.challengeOld = true → t.unlocked = s.unlocked ∧ s.says t ["err 0x0702"])) ∧
  (∀ s : State, s.monitorOn = true →
    Answers .monitorLock s fun t => t.unlocked = (s.unlocked && !s.dev.lifecycle) ∧ s.says t ["ok"]
      ∧ s.sameRegs t (· = Reg.DBG_STATE)) ∧
  (∀ (s : State) (o : Nat) (r : RegInfo), s.monitorOn = true → s.plainReg o r →
    (s.unlocked = true → Answers (.monitorPeek o 1) s fun t => s.says t [wordsText 1 (s.rd o).toNat, "ok"] ∧ t.regs = s.regs)
    ∧ (s.unlocked = false → peekOpen o 1 = false →
      Answers (.monitorPeek o 1) s fun t => s.says t ["err 0x0711"] ∧ t.regs = s.regs)) ∧
  (∀ (s : State) (v : Word), s.monitorOn = true →
    (s.unlocked = true → (s.writeRefusal Reg.TILE_WDOG v.toNat).1 = stOk → bits v.toNat 0 24 ≠ 0 →
      Answers (.monitorPoke Reg.TILE_WDOG v) s fun t => t.fld Reg.TILE_WDOG_BEATS = bits v.toNat 0 24 ∧ s.says t ["ok"])
    ∧ ∀ o, o < 2 ^ 32 → s.unlocked = false →
      Answers (.monitorPoke o v) s fun t => s.says t ["err 0x0711"] ∧ t.regs = s.regs) ∧
  (∀ (s : State) (n : Nat), s.monitorOn = true → s.unlocked = true → n < 256 →
    Answers (.monitorSync none n) s fun t => s.says t [recordText 2 8 (s.tobjRecord n), "ok"] ∧ t.regs = s.regs) ∧
  (∀ (s : State) (c : Site) (u : Nat), s.monitorOn = true → s.unlocked = true → s.monitorLegal 0x51 = true → s.live c = true →
    unitAt c u = true → 1 ≤ u → u ≤ 4 →
    Answers (.monitorSelftest 0 c u) s fun t => t.mon.test = some (.unit c (Fin.ofNat 16 u)) ∧ s.says t []
      ∧ t.fld (Reg.ARR_STATUS_STATE c (u - 1)) = 6 ∧ s.sameRegs t (· = Reg.ARR_STATUS c (u - 1))) ∧
  (∀ (s : State) (o : Nat) (v : Word), s.monitorOn = true → s.unlocked = true → o < 2 ^ 32 → o % 4 = 0 →
    (s.writeRefusal o v.toNat).1 = stOk → (s.ctlPut .monitor o v (some monStarter)).pokeRuns = true →
    Answers (.monitorPoke o v) s fun t => t.mon.poke = true ∧ t.mon.out = (s.ctlPut .monitor o v (some monStarter)).mon.out) ∧
  (∀ (s : State) (line : List Byte), s.monitorOn = true →
    (overlong line = true → Answers (.monitorLineError line) s fun t => s.says t ["err 0x070F"] ∧ t.regs = s.regs)
    ∧ (overlong line = false → tokens (lineChars line) = [] → exec (.monitorLineError line) s = .next s)
    ∧ (overlong line = false → tokens (lineChars line) ≠ [] → lineCommand (lineChars line) = none →
      Answers (.monitorLineError line) s fun t => s.says t ["err 0x0710"] ∧ t.regs = s.regs)
    ∧ ∀ c, overlong line = false → lineCommand (lineChars line) = some c → exec (.monitorLineError line) s = exec c s)

/-- JTAG (R438, R439): an instruction is selected, EXTEST, HIGHZ and CLAMP only in test mode; the scan registers move as it
says; DBG_ACCESS reads and writes while debug is unlocked and reports ERR while it is locked; a TAP reset affects nothing else.
What this says beyond the rules' words is the model's reading (log entries 54 and 109). -/
def Obligations.JtagInstructions : Prop :=
  (∀ (s : State) (scanIn pads : BitVec 15), s.ts ≠ tsOff → exec (.extest scanIn pads) s = .next { s with jtag :=
    if s.dev.testMode = true then { s.jtag with ir := 0x00, bsr := scanIn, bsrOut := pads, tdo := scanBits 8 1 ++ scanBits 15 pads.toNat }
    else { s.jtag with ir := 0x00, bypass := scanIn.getLsbD 14, tdo := scanBits 8 1 ++ false :: scanBits 14 scanIn.toNat } }) ∧
  (∀ (s : State) (scanIn pads : BitVec 15), s.ts ≠ tsOff → s.dev.testMode = true →
    Answers (.extest scanIn pads) s fun t => t.padsDriven = some (padsOf scanIn)) ∧
  (∀ (s : State) (scanIn pads : BitVec 15), s.ts ≠ tsOff → exec (.samplePreload scanIn pads) s = .next { s with jtag :=
    { s.jtag with ir := 0x01, bsr := scanIn, bsrOut := pads, tdo := scanBits 8 1 ++ scanBits 15 pads.toNat } }) ∧
  (∀ s : State, s.ts ≠ tsOff →
    exec .idcode s = .next { s with jtag := { s.jtag with ir := 0x02, tdo := scanBits 8 1 ++ scanBits 32 0x1016036B } }) ∧
  (∀ s : State, s.ts ≠ tsOff →
    Answers .highz s fun t => t = { s with jtag := { s.jtag with ir := 0x03, tdo := scanBits 8 1 } }
      ∧ t.tapInstr = if s.dev.testMode = true then .highz else .bypass) ∧
  (∀ s : State, s.ts ≠ tsOff →
    Answers .clamp s fun t => t = { s with jtag := { s.jtag with ir := 0x04, tdo := scanBits 8 1 } }
      ∧ t.tapInstr = if s.dev.testMode = true then .clamp else .bypass) ∧
  (∀ (s : State) (x : JBypass), s.ts ≠ tsOff → (x.code = 0xFF ∨ (5 ≤ x.code.toNat ∧ x.code.toNat ≠ 0x20)) →
    exec (.bypass x) s = .next { s with jtag := { s.jtag with ir := x.code, bypass := x.tdi, tdo := scanBits 8 1 ++ [false] } }) ∧
  (∀ s : State, s.ts ≠ tsOff → exec .tapReset s = .next { s with jtag := { s.jtag with ir := 0x02 } }) ∧
  (∀ (s : State) (dr : BitVec 66), s.alive = true → s.unlocked = false →
    exec (.dbgAccess dr) s = .next { s with jtag := { s.jtag with
      ir := 0x20, tdo := scanBits 8 1 ++ scanBits 66 (2 ^ 65), err := true } }) ∧
  (∀ (s : State) (dr : BitVec 66) (r : RegInfo), s.alive = true → s.unlocked = true → dr.getLsbD 64 = false →
    s.plainReg (dr.extractLsb' 32 32).toNat r →
    exec (.dbgAccess dr) s = .next { s with jtag := { s.jtag with
      ir := 0x20, tdo := scanBits 8 1 ++ scanBits 66 s.captureDbg, data := s.rd (dr.extractLsb' 32 32).toNat, done := true, err := false } }) ∧
  (∀ (s : State) (dr : BitVec 66), s.alive = true → s.unlocked = true → dr.getLsbD 64 = true →
    (dr.extractLsb' 32 32).toNat = Reg.TILE_WDOG → s.mon.input = [] → bits (dr.extractLsb' 0 32).toNat 0 24 ≠ 0 →
    (s.writeRefusal Reg.TILE_WDOG (dr.extractLsb' 0 32).toNat).1 = stOk →
    Answers (.dbgAccess dr) s fun t => t.fld Reg.TILE_WDOG_BEATS = bits (dr.extractLsb' 0 32).toNat 0 24 ∧ t.jtag.done = true
      ∧ t.jtag.err = false ∧ t.clusters = s.clusters ∧ s.sameMem t)

/-! ## The whole machine -/

/-- Every command answers a next state, and none touches the queue of waiting commands. -/
def Obligations.EveryCommandAnswers : Prop := ∀ (c : Instr) (s : State), ∃ t, exec c s = .next t ∧ t.pending = s.pending


/-- What leaves OFF and AON (R310, R422, R423). OFF ends at the rise of the always-on supply alone. AON ends at a RESET_RELEASE from 0x00
or 0x08, at the self-release of a primary tile that leads and holds 0x08, or of a tile in test mode, once after POR, or with the supply;
RESET_HOLD brings any state to AON and abandons the boot step and the monitor command in progress; a RESET_RELEASE elsewhere only counts. -/
def Obligations.OffAndAonAreLeft : Prop :=
  (∀ (c : Instr) (s t : State), s.ts = tsOff → (∀ st, c ≠ .vddAonRise st) → exec c s = .next t → t.ts = tsOff) ∧
  (∀ (c : Instr) (s t : State), s.ts = tsAon → (∀ f, c ≠ .resetRelease f) → c ≠ .selfRelease → c ≠ .vddAonFall → exec c s = .next t →
    t.ts = tsAon) ∧
  (∀ (s t : State) (f : Frame), s.ts = tsAon → ¬ (s.hears f ∧ f.payload = [] ∧ (f.src = 0x00 ∨ f.src = 0x08)) →
    exec (.resetRelease f) s = .next t → t.ts = tsAon) ∧
  (∀ (s : State) (f : Frame), s.ts = tsAon → s.hears f → f.payload = [] → (f.src = 0x00 ∨ f.src = 0x08) →
    Answers (.resetRelease f) s fun t =>
      (s.dev.aonClk = true → t.ts = tsBootRom ∧ t.sb.released = true) ∧ (s.dev.aonClk = false → t.ts = tsAon)) ∧
  (∀ (s : State) (f : Frame), s.ts ≠ tsAon → s.hears f → f.payload = [] → (f.src = 0x00 ∨ f.src = 0x08) →
    Answers (.resetRelease f) s fun t => t.fld Reg.SB_UNKNOWN_COUNT = min (2 ^ 32 - 1) (s.fld Reg.SB_UNKNOWN_COUNT + 1) ∧ t.ts = s.ts
      ∧ t.clusters = s.clusters ∧ s.sameMem t) ∧
  (∀ (s : State) (f : Frame), s.hears f → f.payload = [] → (f.src = 0x00 ∨ f.src = 0x08) →
    Answers (.resetHold f) s fun t => t.ts = tsAon ∧ t.boot = {} ∧ t.mon.test = none ∧ t.sb.released = s.sb.released
      ∧ (f.src = 0x00 → s.sb.released = false → t.sb.held = true)) ∧
  (∀ s : State,
    Answers .selfRelease s fun t =>
      if s.ts = tsAon ∧ s.sb.released = false ∧ s.dev.aonClk = true ∧ (s.dev.testMode = true ∨ (s.flag Reg.TILE_ID_PRIMARY = true ∧ s.flag Reg.SB_ADDR_PRIMARY_LOST = false
        ∧ s.sbHeld = true ∧ s.fld Reg.SB_ADDR_ADDR = 0x08 ∧ s.sb.held = false))
      then t.ts = tsBootRom ∧ t.sb.released = true else t = s)

/-- Package memory keeps its canonical form over every step: equal memories are equal lists. -/
def Obligations.MemoryStaysCanonical : Prop := ∀ s t : State, s.memOk → step s = .next t → t.memOk

/-- The control space keeps its canonical form over every step: no listed word holds its reset value, and equal register states are
equal lists. -/
def Obligations.RegistersStayCanonical : Prop := ∀ s t : State, s.regsWf → step s = .next t → t.regsWf

/-- Every slice keeps its canonical form over every step. -/
def Obligations.SlicesStayCanonical : Prop := ∀ s t : State, s.slicesOk → step s = .next t → t.slicesOk
end

