-- ==== Sys2Proof/Laws/Store.lean ====
section
/-! SUPPORT. Laws of sparse stores: a read after a write, and the canonical form. -/

namespace Sys2Proof.Machine

variable {α : Type}

theorem Store.get_drop_other (d : α) (m : Store α) {n k : Nat} (h : k ≠ n) :
    Store.get d (Store.drop m n) k = Store.get d m k := by
  induction m with
  | nil => rfl
  | cons p t ih =>
    obtain ⟨a, v⟩ := p
    unfold Store.drop at *
    by_cases ha : a = n
    · subst ha
      simp [Store.get, Ne.symm h, ih]
    · simp [Store.get, ha, ih]

theorem Store.get_drop_same (d : α) (m : Store α) (n : Nat) :
    Store.get d (Store.drop m n) n = d := by
  induction m with
  | nil => rfl
  | cons p t ih =>
    obtain ⟨a, v⟩ := p
    unfold Store.drop at *
    by_cases ha : a = n
    · simp [ha, ih]
    · simp [Store.get, ha, ih]

theorem Store.get_ins_other (d : α) (m : Store α) {n k : Nat} (v : α) (h : k ≠ n) :
    Store.get d (Store.ins m n v) k = Store.get d m k := by
  induction m with
  | nil => simp [Store.ins, Store.get, Ne.symm h]
  | cons p t ih =>
    obtain ⟨a, w⟩ := p
    unfold Store.ins
    split
    · simp [Store.get, Ne.symm h]
    · simp [Store.get, ih]

theorem Store.get_ins_same (d : α) (m : Store α) (n : Nat) (v : α)
    (h : ∀ p ∈ m, p.1 ≠ n) : Store.get d (Store.ins m n v) n = v := by
  induction m with
  | nil => simp [Store.ins, Store.get]
  | cons p t ih =>
    obtain ⟨a, w⟩ := p
    have ha : a ≠ n := h (a, w) (by simp)
    unfold Store.ins
    split
    · simp [Store.get]
    · simp only [Store.get, ha, if_false]
      exact ih fun p hp => h p (by simp [hp])

theorem Store.not_mem_drop (m : Store α) (n : Nat) : ∀ p ∈ Store.drop m n, p.1 ≠ n := by
  intro p hp
  simpa [Store.drop] using (List.mem_filter.mp hp).2

/-- A read after a write of the same key. -/
@[simp] theorem Store.get_put_same (d : α) (m : Store α) (n : Nat) (v : α) :
    Store.get d (Store.put m n v) n = v :=
  Store.get_ins_same d _ n v (Store.not_mem_drop m n)

/-- A write leaves every other key alone. -/
theorem Store.get_put_other (d : α) (m : Store α) {n k : Nat} (v : α) (h : k ≠ n) :
    Store.get d (Store.put m n v) k = Store.get d m k := by
  rw [Store.put, Store.get_ins_other d _ v h, Store.get_drop_other d m h]

@[simp] theorem Store.get_putD_same [DecidableEq α] (d : α) (m : Store α) (n : Nat) (v : α) :
    Store.get d (Store.putD d m n v) n = v := by
  unfold Store.putD
  split
  · next h => rw [Store.get_drop_same, h]
  · simp

theorem Store.get_putD_other [DecidableEq α] (d : α) (m : Store α) {n k : Nat} (v : α)
    (h : k ≠ n) : Store.get d (Store.putD d m n v) k = Store.get d m k := by
  unfold Store.putD
  split
  · exact Store.get_drop_other d m h
  · exact Store.get_put_other d m v h

@[simp] theorem Store.get_upd_same (d : α) (m : Store α) (n : Nat) (f : α → α) :
    Store.get d (Store.upd d m n f) n = f (Store.get d m n) := by
  simp [Store.upd]

theorem Store.get_upd_other (d : α) (m : Store α) {n k : Nat} (f : α → α) (h : k ≠ n) :
    Store.get d (Store.upd d m n f) k = Store.get d m k :=
  Store.get_put_other d m _ h

/-- The canonical form, as a property of the list. -/
theorem Store.canon_iff [DecidableEq α] (d : α) (m : Store α) :
    Store.canon d m = true ↔
      m.Pairwise (fun p q => p.1 < q.1) ∧ ∀ p ∈ m, p.2 ≠ d := by
  induction m with
  | nil => simp [Store.canon]
  | cons p t ih =>
    obtain ⟨k, v⟩ := p
    cases t with
    | nil => simp [Store.canon]
    | cons q t =>
      obtain ⟨k', w⟩ := q
      simp only [Store.canon, Bool.and_eq_true, decide_eq_true_eq, ih]
      constructor
      · rintro ⟨⟨hv, hk⟩, hp, hd⟩
        refine ⟨List.pairwise_cons.mpr ⟨?_, hp⟩, ?_⟩
        · intro r hr
          rcases List.mem_cons.mp hr with rfl | hr
          · exact hk
          · exact Nat.lt_trans hk ((List.pairwise_cons.mp hp).1 r hr)
        · intro r hr
          rcases List.mem_cons.mp hr with rfl | hr
          · exact hv
          · exact hd r hr
      · rintro ⟨hp, hd⟩
        obtain ⟨h1, h2⟩ := List.pairwise_cons.mp hp
        exact ⟨⟨hd (k, v) (by simp), h1 (k', w) (by simp)⟩, h2,
          fun r hr => hd r (List.mem_cons_of_mem _ hr)⟩

theorem Store.canon_drop [DecidableEq α] (d : α) (m : Store α) (n : Nat)
    (h : Store.canon d m = true) : Store.canon d (Store.drop m n) = true := by
  rw [Store.canon_iff] at *
  exact ⟨h.1.filter _, fun p hp => h.2 p (List.mem_filter.mp hp).1⟩

theorem Store.mem_ins {m : Store α} {n : Nat} {v : α} {p : Nat × α}
    (h : p ∈ Store.ins m n v) : p = (n, v) ∨ p ∈ m := by
  induction m with
  | nil => simpa [Store.ins] using h
  | cons q t ih =>
    obtain ⟨a, w⟩ := q
    unfold Store.ins at h
    split at h
    · rcases List.mem_cons.mp h with rfl | h
      · exact .inl rfl
      · exact .inr h
    · rcases List.mem_cons.mp h with rfl | h
      · exact .inr (by simp)
      · rcases ih h with h | h
        · exact .inl h
        · exact .inr (by simp [h])

theorem Store.pairwise_ins {m : Store α} {n : Nat} {v : α}
    (hp : m.Pairwise (fun p q => p.1 < q.1)) (hn : ∀ p ∈ m, p.1 ≠ n) :
    (Store.ins m n v).Pairwise (fun p q => p.1 < q.1) := by
  induction m with
  | nil => simp [Store.ins]
  | cons q t ih =>
    obtain ⟨a, w⟩ := q
    obtain ⟨h1, h2⟩ := List.pairwise_cons.mp hp
    have ha : a ≠ n := hn (a, w) (by simp)
    unfold Store.ins
    split
    · next hlt =>
      refine List.pairwise_cons.mpr ⟨?_, hp⟩
      intro r hr
      rcases List.mem_cons.mp hr with rfl | hr
      · exact hlt
      · exact Nat.lt_trans hlt (h1 r hr)
    · next hlt =>
      refine List.pairwise_cons.mpr ⟨?_, ih h2 fun p hp => hn p (by simp [hp])⟩
      intro r hr
      rcases Store.mem_ins hr with rfl | hr
      · show a < n
        omega
      · exact h1 r hr

/-- A write keeps the canonical form. -/
theorem Store.canon_putD [DecidableEq α] (d : α) (m : Store α) (n : Nat) (v : α)
    (h : Store.canon d m = true) : Store.canon d (Store.putD d m n v) = true := by
  unfold Store.putD
  split
  · exact Store.canon_drop d m n h
  · next hv =>
    have hd := Store.canon_drop d m n h
    rw [Store.canon_iff] at *
    refine ⟨Store.pairwise_ins hd.1 (Store.not_mem_drop m n), fun p hp => ?_⟩
    rcases Store.mem_ins hp with rfl | hp
    · exact hv
    · exact hd.2 p hp

end Sys2Proof.Machine
end

