-- ==== Sys2Proof/Laws/Memory.lean ====
section
/-! SUPPORT. Laws of memories: a byte read after a write, ranges, and the canonical forms that every operation over package memory, slices
and registers keeps. -/

namespace Sys2Proof.Machine

open Host (Cell)

/-! ## One byte -/

theorem memWf_nil : memWf [] = true := by rfl

@[simp] theorem memGet_nil (a : Nat) : memGet [] a = 0 := by rfl

theorem memGet_memPut (m : List Cell) (a x : Nat) (b : Byte) : memGet (memPut m a b) x = if x = a then b else memGet m x := by
  unfold memGet memPut
  by_cases h : x = a
  · subst h; simp
  · simp [h, Store.get_putD_other]

theorem memWf_memPut (m : List Cell) (a : Nat) (b : Byte) (h : memWf m = true) : memWf (memPut m a b) = true :=
  Store.canon_putD _ m a b h

/-! ## Ranges -/

/-- What a write of a range does to every byte. -/
theorem memGet_memWrite (m : List Cell) (a x : Nat) (l : List Byte) :
    memGet (memWrite m a l) x = if a ≤ x ∧ x < a + l.length then l.getD (x - a) 0 else memGet m x := by
  induction l generalizing m a with
  | nil => simp [memWrite]
  | cons b t ih =>
    rw [memWrite, ih, memGet_memPut]
    simp only [List.length_cons]
    by_cases h1 : a + 1 ≤ x ∧ x < a + 1 + t.length
    · obtain ⟨k, rfl⟩ : ∃ k, x = a + (k + 1) := ⟨x - a - 1, by omega⟩
      have e1 : a + (k + 1) - (a + 1) = k := by omega
      have e2 : a + (k + 1) - a = k + 1 := by omega
      rw [if_pos h1, if_pos ⟨by omega, by omega⟩, e1, e2]
      rfl
    · rw [if_neg h1]
      by_cases h2 : x = a
      · subst h2
        simp
      · rw [if_neg h2, if_neg (by omega)]

theorem memGet_memWrite_other (m : List Cell) {a x : Nat} {l : List Byte} (h : x < a ∨ a + l.length ≤ x) :
    memGet (memWrite m a l) x = memGet m x := by
  rw [memGet_memWrite, if_neg (by omega)]

theorem memWf_memWrite (m : List Cell) (a : Nat) (l : List Byte) (h : memWf m = true) : memWf (memWrite m a l) = true := by
  induction l generalizing m a with
  | nil => exact h
  | cons b t ih => exact ih _ _ (memWf_memPut m a b h)

theorem memRead_length (m : List Cell) (a n : Nat) : (memRead m a n).length = n := by simp [memRead]

theorem memRead_congr {m m' : List Cell} {a n : Nat} (h : ∀ x, a ≤ x → x < a + n → memGet m' x = memGet m x) :
    memRead m' a n = memRead m a n := by
  unfold memRead
  apply List.map_congr_left
  intro i hi
  exact h _ (by omega) (by have := List.mem_range.mp hi; omega)

/-- A range reads back as it was written. -/
theorem memRead_memWrite (m : List Cell) (a : Nat) (l : List Byte) : memRead (memWrite m a l) a l.length = l := by
  apply List.ext_getElem (by simp [memRead])
  intro i h1 h2
  simp only [memRead, List.getElem_map, List.getElem_range]
  rw [memGet_memWrite, if_pos ⟨by omega, by omega⟩]
  simp [h2]

/-! ## Package memory -/

variable (s : State)

theorem pkgWrite_only (a : Nat) (l : List Byte) :
    s.pkgWrite a l = { s with pkgMem := (s.pkgWrite a l).pkgMem, poison := (s.pkgWrite a l).poison } := rfl

/-- The part of a range of bytes that lies below M. -/
theorem take_below {a : Nat} {l : List Byte} (h : a + l.length ≤ s.memSize) : l.take (s.memSize - a) = l :=
  List.take_of_length_le (by omega)

/-- A write inside package memory, byte by byte (R398). -/
theorem memGet_pkgWrite {a : Nat} {l : List Byte} (x : Nat) (h : a + l.length ≤ s.memSize) :
    memGet (s.pkgWrite a l).pkgMem x = if a ≤ x ∧ x < a + l.length then l.getD (x - a) 0 else memGet s.pkgMem x := by
  unfold State.pkgWrite
  rw [take_below s h]
  exact memGet_memWrite _ _ _ _

/-- What of a write lies at or beyond M is not sent (R398). -/
theorem memGet_pkgWrite_part (a : Nat) (l : List Byte) (x : Nat) :
    memGet (s.pkgWrite a l).pkgMem x =
      if a ≤ x ∧ x < a + l.length ∧ x < s.memSize then l.getD (x - a) 0 else memGet s.pkgMem x := by
  unfold State.pkgWrite
  rw [memGet_memWrite]
  simp only [List.length_take]
  by_cases h : a ≤ x ∧ x < a + l.length ∧ x < s.memSize
  · rw [if_pos h, if_pos (by omega), List.getD_eq_getElem?_getD, List.getD_eq_getElem?_getD, List.getElem?_take_of_lt (by omega)]
  · rw [if_neg h, if_neg (by omega)]

theorem pkgRead_pkgWrite {a : Nat} {l : List Byte} (h : a + l.length ≤ s.memSize) : (s.pkgWrite a l).pkgRead a l.length = l := by
  unfold State.pkgWrite
  rw [take_below s h]
  exact memRead_memWrite _ _ _

/-- A write of package memory keeps its canonical form. -/
theorem memOk_pkgWrite (a : Nat) (l : List Byte) (h : s.memOk) : (s.pkgWrite a l).memOk := by
  unfold State.memOk State.pkgWrite at *
  exact memWf_memWrite _ _ _ h

theorem memOk_of_eq {t : State} (h : s.memOk) (e : t.pkgMem = s.pkgMem) : t.memOk := by
  unfold State.memOk at *; rwa [e]

theorem memOk_reset : State.reset.memOk := by rfl

/-! ## Slices -/

/-- A change of one cluster whose slice stays canonical keeps every slice canonical. -/
theorem slicesOk_modCl (site : Nat) (f : Cluster → Cluster) (h : s.slicesOk)
    (hf : ∀ c : Cluster, memWf c.slice = true → memWf (f c).slice = true) : (s.modCl site f).slicesOk := by
  have hc : memWf (s.cl site).slice = true := by
    have : ∀ m : Store Cluster, (∀ p ∈ m, memWf p.2.slice = true) → memWf (Store.get ({} : Cluster) m site).slice = true := by
      intro m hm
      induction m with
      | nil => rfl
      | cons p t ih =>
        obtain ⟨k, v⟩ := p
        simp only [Store.get]
        split
        · exact hm (k, v) (by simp)
        · exact ih fun p hp => hm p (by simp [hp])
    exact this _ h
  intro p hp
  have hp' : p ∈ Store.ins (Store.drop s.clusters site) site (f (s.cl site)) := hp
  rcases Store.mem_ins hp' with rfl | hp'
  · exact hf _ hc
  · exact h p (List.mem_filter.mp hp').1

theorem slicesOk_of_eq {t : State} (h : s.slicesOk) (e : t.clusters = s.clusters) : t.slicesOk := by
  unfold State.slicesOk at *; rwa [e]

theorem slicesOk_reset : State.reset.slicesOk := by
  intro p hp
  exact absurd hp List.not_mem_nil

/-- What the discard of a block takes back (R282): a byte that the block did not write is as before. -/
theorem memGet_takeBack_other (m : List Cell) {l : List (Nat × Byte × Byte)} {a : Nat} (h : ∀ u ∈ l, u.1 ≠ a) :
    memGet (takeBack m l) a = memGet m a := by
  induction l generalizing m with
  | nil => rfl
  | cons u l ih =>
    have hu : a ≠ u.1 := fun e => h u List.mem_cons_self e.symm
    refine (ih _ fun v hv => h v (List.mem_cons_of_mem _ hv)).trans ?_
    dsimp only
    split
    · rw [memGet_memPut, if_neg hu]
    · rfl

/-- It keeps the canonical form. -/
theorem memWf_takeBack (m : List Cell) (l : List (Nat × Byte × Byte)) (h : memWf m) : memWf (takeBack m l) := by
  induction l generalizing m with
  | nil => exact h
  | cons u l ih =>
    refine ih _ ?_
    dsimp only
    split
    · exact memWf_memPut _ _ _ h
    · exact h

/-! ## Registers -/

/-- A write of a register word keeps the canonical form of the register map. -/
theorem regsWf_wr (o : Nat) (v : Word) (h : s.regsWf) : (s.wr o v).regsWf := by
  unfold State.regsWf State.wr Store.putD at *
  split
  · exact ⟨h.1.filter _, fun p hp => h.2 p (List.mem_filter.mp hp).1⟩
  · next hv =>
    refine ⟨Store.pairwise_ins (h.1.filter _) (Store.not_mem_drop s.regs o), fun p hp => ?_⟩
    rcases Store.mem_ins hp with rfl | hp
    · exact hv
    · exact h.2 p (List.mem_filter.mp hp).1

theorem regsWf_setFld (f : Fld) (v : Nat) (h : s.regsWf) : (s.setFld f v).regsWf := regsWf_wr s _ _ h

theorem regsWf_resetWhere (p : Nat → Bool) (h : s.regsWf) : (s.resetWhere p).regsWf :=
  ⟨h.1.filter _, fun q hq => h.2 q (List.mem_filter.mp hq).1⟩

theorem regsWf_of_eq {t : State} (h : s.regsWf) (e : t.regs = s.regs) (d : t.dev = s.dev) : t.regsWf := by
  unfold State.regsWf at *; rwa [e, d]

theorem regsWf_reset : State.reset.regsWf := ⟨List.Pairwise.nil, fun _ h => absurd h List.not_mem_nil⟩

end Sys2Proof.Machine
end

