-- ==== Sys2Proof/Laws/State.lean ====
section
/-! SUPPORT. What an update of registers leaves: every other field of State, one lemma for each. -/

namespace Sys2Proof.Machine

variable (s : State)

/-! ### wr -/

@[simp] theorem State.wr_pending (o : Nat) (v : Word) : (s.wr o v).pending = s.pending := by rfl
@[simp] theorem State.wr_dev (o : Nat) (v : Word) : (s.wr o v).dev = s.dev := by rfl
@[simp] theorem State.wr_rdHold (o : Nat) (v : Word) : (s.wr o v).rdHold = s.rdHold := by rfl
@[simp] theorem State.wr_wrHold (o : Nat) (v : Word) : (s.wr o v).wrHold = s.wrHold := by rfl
@[simp] theorem State.wr_pkgMem (o : Nat) (v : Word) : (s.wr o v).pkgMem = s.pkgMem := by rfl
@[simp] theorem State.wr_poison (o : Nat) (v : Word) : (s.wr o v).poison = s.poison := by rfl
@[simp] theorem State.wr_clusters (o : Nat) (v : Word) : (s.wr o v).clusters = s.clusters := by rfl
@[simp] theorem State.wr_tile (o : Nat) (v : Word) : (s.wr o v).tile = s.tile := by rfl
@[simp] theorem State.wr_pwr (o : Nat) (v : Word) : (s.wr o v).pwr = s.pwr := by rfl
@[simp] theorem State.wr_clk (o : Nat) (v : Word) : (s.wr o v).clk = s.clk := by rfl
@[simp] theorem State.wr_beat (o : Nat) (v : Word) : (s.wr o v).beat = s.beat := by rfl
@[simp] theorem State.wr_sb (o : Nat) (v : Word) : (s.wr o v).sb = s.sb := by rfl
@[simp] theorem State.wr_boot (o : Nat) (v : Word) : (s.wr o v).boot = s.boot := by rfl
@[simp] theorem State.wr_mon (o : Nat) (v : Word) : (s.wr o v).mon = s.mon := by rfl
@[simp] theorem State.wr_jtag (o : Nat) (v : Word) : (s.wr o v).jtag = s.jtag := by rfl
@[simp] theorem State.wr_job (o : Nat) (v : Word) : (s.wr o v).job = s.job := by rfl
@[simp] theorem State.wr_flights (o : Nat) (v : Word) : (s.wr o v).flights = s.flights := by rfl
@[simp] theorem State.wr_served (o : Nat) (v : Word) : (s.wr o v).served = s.served := by rfl
@[simp] theorem State.wr_queues (o : Nat) (v : Word) : (s.wr o v).queues = s.queues := by rfl
@[simp] theorem State.wr_checks (o : Nat) (v : Word) : (s.wr o v).checks = s.checks := by rfl
@[simp] theorem State.wr_edges (o : Nat) (v : Word) : (s.wr o v).edges = s.edges := by rfl
@[simp] theorem State.wr_inbox (o : Nat) (v : Word) : (s.wr o v).inbox = s.inbox := by rfl
@[simp] theorem State.wr_vpOut (o : Nat) (v : Word) : (s.wr o v).vpOut = s.vpOut := by rfl
@[simp] theorem State.wr_free (o : Nat) (v : Word) : (s.wr o v).free = s.free := by rfl

/-! ### setFld -/

@[simp] theorem State.setFld_pending (f : Fld) (v : Nat) : (s.setFld f v).pending = s.pending := by rfl
@[simp] theorem State.setFld_dev (f : Fld) (v : Nat) : (s.setFld f v).dev = s.dev := by rfl
@[simp] theorem State.setFld_rdHold (f : Fld) (v : Nat) : (s.setFld f v).rdHold = s.rdHold := by rfl
@[simp] theorem State.setFld_wrHold (f : Fld) (v : Nat) : (s.setFld f v).wrHold = s.wrHold := by rfl
@[simp] theorem State.setFld_pkgMem (f : Fld) (v : Nat) : (s.setFld f v).pkgMem = s.pkgMem := by rfl
@[simp] theorem State.setFld_poison (f : Fld) (v : Nat) : (s.setFld f v).poison = s.poison := by rfl
@[simp] theorem State.setFld_clusters (f : Fld) (v : Nat) : (s.setFld f v).clusters = s.clusters := by rfl
@[simp] theorem State.setFld_tile (f : Fld) (v : Nat) : (s.setFld f v).tile = s.tile := by rfl
@[simp] theorem State.setFld_pwr (f : Fld) (v : Nat) : (s.setFld f v).pwr = s.pwr := by rfl
@[simp] theorem State.setFld_clk (f : Fld) (v : Nat) : (s.setFld f v).clk = s.clk := by rfl
@[simp] theorem State.setFld_beat (f : Fld) (v : Nat) : (s.setFld f v).beat = s.beat := by rfl
@[simp] theorem State.setFld_sb (f : Fld) (v : Nat) : (s.setFld f v).sb = s.sb := by rfl
@[simp] theorem State.setFld_boot (f : Fld) (v : Nat) : (s.setFld f v).boot = s.boot := by rfl
@[simp] theorem State.setFld_mon (f : Fld) (v : Nat) : (s.setFld f v).mon = s.mon := by rfl
@[simp] theorem State.setFld_jtag (f : Fld) (v : Nat) : (s.setFld f v).jtag = s.jtag := by rfl
@[simp] theorem State.setFld_job (f : Fld) (v : Nat) : (s.setFld f v).job = s.job := by rfl
@[simp] theorem State.setFld_flights (f : Fld) (v : Nat) : (s.setFld f v).flights = s.flights := by rfl
@[simp] theorem State.setFld_served (f : Fld) (v : Nat) : (s.setFld f v).served = s.served := by rfl
@[simp] theorem State.setFld_queues (f : Fld) (v : Nat) : (s.setFld f v).queues = s.queues := by rfl
@[simp] theorem State.setFld_checks (f : Fld) (v : Nat) : (s.setFld f v).checks = s.checks := by rfl
@[simp] theorem State.setFld_edges (f : Fld) (v : Nat) : (s.setFld f v).edges = s.edges := by rfl
@[simp] theorem State.setFld_inbox (f : Fld) (v : Nat) : (s.setFld f v).inbox = s.inbox := by rfl
@[simp] theorem State.setFld_vpOut (f : Fld) (v : Nat) : (s.setFld f v).vpOut = s.vpOut := by rfl
@[simp] theorem State.setFld_free (f : Fld) (v : Nat) : (s.setFld f v).free = s.free := by rfl

/-! ### setFlag -/

@[simp] theorem State.setFlag_pending (f : Fld) (b : Bool) : (s.setFlag f b).pending = s.pending := by rfl
@[simp] theorem State.setFlag_dev (f : Fld) (b : Bool) : (s.setFlag f b).dev = s.dev := by rfl
@[simp] theorem State.setFlag_rdHold (f : Fld) (b : Bool) : (s.setFlag f b).rdHold = s.rdHold := by rfl
@[simp] theorem State.setFlag_wrHold (f : Fld) (b : Bool) : (s.setFlag f b).wrHold = s.wrHold := by rfl
@[simp] theorem State.setFlag_pkgMem (f : Fld) (b : Bool) : (s.setFlag f b).pkgMem = s.pkgMem := by rfl
@[simp] theorem State.setFlag_poison (f : Fld) (b : Bool) : (s.setFlag f b).poison = s.poison := by rfl
@[simp] theorem State.setFlag_clusters (f : Fld) (b : Bool) : (s.setFlag f b).clusters = s.clusters := by rfl
@[simp] theorem State.setFlag_tile (f : Fld) (b : Bool) : (s.setFlag f b).tile = s.tile := by rfl
@[simp] theorem State.setFlag_pwr (f : Fld) (b : Bool) : (s.setFlag f b).pwr = s.pwr := by rfl
@[simp] theorem State.setFlag_clk (f : Fld) (b : Bool) : (s.setFlag f b).clk = s.clk := by rfl
@[simp] theorem State.setFlag_beat (f : Fld) (b : Bool) : (s.setFlag f b).beat = s.beat := by rfl
@[simp] theorem State.setFlag_sb (f : Fld) (b : Bool) : (s.setFlag f b).sb = s.sb := by rfl
@[simp] theorem State.setFlag_boot (f : Fld) (b : Bool) : (s.setFlag f b).boot = s.boot := by rfl
@[simp] theorem State.setFlag_mon (f : Fld) (b : Bool) : (s.setFlag f b).mon = s.mon := by rfl
@[simp] theorem State.setFlag_jtag (f : Fld) (b : Bool) : (s.setFlag f b).jtag = s.jtag := by rfl
@[simp] theorem State.setFlag_job (f : Fld) (b : Bool) : (s.setFlag f b).job = s.job := by rfl
@[simp] theorem State.setFlag_flights (f : Fld) (b : Bool) : (s.setFlag f b).flights = s.flights := by rfl
@[simp] theorem State.setFlag_served (f : Fld) (b : Bool) : (s.setFlag f b).served = s.served := by rfl
@[simp] theorem State.setFlag_queues (f : Fld) (b : Bool) : (s.setFlag f b).queues = s.queues := by rfl
@[simp] theorem State.setFlag_checks (f : Fld) (b : Bool) : (s.setFlag f b).checks = s.checks := by rfl
@[simp] theorem State.setFlag_edges (f : Fld) (b : Bool) : (s.setFlag f b).edges = s.edges := by rfl
@[simp] theorem State.setFlag_inbox (f : Fld) (b : Bool) : (s.setFlag f b).inbox = s.inbox := by rfl
@[simp] theorem State.setFlag_vpOut (f : Fld) (b : Bool) : (s.setFlag f b).vpOut = s.vpOut := by rfl
@[simp] theorem State.setFlag_free (f : Fld) (b : Bool) : (s.setFlag f b).free = s.free := by rfl

/-! ### wr64 -/

@[simp] theorem State.wr64_pending (o v : Nat) : (s.wr64 o v).pending = s.pending := by rfl
@[simp] theorem State.wr64_dev (o v : Nat) : (s.wr64 o v).dev = s.dev := by rfl
@[simp] theorem State.wr64_rdHold (o v : Nat) : (s.wr64 o v).rdHold = s.rdHold := by rfl
@[simp] theorem State.wr64_wrHold (o v : Nat) : (s.wr64 o v).wrHold = s.wrHold := by rfl
@[simp] theorem State.wr64_pkgMem (o v : Nat) : (s.wr64 o v).pkgMem = s.pkgMem := by rfl
@[simp] theorem State.wr64_poison (o v : Nat) : (s.wr64 o v).poison = s.poison := by rfl
@[simp] theorem State.wr64_clusters (o v : Nat) : (s.wr64 o v).clusters = s.clusters := by rfl
@[simp] theorem State.wr64_tile (o v : Nat) : (s.wr64 o v).tile = s.tile := by rfl
@[simp] theorem State.wr64_pwr (o v : Nat) : (s.wr64 o v).pwr = s.pwr := by rfl
@[simp] theorem State.wr64_clk (o v : Nat) : (s.wr64 o v).clk = s.clk := by rfl
@[simp] theorem State.wr64_beat (o v : Nat) : (s.wr64 o v).beat = s.beat := by rfl
@[simp] theorem State.wr64_sb (o v : Nat) : (s.wr64 o v).sb = s.sb := by rfl
@[simp] theorem State.wr64_boot (o v : Nat) : (s.wr64 o v).boot = s.boot := by rfl
@[simp] theorem State.wr64_mon (o v : Nat) : (s.wr64 o v).mon = s.mon := by rfl
@[simp] theorem State.wr64_jtag (o v : Nat) : (s.wr64 o v).jtag = s.jtag := by rfl
@[simp] theorem State.wr64_job (o v : Nat) : (s.wr64 o v).job = s.job := by rfl
@[simp] theorem State.wr64_flights (o v : Nat) : (s.wr64 o v).flights = s.flights := by rfl
@[simp] theorem State.wr64_served (o v : Nat) : (s.wr64 o v).served = s.served := by rfl
@[simp] theorem State.wr64_queues (o v : Nat) : (s.wr64 o v).queues = s.queues := by rfl
@[simp] theorem State.wr64_checks (o v : Nat) : (s.wr64 o v).checks = s.checks := by rfl
@[simp] theorem State.wr64_edges (o v : Nat) : (s.wr64 o v).edges = s.edges := by rfl
@[simp] theorem State.wr64_inbox (o v : Nat) : (s.wr64 o v).inbox = s.inbox := by rfl
@[simp] theorem State.wr64_vpOut (o v : Nat) : (s.wr64 o v).vpOut = s.vpOut := by rfl
@[simp] theorem State.wr64_free (o v : Nat) : (s.wr64 o v).free = s.free := by rfl

/-! ### setFld64 -/

@[simp] theorem State.setFld64_pending (o lo w v : Nat) : (s.setFld64 o lo w v).pending = s.pending := s.wr64_pending _ _
@[simp] theorem State.setFld64_dev (o lo w v : Nat) : (s.setFld64 o lo w v).dev = s.dev := s.wr64_dev _ _
@[simp] theorem State.setFld64_rdHold (o lo w v : Nat) : (s.setFld64 o lo w v).rdHold = s.rdHold := s.wr64_rdHold _ _
@[simp] theorem State.setFld64_wrHold (o lo w v : Nat) : (s.setFld64 o lo w v).wrHold = s.wrHold := s.wr64_wrHold _ _
@[simp] theorem State.setFld64_pkgMem (o lo w v : Nat) : (s.setFld64 o lo w v).pkgMem = s.pkgMem := s.wr64_pkgMem _ _
@[simp] theorem State.setFld64_poison (o lo w v : Nat) : (s.setFld64 o lo w v).poison = s.poison := s.wr64_poison _ _
@[simp] theorem State.setFld64_clusters (o lo w v : Nat) : (s.setFld64 o lo w v).clusters = s.clusters := s.wr64_clusters _ _
@[simp] theorem State.setFld64_tile (o lo w v : Nat) : (s.setFld64 o lo w v).tile = s.tile := s.wr64_tile _ _
@[simp] theorem State.setFld64_pwr (o lo w v : Nat) : (s.setFld64 o lo w v).pwr = s.pwr := s.wr64_pwr _ _
@[simp] theorem State.setFld64_clk (o lo w v : Nat) : (s.setFld64 o lo w v).clk = s.clk := s.wr64_clk _ _
@[simp] theorem State.setFld64_beat (o lo w v : Nat) : (s.setFld64 o lo w v).beat = s.beat := s.wr64_beat _ _
@[simp] theorem State.setFld64_sb (o lo w v : Nat) : (s.setFld64 o lo w v).sb = s.sb := s.wr64_sb _ _
@[simp] theorem State.setFld64_boot (o lo w v : Nat) : (s.setFld64 o lo w v).boot = s.boot := s.wr64_boot _ _
@[simp] theorem State.setFld64_mon (o lo w v : Nat) : (s.setFld64 o lo w v).mon = s.mon := s.wr64_mon _ _
@[simp] theorem State.setFld64_jtag (o lo w v : Nat) : (s.setFld64 o lo w v).jtag = s.jtag := s.wr64_jtag _ _
@[simp] theorem State.setFld64_job (o lo w v : Nat) : (s.setFld64 o lo w v).job = s.job := s.wr64_job _ _
@[simp] theorem State.setFld64_flights (o lo w v : Nat) : (s.setFld64 o lo w v).flights = s.flights := s.wr64_flights _ _
@[simp] theorem State.setFld64_served (o lo w v : Nat) : (s.setFld64 o lo w v).served = s.served := s.wr64_served _ _
@[simp] theorem State.setFld64_queues (o lo w v : Nat) : (s.setFld64 o lo w v).queues = s.queues := s.wr64_queues _ _
@[simp] theorem State.setFld64_checks (o lo w v : Nat) : (s.setFld64 o lo w v).checks = s.checks := s.wr64_checks _ _
@[simp] theorem State.setFld64_edges (o lo w v : Nat) : (s.setFld64 o lo w v).edges = s.edges := s.wr64_edges _ _
@[simp] theorem State.setFld64_inbox (o lo w v : Nat) : (s.setFld64 o lo w v).inbox = s.inbox := s.wr64_inbox _ _
@[simp] theorem State.setFld64_vpOut (o lo w v : Nat) : (s.setFld64 o lo w v).vpOut = s.vpOut := s.wr64_vpOut _ _
@[simp] theorem State.setFld64_free (o lo w v : Nat) : (s.setFld64 o lo w v).free = s.free := s.wr64_free _ _

/-! ### count -/

@[simp] theorem State.count_pending (f : Fld) (n : Nat) : (s.count f n).pending = s.pending := by rfl
@[simp] theorem State.count_dev (f : Fld) (n : Nat) : (s.count f n).dev = s.dev := by rfl
@[simp] theorem State.count_rdHold (f : Fld) (n : Nat) : (s.count f n).rdHold = s.rdHold := by rfl
@[simp] theorem State.count_wrHold (f : Fld) (n : Nat) : (s.count f n).wrHold = s.wrHold := by rfl
@[simp] theorem State.count_pkgMem (f : Fld) (n : Nat) : (s.count f n).pkgMem = s.pkgMem := by rfl
@[simp] theorem State.count_poison (f : Fld) (n : Nat) : (s.count f n).poison = s.poison := by rfl
@[simp] theorem State.count_clusters (f : Fld) (n : Nat) : (s.count f n).clusters = s.clusters := by rfl
@[simp] theorem State.count_tile (f : Fld) (n : Nat) : (s.count f n).tile = s.tile := by rfl
@[simp] theorem State.count_pwr (f : Fld) (n : Nat) : (s.count f n).pwr = s.pwr := by rfl
@[simp] theorem State.count_clk (f : Fld) (n : Nat) : (s.count f n).clk = s.clk := by rfl
@[simp] theorem State.count_beat (f : Fld) (n : Nat) : (s.count f n).beat = s.beat := by rfl
@[simp] theorem State.count_sb (f : Fld) (n : Nat) : (s.count f n).sb = s.sb := by rfl
@[simp] theorem State.count_boot (f : Fld) (n : Nat) : (s.count f n).boot = s.boot := by rfl
@[simp] theorem State.count_mon (f : Fld) (n : Nat) : (s.count f n).mon = s.mon := by rfl
@[simp] theorem State.count_jtag (f : Fld) (n : Nat) : (s.count f n).jtag = s.jtag := by rfl
@[simp] theorem State.count_job (f : Fld) (n : Nat) : (s.count f n).job = s.job := by rfl
@[simp] theorem State.count_flights (f : Fld) (n : Nat) : (s.count f n).flights = s.flights := by rfl
@[simp] theorem State.count_served (f : Fld) (n : Nat) : (s.count f n).served = s.served := by rfl
@[simp] theorem State.count_queues (f : Fld) (n : Nat) : (s.count f n).queues = s.queues := by rfl
@[simp] theorem State.count_checks (f : Fld) (n : Nat) : (s.count f n).checks = s.checks := by rfl
@[simp] theorem State.count_edges (f : Fld) (n : Nat) : (s.count f n).edges = s.edges := by rfl
@[simp] theorem State.count_inbox (f : Fld) (n : Nat) : (s.count f n).inbox = s.inbox := by rfl
@[simp] theorem State.count_vpOut (f : Fld) (n : Nat) : (s.count f n).vpOut = s.vpOut := by rfl
@[simp] theorem State.count_free (f : Fld) (n : Nat) : (s.count f n).free = s.free := by rfl

/-! ### count64 -/

@[simp] theorem State.count64_pending (o n : Nat) : (s.count64 o n).pending = s.pending := s.wr64_pending _ _
@[simp] theorem State.count64_dev (o n : Nat) : (s.count64 o n).dev = s.dev := s.wr64_dev _ _
@[simp] theorem State.count64_rdHold (o n : Nat) : (s.count64 o n).rdHold = s.rdHold := s.wr64_rdHold _ _
@[simp] theorem State.count64_wrHold (o n : Nat) : (s.count64 o n).wrHold = s.wrHold := s.wr64_wrHold _ _
@[simp] theorem State.count64_pkgMem (o n : Nat) : (s.count64 o n).pkgMem = s.pkgMem := s.wr64_pkgMem _ _
@[simp] theorem State.count64_poison (o n : Nat) : (s.count64 o n).poison = s.poison := s.wr64_poison _ _
@[simp] theorem State.count64_clusters (o n : Nat) : (s.count64 o n).clusters = s.clusters := s.wr64_clusters _ _
@[simp] theorem State.count64_tile (o n : Nat) : (s.count64 o n).tile = s.tile := s.wr64_tile _ _
@[simp] theorem State.count64_pwr (o n : Nat) : (s.count64 o n).pwr = s.pwr := s.wr64_pwr _ _
@[simp] theorem State.count64_clk (o n : Nat) : (s.count64 o n).clk = s.clk := s.wr64_clk _ _
@[simp] theorem State.count64_beat (o n : Nat) : (s.count64 o n).beat = s.beat := s.wr64_beat _ _
@[simp] theorem State.count64_sb (o n : Nat) : (s.count64 o n).sb = s.sb := s.wr64_sb _ _
@[simp] theorem State.count64_boot (o n : Nat) : (s.count64 o n).boot = s.boot := s.wr64_boot _ _
@[simp] theorem State.count64_mon (o n : Nat) : (s.count64 o n).mon = s.mon := s.wr64_mon _ _
@[simp] theorem State.count64_jtag (o n : Nat) : (s.count64 o n).jtag = s.jtag := s.wr64_jtag _ _
@[simp] theorem State.count64_job (o n : Nat) : (s.count64 o n).job = s.job := s.wr64_job _ _
@[simp] theorem State.count64_flights (o n : Nat) : (s.count64 o n).flights = s.flights := s.wr64_flights _ _
@[simp] theorem State.count64_served (o n : Nat) : (s.count64 o n).served = s.served := s.wr64_served _ _
@[simp] theorem State.count64_queues (o n : Nat) : (s.count64 o n).queues = s.queues := s.wr64_queues _ _
@[simp] theorem State.count64_checks (o n : Nat) : (s.count64 o n).checks = s.checks := s.wr64_checks _ _
@[simp] theorem State.count64_edges (o n : Nat) : (s.count64 o n).edges = s.edges := s.wr64_edges _ _
@[simp] theorem State.count64_inbox (o n : Nat) : (s.count64 o n).inbox = s.inbox := s.wr64_inbox _ _
@[simp] theorem State.count64_vpOut (o n : Nat) : (s.count64 o n).vpOut = s.vpOut := s.wr64_vpOut _ _
@[simp] theorem State.count64_free (o n : Nat) : (s.count64 o n).free = s.free := s.wr64_free _ _

/-! ### setBits -/

@[simp] theorem State.setBits_pending (o m : Nat) : (s.setBits o m).pending = s.pending := by rfl
@[simp] theorem State.setBits_dev (o m : Nat) : (s.setBits o m).dev = s.dev := by rfl
@[simp] theorem State.setBits_rdHold (o m : Nat) : (s.setBits o m).rdHold = s.rdHold := by rfl
@[simp] theorem State.setBits_wrHold (o m : Nat) : (s.setBits o m).wrHold = s.wrHold := by rfl
@[simp] theorem State.setBits_pkgMem (o m : Nat) : (s.setBits o m).pkgMem = s.pkgMem := by rfl
@[simp] theorem State.setBits_poison (o m : Nat) : (s.setBits o m).poison = s.poison := by rfl
@[simp] theorem State.setBits_clusters (o m : Nat) : (s.setBits o m).clusters = s.clusters := by rfl
@[simp] theorem State.setBits_tile (o m : Nat) : (s.setBits o m).tile = s.tile := by rfl
@[simp] theorem State.setBits_pwr (o m : Nat) : (s.setBits o m).pwr = s.pwr := by rfl
@[simp] theorem State.setBits_clk (o m : Nat) : (s.setBits o m).clk = s.clk := by rfl
@[simp] theorem State.setBits_beat (o m : Nat) : (s.setBits o m).beat = s.beat := by rfl
@[simp] theorem State.setBits_sb (o m : Nat) : (s.setBits o m).sb = s.sb := by rfl
@[simp] theorem State.setBits_boot (o m : Nat) : (s.setBits o m).boot = s.boot := by rfl
@[simp] theorem State.setBits_mon (o m : Nat) : (s.setBits o m).mon = s.mon := by rfl
@[simp] theorem State.setBits_jtag (o m : Nat) : (s.setBits o m).jtag = s.jtag := by rfl
@[simp] theorem State.setBits_job (o m : Nat) : (s.setBits o m).job = s.job := by rfl
@[simp] theorem State.setBits_flights (o m : Nat) : (s.setBits o m).flights = s.flights := by rfl
@[simp] theorem State.setBits_served (o m : Nat) : (s.setBits o m).served = s.served := by rfl
@[simp] theorem State.setBits_queues (o m : Nat) : (s.setBits o m).queues = s.queues := by rfl
@[simp] theorem State.setBits_checks (o m : Nat) : (s.setBits o m).checks = s.checks := by rfl
@[simp] theorem State.setBits_edges (o m : Nat) : (s.setBits o m).edges = s.edges := by rfl
@[simp] theorem State.setBits_inbox (o m : Nat) : (s.setBits o m).inbox = s.inbox := by rfl
@[simp] theorem State.setBits_vpOut (o m : Nat) : (s.setBits o m).vpOut = s.vpOut := by rfl
@[simp] theorem State.setBits_free (o m : Nat) : (s.setBits o m).free = s.free := by rfl

/-! ### enter -/

@[simp] theorem State.enter_pending (t : Nat) : (s.enter t).pending = s.pending := by rfl
@[simp] theorem State.enter_dev (t : Nat) : (s.enter t).dev = s.dev := by rfl
@[simp] theorem State.enter_rdHold (t : Nat) : (s.enter t).rdHold = s.rdHold := by rfl
@[simp] theorem State.enter_wrHold (t : Nat) : (s.enter t).wrHold = s.wrHold := by rfl
@[simp] theorem State.enter_pkgMem (t : Nat) : (s.enter t).pkgMem = s.pkgMem := by rfl
@[simp] theorem State.enter_poison (t : Nat) : (s.enter t).poison = s.poison := by rfl
@[simp] theorem State.enter_clusters (t : Nat) : (s.enter t).clusters = s.clusters := by rfl
@[simp] theorem State.enter_tile (t : Nat) : (s.enter t).tile = s.tile := by rfl
@[simp] theorem State.enter_pwr (t : Nat) : (s.enter t).pwr = s.pwr := by rfl
@[simp] theorem State.enter_clk (t : Nat) : (s.enter t).clk = s.clk := by rfl
@[simp] theorem State.enter_beat (t : Nat) : (s.enter t).beat = s.beat := by rfl
@[simp] theorem State.enter_sb (t : Nat) : (s.enter t).sb = s.sb := by rfl
@[simp] theorem State.enter_boot (t : Nat) : (s.enter t).boot = s.boot := by rfl
@[simp] theorem State.enter_mon (t : Nat) : (s.enter t).mon = s.mon := by rfl
@[simp] theorem State.enter_jtag (t : Nat) : (s.enter t).jtag = s.jtag := by rfl
@[simp] theorem State.enter_job (t : Nat) : (s.enter t).job = s.job := by rfl
@[simp] theorem State.enter_flights (t : Nat) : (s.enter t).flights = s.flights := by rfl
@[simp] theorem State.enter_served (t : Nat) : (s.enter t).served = s.served := by rfl
@[simp] theorem State.enter_queues (t : Nat) : (s.enter t).queues = s.queues := by rfl
@[simp] theorem State.enter_checks (t : Nat) : (s.enter t).checks = s.checks := by rfl
@[simp] theorem State.enter_edges (t : Nat) : (s.enter t).edges = s.edges := by rfl
@[simp] theorem State.enter_inbox (t : Nat) : (s.enter t).inbox = s.inbox := by rfl
@[simp] theorem State.enter_vpOut (t : Nat) : (s.enter t).vpOut = s.vpOut := by rfl
@[simp] theorem State.enter_free (t : Nat) : (s.enter t).free = s.free := by rfl

end Sys2Proof.Machine
end

