-- ==== Sys2Proof/Laws/Regs.lean ====
section
/-! SUPPORT. Laws of registers and their fields: a read after a write. -/

namespace Sys2Proof.Machine

theorem testBit_low_ones (w i : Nat) : (2 ^ w - 1).testBit i = decide (i < w) := Nat.testBit_two_pow_sub_one w i

/-- A bit of a word after a field's bits were replaced. -/
theorem insBits_bit (x : Word) (lo w v i : Nat) (hi : i < 32) :
    (insBits x lo w v).getLsbD i = if lo ≤ i ∧ i < lo + w then v.testBit (i - lo) else x.getLsbD i := by
  unfold insBits
  simp only [BitVec.getLsbD_or, BitVec.getLsbD_and, BitVec.getLsbD_not, BitVec.getLsbD_shiftLeft, BitVec.getLsbD_ofNat,
    testBit_low_ones, hi]
  by_cases h1 : lo ≤ i
  · by_cases h2 : i < lo + w
    · have h3 : i - lo < w := by omega
      have h4 : i - lo < 32 := by omega
      have h5 : ¬ i < lo := by omega
      simp [h1, h2, h3, h4, h5]
    · have h3 : ¬ i - lo < w := by omega
      simp [h2, h3]
  · have h2 : i < lo := by omega
    simp [h1, h2]

/-- The field just replaced. -/
theorem insBits_same (x : Word) (lo w v : Nat) (h : lo + w ≤ 32) :
    ((insBits x lo w v).extractLsb' lo w).toNat = v % 2 ^ w := by
  apply Nat.eq_of_testBit_eq
  intro i
  rw [BitVec.testBit_toNat, BitVec.getLsbD_extractLsb', Nat.testBit_mod_two_pow]
  by_cases hi : i < w
  · rw [insBits_bit _ _ _ _ _ (by omega)]
    simp [hi]
  · simp [hi]

/-- A field apart from the one replaced. -/
theorem insBits_apart (x : Word) (lo w v lo' w' : Nat) (h' : lo' + w' ≤ 32) (h : lo' + w' ≤ lo ∨ lo + w ≤ lo') :
    (insBits x lo w v).extractLsb' lo' w' = x.extractLsb' lo' w' := by
  apply BitVec.eq_of_getLsbD_eq
  intro i hi
  rw [BitVec.getLsbD_extractLsb', BitVec.getLsbD_extractLsb', insBits_bit _ _ _ _ _ (by omega)]
  have : ¬ (lo ≤ lo' + i ∧ lo' + i < lo + w) := by omega
  simp [this]

namespace State

variable (s : State)

theorem rd_wr (o p : Nat) (v : Word) : (s.wr o v).rd p = if p = o then v else s.rd p := by
  unfold State.wr State.rd
  split
  · next h => subst h; exact Store.get_putD_same _ _ _ _
  · next h =>
    have hd : resetWord s.dev p = resetWord s.dev p := rfl
    simp only
    by_cases hv : v = resetWord s.dev o
    · unfold Store.putD; rw [if_pos hv]; exact Store.get_drop_other _ _ h
    · unfold Store.putD; rw [if_neg hv]; exact Store.get_put_other _ _ _ h

@[simp] theorem rd_wr_same (o : Nat) (v : Word) : (s.wr o v).rd o = v := by simp [rd_wr]

theorem rd_wr_other {o p : Nat} (v : Word) (h : p ≠ o) : (s.wr o v).rd p = s.rd p := by simp [rd_wr, h]

theorem rd_setFld_other {f : Fld} {p : Nat} (v : Nat) (h : p ≠ f.off) : (s.setFld f v).rd p = s.rd p :=
  rd_wr_other _ _ h

theorem rd_setFlag_other {f : Fld} {p : Nat} (b : Bool) (h : p ≠ f.off) : (s.setFlag f b).rd p = s.rd p :=
  rd_wr_other _ _ h

theorem rd_count_other {f : Fld} {p : Nat} (n : Nat) (h : p ≠ f.off) : (s.count f n).rd p = s.rd p :=
  rd_wr_other _ _ h

theorem rd_wr64_other {o p : Nat} (v : Nat) (h : p ≠ o) (h4 : p ≠ o + 4) : (s.wr64 o v).rd p = s.rd p := by
  unfold State.wr64; rw [rd_wr_other _ _ h4, rd_wr_other _ _ h]

theorem rd_enter_other {p : Nat} (t : Nat) (h : p ≠ 0x8) (h' : p ≠ 0x10000) : (s.enter t).rd p = s.rd p := by
  unfold State.enter
  rw [rd_setFlag_other _ _ h', rd_setFld_other _ _ h, rd_setFld_other _ _ h]

theorem fld_wr_other {o : Nat} {g : Fld} (v : Word) (h : g.off ≠ o) : (s.wr o v).fld g = s.fld g := by
  unfold State.fld; rw [rd_wr_other _ _ h]

theorem fld_setFld_same {f : Fld} (v : Nat) (h : f.lo + f.w ≤ 32) : (s.setFld f v).fld f = v % 2 ^ f.w := by
  unfold State.fld State.setFld; rw [rd_wr_same]; exact insBits_same _ _ _ _ h

theorem fld_setFld_other {f g : Fld} (v : Nat) (h : g.off ≠ f.off) : (s.setFld f v).fld g = s.fld g :=
  fld_wr_other _ _ h

theorem fld_setFld_apart {f g : Fld} (v : Nat) (ho : g.off = f.off) (hg : g.lo + g.w ≤ 32)
    (h : g.lo + g.w ≤ f.lo ∨ f.lo + f.w ≤ g.lo) : (s.setFld f v).fld g = s.fld g := by
  unfold State.fld State.setFld; rw [ho, rd_wr_same, insBits_apart _ _ _ _ _ _ hg h]

/-- Two fields that share no bit. -/
def apart (f g : Fld) : Prop := g.off ≠ f.off ∨ (g.lo + g.w ≤ 32 ∧ (g.lo + g.w ≤ f.lo ∨ f.lo + f.w ≤ g.lo))

theorem fld_setFld_of_apart {f g : Fld} (v : Nat) (h : g.off ≠ f.off ∨ (g.lo + g.w ≤ 32 ∧ (g.lo + g.w ≤ f.lo ∨ f.lo + f.w ≤ g.lo))) :
    (s.setFld f v).fld g = s.fld g := by
  by_cases ho : g.off = f.off
  · rcases h with h | ⟨h1, h2⟩
    · exact absurd ho h
    · exact fld_setFld_apart s v ho h1 h2
  · exact fld_setFld_other s v ho

theorem flag_setFlag_same {f : Fld} (b : Bool) (h : f.lo + f.w ≤ 32) (hw : f.w = 1) : (s.setFlag f b).flag f = b := by
  unfold State.flag State.setFlag
  rw [fld_setFld_same s _ h, hw]; cases b <;> rfl

theorem fld_lt (f : Fld) : s.fld f < 2 ^ f.w := BitVec.isLt _

theorem fld_count_same {f : Fld} (n : Nat) (h : f.lo + f.w ≤ 32) : (s.count f n).fld f = min (2 ^ f.w - 1) (s.fld f + n) := by
  unfold State.count
  rw [fld_setFld_same s _ h]
  apply Nat.mod_eq_of_lt
  have := Nat.two_pow_pos f.w
  omega

theorem rd64_wr64 (o v : Nat) (h : v < 2 ^ 64) : (s.wr64 o v).rd64 o = v := by
  unfold State.wr64 State.rd64
  rw [rd_wr_same, rd_wr_other _ _ (by omega), rd_wr_same]
  simp only [BitVec.toNat_ofNat]
  omega

end State

end Sys2Proof.Machine
end

