-- ==== Sys2Proof/Laws/Norm.lean ====
section
/-! SUPPORT. Registers through updates of other fields: reads and writes as functions of the fuses and the register store alone,
so that a read of a register goes through any record update. -/

namespace Sys2Proof.Machine

/-- The word at an offset of a register store. -/
def rdR (d : Dev) (r : Store Word) (o : Nat) : Word := Store.get (resetWord d o) r o

/-- Set a word. -/
def wrR (d : Dev) (r : Store Word) (o : Nat) (v : Word) : Store Word := Store.putD (resetWord d o) r o v

/-- A field. -/
def fldR (d : Dev) (r : Store Word) (f : Fld) : Nat := ((rdR d r f.off).extractLsb' f.lo f.w).toNat

/-- Set a field. -/
def setR (d : Dev) (r : Store Word) (f : Fld) (v : Nat) : Store Word :=
  wrR d r f.off (insBits (rdR d r f.off) f.lo f.w v)

namespace State

variable (s : State)

theorem rd_eq (o : Nat) : s.rd o = rdR s.dev s.regs o := by rfl
theorem fld_eq (f : Fld) : s.fld f = fldR s.dev s.regs f := by rfl
theorem flag_eq (f : Fld) : s.flag f = (fldR s.dev s.regs f != 0) := by rfl
theorem wr_regs (o : Nat) (v : Word) : (s.wr o v).regs = wrR s.dev s.regs o v := by rfl
theorem setFld_regs (f : Fld) (v : Nat) : (s.setFld f v).regs = setR s.dev s.regs f v := by rfl
theorem setFlag_regs (f : Fld) (b : Bool) : (s.setFlag f b).regs = setR s.dev s.regs f b.toNat := by rfl
theorem count_regs (f : Fld) (n : Nat) :
    (s.count f n).regs = setR s.dev s.regs f (min (2 ^ f.w - 1) (fldR s.dev s.regs f + n)) := by rfl
theorem setBits_regs (o m : Nat) : (s.setBits o m).regs = wrR s.dev s.regs o (rdR s.dev s.regs o ||| BitVec.ofNat 32 m) := by rfl
theorem wr64_regs (o v : Nat) :
    (s.wr64 o v).regs = wrR s.dev (wrR s.dev s.regs o (BitVec.ofNat 32 v)) (o + 4) (BitVec.ofNat 32 (v / 2 ^ 32)) := by rfl
theorem rd64_eq (o : Nat) : s.rd64 o = (rdR s.dev s.regs o).toNat + (rdR s.dev s.regs (o + 4)).toNat * 2 ^ 32 := by rfl

end State

theorem rdR_wrR (d : Dev) (r : Store Word) (o p : Nat) (v : Word) :
    rdR d (wrR d r o v) p = if p = o then v else rdR d r p := by
  unfold rdR wrR
  split
  · next h => subst h; exact Store.get_putD_same _ _ _ _
  · next h => unfold Store.putD; split
              · exact Store.get_drop_other _ _ h
              · exact Store.get_put_other _ _ _ h

theorem rdR_wrR_same (d : Dev) (r : Store Word) (o : Nat) (v : Word) : rdR d (wrR d r o v) o = v := by simp [rdR_wrR]

theorem rdR_wrR_other (d : Dev) (r : Store Word) {o p : Nat} (v : Word) (h : p ≠ o) :
    rdR d (wrR d r o v) p = rdR d r p := by simp [rdR_wrR, h]

theorem rdR_setR_other (d : Dev) (r : Store Word) {f : Fld} {p : Nat} (v : Nat) (h : p ≠ f.off) :
    rdR d (setR d r f v) p = rdR d r p := rdR_wrR_other d r _ h

theorem fldR_wrR_other (d : Dev) (r : Store Word) {o : Nat} {g : Fld} (v : Word) (h : g.off ≠ o) :
    fldR d (wrR d r o v) g = fldR d r g := by
  unfold fldR; rw [rdR_wrR_other d r v h]

theorem fldR_setR_same (d : Dev) (r : Store Word) {f : Fld} (v : Nat) (h : f.lo + f.w ≤ 32) :
    fldR d (setR d r f v) f = v % 2 ^ f.w := by
  unfold fldR setR; rw [rdR_wrR_same]; exact insBits_same _ _ _ _ h

theorem fldR_setR_apart (d : Dev) (r : Store Word) {f g : Fld} (v : Nat)
    (h : g.off ≠ f.off ∨ (g.lo + g.w ≤ 32 ∧ (g.lo + g.w ≤ f.lo ∨ f.lo + f.w ≤ g.lo))) :
    fldR d (setR d r f v) g = fldR d r g := by
  by_cases ho : g.off = f.off
  · rcases h with h | ⟨h1, h2⟩
    · exact absurd ho h
    · unfold fldR setR; rw [ho, rdR_wrR_same, insBits_apart _ _ _ _ _ _ h1 h2]
  · exact fldR_wrR_other d r _ ho

theorem fldR_lt (d : Dev) (r : Store Word) (f : Fld) : fldR d r f < 2 ^ f.w := BitVec.isLt _

end Sys2Proof.Machine
end

