-- ==== Sys2Proof/Laws/Ops.lean ====
section
/-! SUPPORT. What the shared operations can change: one lemma for each, naming the parts of State that it may touch. Everything else is
as before. -/

namespace Sys2Proof.Machine

/-! ## Which parts an operation touches -/

/-- Registers alone may differ. -/
def OnlyRegs (s t : State) : Prop := ∃ r, t = { s with regs := r }
/-- Registers, clusters, the tile's units and the edges may differ (an error takes its edge under test). -/
def OnlyMesh (s t : State) : Prop := ∃ r c x e, t = { s with regs := r, clusters := c, tile := x, edges := e }
/-- Registers and the sideband may differ. -/
def OnlySb (s t : State) : Prop := ∃ r b, t = { s with regs := r, sb := b }
/-- Registers, edges, the messages inside the tile and those for the vertical ports may differ. -/
def OnlyLinks (s t : State) : Prop := ∃ r e i v, t = { s with regs := r, edges := e, inbox := i, vpOut := v }
/-- Registers, package memory with its poison, completion rings and commands in flight may differ. -/
def OnlyHost (s t : State) : Prop :=
  ∃ r m p q f, t = { s with regs := r, pkgMem := m, poison := p, queues := q, flights := f }

theorem OnlyRegs.rfl' (s : State) : OnlyRegs s s := ⟨_, rfl⟩
theorem OnlyMesh.rfl' (s : State) : OnlyMesh s s := ⟨_, _, _, _, rfl⟩
theorem OnlySb.rfl' (s : State) : OnlySb s s := ⟨_, _, rfl⟩
theorem OnlyLinks.rfl' (s : State) : OnlyLinks s s := ⟨_, _, _, _, rfl⟩
theorem OnlyHost.rfl' (s : State) : OnlyHost s s := ⟨_, _, _, _, _, rfl⟩

theorem OnlyRegs.trans {s t u : State} (h : OnlyRegs s t) (k : OnlyRegs t u) : OnlyRegs s u := by
  obtain ⟨_, rfl⟩ := h; obtain ⟨_, rfl⟩ := k; exact ⟨_, rfl⟩
theorem OnlyMesh.trans {s t u : State} (h : OnlyMesh s t) (k : OnlyMesh t u) : OnlyMesh s u := by
  obtain ⟨_, _, _, _, rfl⟩ := h; obtain ⟨_, _, _, _, rfl⟩ := k; exact ⟨_, _, _, _, rfl⟩
theorem OnlySb.trans {s t u : State} (h : OnlySb s t) (k : OnlySb t u) : OnlySb s u := by
  obtain ⟨_, _, rfl⟩ := h; obtain ⟨_, _, rfl⟩ := k; exact ⟨_, _, rfl⟩
theorem OnlyLinks.trans {s t u : State} (h : OnlyLinks s t) (k : OnlyLinks t u) : OnlyLinks s u := by
  obtain ⟨_, _, _, _, rfl⟩ := h; obtain ⟨_, _, _, _, rfl⟩ := k; exact ⟨_, _, _, _, rfl⟩
theorem OnlyHost.trans {s t u : State} (h : OnlyHost s t) (k : OnlyHost t u) : OnlyHost s u := by
  obtain ⟨_, _, _, _, _, rfl⟩ := h; obtain ⟨_, _, _, _, _, rfl⟩ := k; exact ⟨_, _, _, _, _, rfl⟩

theorem OnlyRegs.mesh {s t : State} (h : OnlyRegs s t) : OnlyMesh s t := by obtain ⟨_, rfl⟩ := h; exact ⟨_, _, _, _, rfl⟩
theorem OnlyRegs.sb {s t : State} (h : OnlyRegs s t) : OnlySb s t := by obtain ⟨_, rfl⟩ := h; exact ⟨_, _, rfl⟩
theorem OnlyRegs.links {s t : State} (h : OnlyRegs s t) : OnlyLinks s t := by obtain ⟨_, rfl⟩ := h; exact ⟨_, _, _, _, rfl⟩
theorem OnlyRegs.host {s t : State} (h : OnlyRegs s t) : OnlyHost s t := by obtain ⟨_, rfl⟩ := h; exact ⟨_, _, _, _, _, rfl⟩

theorem OnlyLinks.ite {s a b : State} {p : Prop} [Decidable p] (ha : OnlyLinks s a) (hb : OnlyLinks s b) :
    OnlyLinks s (if p then a else b) := by split <;> assumption
theorem OnlyMesh.ite {s a b : State} {p : Prop} [Decidable p] (ha : OnlyMesh s a) (hb : OnlyMesh s b) :
    OnlyMesh s (if p then a else b) := by split <;> assumption

/-- What every operation of the mesh leaves. -/
theorem OnlyMesh.outside {s t : State} (h : OnlyMesh s t) : t.pending = s.pending ∧ t.dev = s.dev ∧ t.pkgMem = s.pkgMem
    ∧ t.poison = s.poison ∧ t.flights = s.flights ∧ t.inbox = s.inbox ∧ t.sb = s.sb ∧ t.job = s.job := by
  obtain ⟨_, _, _, _, rfl⟩ := h; exact ⟨rfl, rfl, rfl, rfl, rfl, rfl, rfl, rfl⟩
/-- What a change of registers leaves. -/
theorem OnlyRegs.outside {s t : State} (h : OnlyRegs s t) : t.pending = s.pending ∧ t.dev = s.dev ∧ t.pkgMem = s.pkgMem
    ∧ t.poison = s.poison ∧ t.clusters = s.clusters ∧ t.tile = s.tile ∧ t.flights = s.flights ∧ t.edges = s.edges
    ∧ t.inbox = s.inbox := by
  obtain ⟨_, rfl⟩ := h; exact ⟨rfl, rfl, rfl, rfl, rfl, rfl, rfl, rfl, rfl⟩
/-- What completing a command leaves. -/
theorem OnlyHost.outside {s t : State} (h : OnlyHost s t) : t.pending = s.pending ∧ t.dev = s.dev ∧ t.clusters = s.clusters
    ∧ t.tile = s.tile ∧ t.edges = s.edges ∧ t.inbox = s.inbox ∧ t.job = s.job := by
  obtain ⟨_, _, _, _, _, rfl⟩ := h; exact ⟨rfl, rfl, rfl, rfl, rfl, rfl, rfl⟩

/-- A fold keeps what each of its steps keeps. -/
theorem foldl_keeps {β : Type} (P : State → State → Prop) (hr : ∀ s, P s s) (ht : ∀ {s t u}, P s t → P t u → P s u)
    (f : State → β → State) (h : ∀ s x, P s (f s x)) (l : List β) : ∀ s, P s (l.foldl f s) := by
  induction l with
  | nil => exact hr
  | cons x t ih => exact fun s => ht (h s x) (ih (f s x))

theorem OnlyRegs.foldl {β : Type} (f : State → β → State) (h : ∀ s x, OnlyRegs s (f s x)) (l : List β) (s : State) :
    OnlyRegs s (l.foldl f s) := foldl_keeps OnlyRegs OnlyRegs.rfl' OnlyRegs.trans f h l s
theorem OnlyMesh.foldl {β : Type} (f : State → β → State) (h : ∀ s x, OnlyMesh s (f s x)) (l : List β) (s : State) :
    OnlyMesh s (l.foldl f s) := foldl_keeps OnlyMesh OnlyMesh.rfl' OnlyMesh.trans f h l s
theorem OnlyHost.foldl {β : Type} (f : State → β → State) (h : ∀ s x, OnlyHost s (f s x)) (l : List β) (s : State) :
    OnlyHost s (l.foldl f s) := foldl_keeps OnlyHost OnlyHost.rfl' OnlyHost.trans f h l s

/-! ## Registers -/

section
variable (s : State)

theorem wr_only (o : Nat) (v : Word) : OnlyRegs s (s.wr o v) := ⟨_, rfl⟩
theorem setFld_only (f : Fld) (v : Nat) : OnlyRegs s (s.setFld f v) := ⟨_, rfl⟩
theorem setFlag_only (f : Fld) (b : Bool) : OnlyRegs s (s.setFlag f b) := ⟨_, rfl⟩
theorem count_only (f : Fld) (n : Nat) : OnlyRegs s (s.count f n) := ⟨_, rfl⟩
theorem wr64_only (o v : Nat) : OnlyRegs s (s.wr64 o v) := (wr_only _ _ _).trans (wr_only _ _ _)
theorem count64_only (o n : Nat) : OnlyRegs s (s.count64 o n) := wr64_only s _ _
theorem setBits_only (o m : Nat) : OnlyRegs s (s.setBits o m) := ⟨_, rfl⟩
theorem enter_only (k : Nat) : OnlyRegs s (s.enter k) := ⟨_, rfl⟩
theorem setFld64_only (o lo w v : Nat) : OnlyRegs s (s.setFld64 o lo w v) := by unfold State.setFld64; exact wr64_only _ _ _

theorem wrWide_only (s : State) (o n v : Nat) : OnlyRegs s (s.wrWide o n v) := by
  induction n generalizing s o v with
  | zero => exact OnlyRegs.rfl' s
  | succ n ih => exact (wr_only s _ _).trans (ih _ _ _)

theorem log_only (e : Entry) : OnlyRegs s (s.log e) := by
  unfold State.log
  refine OnlyRegs.trans ?_ (count_only _ _ _)
  refine OnlyRegs.trans ?_ (setFld_only _ _ _)
  refine OnlyRegs.trans ?_ (setFld_only _ _ _)
  refine OnlyRegs.trans ?_ (setFld_only _ _ _)
  split
  · exact (wrWide_only _ _ _ _).trans (setFlag_only _ _ _)
  · exact wrWide_only _ _ _ _

theorem logEvent_only (c r o d : Nat) : OnlyRegs s (s.logEvent c r o d) := log_only s _

/-! ## Frames and messages to send -/

theorem sbQueue_only (f : TxFrame) : OnlySb s (s.sbQueue f) := by
  unfold State.sbQueue
  split
  · exact OnlySb.rfl' s
  · split
    · exact (count_only _ _ _).sb
    · exact ⟨_, _, rfl⟩

theorem alert_only (c : Nat) : OnlySb s (s.alert c) := sbQueue_only s _

theorem sendBootStatus_only : OnlySb s s.sendBootStatus := by
  unfold State.sendBootStatus
  dsimp only
  split
  · exact sbQueue_only _ _
  · exact (sbQueue_only _ _).trans (sbQueue_only _ _)

theorem deliverHere_only (m : GMsg) : OnlyLinks s (s.deliverHere m) := by
  unfold State.deliverHere
  exact OnlyLinks.ite (logEvent_only _ _ _ _ _).links ⟨_, _, _, _, rfl⟩

theorem noRoute_only (m : GMsg) : OnlyRegs s (s.noRoute m) := by
  unfold State.noRoute
  split <;> exact logEvent_only _ _ _ _ _

theorem send_only (m : GMsg) : OnlyLinks s (s.send m) := by
  unfold State.send
  split
  · exact deliverHere_only _ _
  · exact ⟨_, _, _, _, rfl⟩
  · exact (noRoute_only _ _).links
  · exact OnlyLinks.ite ((count_only _ _ _).trans (logEvent_only _ _ _ _ _)).links ⟨_, _, _, _, rfl⟩

/-! ## Clusters and their parts -/

theorem setCl_only (site : Nat) (c : Cluster) : OnlyMesh s (s.setCl site c) := ⟨_, _, _, _, rfl⟩
theorem modCl_only (site : Nat) (f : Cluster → Cluster) : OnlyMesh s (s.modCl site f) := ⟨_, _, _, _, rfl⟩
theorem modSlot_only (site n : Nat) (f : SlotSt → SlotSt) : OnlyMesh s (s.modSlot site n f) := ⟨_, _, _, _, rfl⟩
theorem modBlk_only (site n : Nat) (f : Blk → Blk) : OnlyMesh s (s.modBlk site n f) := ⟨_, _, _, _, rfl⟩
theorem modArr_only (site n : Nat) (f : Arr → Arr) : OnlyMesh s (s.modArr site n f) := ⟨_, _, _, _, rfl⟩
theorem modEng_only (site n : Nat) (f : Eng → Eng) : OnlyMesh s (s.modEng site n f) := ⟨_, _, _, _, rfl⟩
theorem modCtx_only (site n : Nat) (f : Ctx → Ctx) : OnlyMesh s (s.modCtx site n f) := ⟨_, _, _, _, rfl⟩

/-- A cluster after one cluster was changed. -/
theorem cl_modCl (site k : Nat) (f : Cluster → Cluster) : (s.modCl site f).cl k = if k = site then f (s.cl site) else s.cl k := by
  unfold State.modCl State.setCl State.cl
  split
  · next h => subst h; exact Store.get_put_same _ _ _ _
  · next h => exact Store.get_put_other _ _ _ h

theorem regs_modCl (site : Nat) (f : Cluster → Cluster) : (s.modCl site f).regs = s.regs := by rfl

/-- A slot after one slot was changed. -/
theorem slot_modSlot (site n k m : Nat) (f : SlotSt → SlotSt) :
    (s.modSlot site n f).slot k m = if k = site ∧ m = n then f (s.slot site n) else s.slot k m := by
  unfold State.modSlot State.slot
  rw [cl_modCl]
  by_cases h : k = site
  · subst h
    by_cases hm : m = n
    · subst hm; simp only [and_self, if_true]; exact Store.get_upd_same _ _ _ _
    · simp only [hm, and_false, if_true, if_false]; exact Store.get_upd_other _ _ _ hm
  · simp [h]

/-! ## Commands in flight and replies -/

theorem queueError_only (q r : Nat) : OnlyRegs s (s.queueError q r) := by
  unfold State.queueError; dsimp only
  split
  · exact (setFld_only _ _ _).trans (setFld_only _ _ _)
  · exact setFld_only _ _ _

theorem pkgWrite_host (a : Nat) (l : List Byte) : OnlyHost s (s.pkgWrite a l) := ⟨_, _, _, _, _, rfl⟩

theorem writeReply_only (q a b c d e f g : Nat) : OnlyHost s (s.writeReply q a b c d e f g) := by
  unfold State.writeReply; dsimp only
  split
  · exact ((pkgWrite_host _ _ _).trans (setFld_only _ _ _).host).trans ⟨_, _, _, _, _, rfl⟩
  · exact (pkgWrite_host _ _ _).trans (setFld_only _ _ _).host

theorem drainEnd_only (q : Nat) : OnlyRegs s (s.drainEnd q) := by
  unfold State.drainEnd; split
  · exact setFld_only _ _ _
  · exact OnlyRegs.rfl' s

theorem setFlight_only (f : Flight) : OnlyHost s (s.setFlight f) := ⟨_, _, _, _, _, rfl⟩

theorem complete_only (f : Flight) (a b c : Nat) : OnlyHost s (s.complete f a b c) := by
  unfold State.complete; dsimp only
  refine OnlyHost.trans ?_ (drainEnd_only _ _).host
  have h : ∀ u : State, OnlyHost s u →
      OnlyHost s (({ u with flights := u.flights.filter fun g => !f.same g } : State)) :=
    fun u hu => hu.trans ⟨_, _, _, _, _, rfl⟩
  split
  · exact (((h _ (writeReply_only s _ _ _ _ _ _ _ _)).trans (setFld_only _ _ _).host).trans (setFld_only _ _ _).host).trans
      (queueError_only _ _ _).host
  · exact ((h _ (writeReply_only s _ _ _ _ _ _ _ _)).trans (setFld_only _ _ _).host).trans (setFld_only _ _ _).host

theorem completeWhere_only (p : Flight → Bool) (a b : Nat) : OnlyHost s (s.completeWhere p a b) :=
  OnlyHost.foldl _ (fun _ _ => complete_only _ _ _ _ _) _ _

/-- Entering FAILED leaves the clusters, the links and the tile's units. -/
theorem enterFailed_only (r : Nat) : ∃ x m p q f b j, s.enterFailed r =
    { s with regs := x, pkgMem := m, poison := p, queues := q, flights := f, sb := b, job := j } := by
  have key : ∀ u : State, ∃ x m p q f b, (u.completeWhere (fun f => !legalInFailed f.opcode) stFaultAbandoned 0x0217).sendBootStatus =
      { u with regs := x, pkgMem := m, poison := p, queues := q, flights := f, sb := b } := by
    intro u
    obtain ⟨_, m, p, q, f, h⟩ := completeWhere_only u (fun f => !legalInFailed f.opcode) stFaultAbandoned 0x0217
    obtain ⟨x, b, k⟩ := sendBootStatus_only (u.completeWhere (fun f => !legalInFailed f.opcode) stFaultAbandoned 0x0217)
    exact ⟨x, m, p, q, f, b, by rw [k, h]⟩
  have last : ∀ s0 : State, OnlyRegs s s0 → ∀ k : Job, ∃ x m p q f b j,
      (({ s0 with job := k } : State).completeWhere (fun f => !legalInFailed f.opcode) stFaultAbandoned 0x0217).sendBootStatus =
        { s with regs := x, pkgMem := m, poison := p, queues := q, flights := f, sb := b, job := j } := by
    rintro _ ⟨_, rfl⟩ j
    obtain ⟨x, m, p, q, f, b, h⟩ := key { s with regs := _, job := j }
    exact ⟨x, m, p, q, f, b, j, h⟩
  unfold State.enterFailed
  have h0 := ((enter_only s tsFailed).trans (setFld_only _ Reg.TILE_STATE_REASON r)).trans (setFlag_only _ Reg.TILE_STATE_PAUSE_PENDING false)
  revert h0
  generalize ((s.enter tsFailed).setFld Reg.TILE_STATE_REASON r).setFlag Reg.TILE_STATE_PAUSE_PENDING false = s0
  intro h0
  dsimp only
  exact last s0 h0 _

/-! ## Objects, errors and blocks -/

theorem objSum_only (site o : Nat) (incs : List Int) (src beat : Nat) : OnlyMesh s (s.objSum site o incs src beat) := by
  unfold State.objSum
  extract_lets v s1 s2 log
  have h : OnlyMesh s s2 := (setFld_only _ _ _).mesh.trans (modCl_only _ _ _)
  split
  · exact (h.trans (setFld64_only _ _ _ _ _).mesh).trans (logEvent_only _ _ _ _ _).mesh
  · split
    · exact (h.trans (setFld64_only _ _ _ _ _).mesh).trans (logEvent_only _ _ _ _ _).mesh
    · exact h

theorem objAdd_only (site o : Nat) (inc : Int) (src beat : Nat) : OnlyMesh s (s.objAdd site o inc src beat) :=
  objSum_only s _ _ _ _ _

theorem tobjSum_only (o : Nat) (incs : List Int) (src beat : Nat) : OnlyMesh s (s.tobjSum o incs src beat) := by
  unfold State.tobjSum; dsimp only
  split
  · exact OnlyMesh.trans ⟨_, _, _, _, rfl⟩ (logEvent_only _ _ _ _ _).mesh
  · split
    · exact OnlyMesh.trans ⟨_, _, _, _, rfl⟩ (logEvent_only _ _ _ _ _).mesh
    · exact ⟨_, _, _, _, rfl⟩

theorem tobjAdd_only (o : Nat) (inc : Int) (src beat : Nat) : OnlyMesh s (s.tobjAdd o inc src beat) := tobjSum_only s _ _ _ _

theorem edgeTest_only (e : Nat) : OnlyMesh s (s.edgeTest e) := by
  unfold State.edgeTest
  exact OnlyMesh.ite ⟨_, _, _, _, rfl⟩ (OnlyMesh.rfl' s)

theorem portTest_only (p : Nat) : OnlyMesh s (s.portTest p) := by
  unfold State.portTest
  exact OnlyMesh.ite ⟨_, _, _, _, rfl⟩ (OnlyMesh.rfl' s)

theorem showFault_only (u : TestUnit) : OnlyMesh s (s.showFault u) := by
  unfold State.showFault; split
  · exact OnlyMesh.ite (setFld_only _ _ _).mesh (OnlyMesh.ite (setFld_only _ _ _).mesh (OnlyMesh.rfl' s))
  · exact OnlyMesh.rfl' s
  · exact edgeTest_only _ _
  · exact portTest_only _ _
  · exact OnlyMesh.rfl' s

theorem raise_only (e : PErr) : OnlyMesh s (s.raise e) := by
  unfold State.raise
  split
  · exact OnlyMesh.trans ⟨_, _, _, _, rfl⟩ (showFault_only _ _)
  · split
    · exact OnlyMesh.rfl' s
    · dsimp only
      refine OnlyMesh.trans (OnlyMesh.trans ?_ ⟨_, _, _, _, rfl⟩) (showFault_only _ _)
      refine OnlyMesh.ite (OnlyMesh.trans ?_ (modBlk_only _ _ _ _)) ?_ <;>
      · refine OnlyMesh.ite (OnlyMesh.trans ?_ (setFlag_only _ _ _).mesh) ?_ <;>
        · refine OnlyMesh.ite (OnlyMesh.trans ?_ (setFld_only _ _ _).mesh) ?_ <;>
          exact ((setFld_only _ _ _).trans (setFld_only _ _ _)).mesh

theorem raiseAt_only (a b c d e f g : Nat) : OnlyMesh s (s.raiseAt a b c d e f g) := raise_only s _

theorem memRangeAt_only (p a n : Nat) : OnlyMesh s (s.memRangeAt p a n) :=
  OnlyMesh.ite (raise_only _ _) (OnlyMesh.rfl' s)

theorem memRange_only (a n : Nat) : OnlyMesh s (s.memRange a n) := memRangeAt_only _ _ _ _

theorem showQueues_only (site : Nat) : OnlyRegs s (s.showQueues site) := by
  unfold State.showQueues
  exact ((OnlyRegs.foldl _ (fun _ _ => setFld_only _ _ _) _ _).trans (OnlyRegs.foldl _ (fun _ _ => setFld_only _ _ _) _ _)).trans
    (setFld_only _ _ _)

theorem showCtx_only (site d : Nat) : OnlyRegs s (s.showCtx site d) := by
  unfold State.showCtx; dsimp only
  split
  · exact ⟨_, rfl⟩
  · exact ⟨_, rfl⟩

/-- A queue that has room takes an operation of the mesh. -/
theorem queueArr_only (site : Nat) (o : Op) (t : State) (h : s.queueArr site o = some t) : OnlyMesh s t := by
  unfold State.queueArr at h
  dsimp only at h
  split at h
  · injection h with h
    subst h
    exact ((modCl_only s _ _).trans (OnlyMesh.foldl _ (fun _ _ => modArr_only _ _ _ _) _ _)).trans (showQueues_only _ _).mesh
  · cases h

theorem batchRelease_only (site a : Nat) (t : State) (h : s.batchRelease site a = some t) : OnlyMesh s t := by
  unfold State.batchRelease at h
  dsimp only at h
  split at h
  · injection h with h; subst h; exact OnlyMesh.rfl' s
  · obtain ⟨u, hu, rfl⟩ := Option.map_eq_some_iff.mp h
    exact ((queueArr_only s _ _ _ hu).trans (modArr_only _ _ _ _)).trans
      (((setFld_only _ _ _).trans (setFld_only _ _ _)).trans (count_only _ _ _)).mesh

theorem shrunk_only (site : Nat) : OnlyMesh s (s.shrunk site) := by
  unfold State.shrunk
  refine OnlyMesh.trans (showQueues_only s site).mesh (OnlyMesh.foldl _ (fun s a => OnlyMesh.ite ?_ (OnlyMesh.rfl' s)) _ _)
  cases h : s.batchRelease site a with
  | none => exact OnlyMesh.rfl' s
  | some t => exact batchRelease_only s _ _ _ h

theorem dropOps_only (site n b : Nat) : OnlyMesh s (s.dropOps site n b) := by
  unfold State.dropOps; dsimp only
  exact (modCl_only s _ _).trans (shrunk_only _ _)

theorem cancelCtx_only (site d : Nat) : OnlyMesh s (s.cancelCtx site d) := by
  unfold State.cancelCtx
  extract_lets c bound loads quiet s1 s2 s3 tl s4
  have h1 : OnlyMesh s s1 := (OnlyRegs.foldl _ (fun _ _ => setFld_only _ _ _) _ _).mesh
  have h2 : OnlyMesh s1 s2 := modCtx_only _ _ _ _
  have h3 : OnlyMesh s2 s3 := modCl_only _ _ _
  have h4 : OnlyMesh s3 s4 := ⟨_, _, _, _, rfl⟩
  exact ((((h1.trans h2).trans h3).trans h4).trans (setFld_only _ _ _).mesh).trans (showCtx_only _ _ _).mesh

theorem undoArm_only (site d : Nat) (home : Word) (n b : Nat) : OnlyMesh s (s.undoArm site d home n b) := by
  unfold State.undoArm; dsimp only
  refine OnlyMesh.trans ?_ (wr_only _ _ _).mesh
  split
  · exact cancelCtx_only _ _ _
  · split
    · exact (modCtx_only _ _ _ _).trans (showCtx_only _ _ _).mesh
    · exact OnlyMesh.rfl' s

theorem discard_only (site n st : Nat) : OnlyMesh s (s.discard site n st) := by
  unfold State.discard
  extract_lets b src s1 s2 s3 s4 s5 sl s6 s7 s8 s9
  have h1 : OnlyMesh s s1 := OnlyMesh.foldl _ (fun _ _ => objAdd_only _ _ _ _ _ _) _ _
  have h2 : OnlyMesh s1 s2 := OnlyMesh.foldl _ (fun _ _ => ((setFld_only _ _ _).trans (setFlag_only _ _ _)).mesh) _ _
  have h3 : OnlyMesh s2 s3 := OnlyMesh.foldl _ (fun _ _ => (setFld_only _ _ _).mesh) _ _
  have h4 : OnlyMesh s3 s4 := OnlyMesh.foldl _ (fun _ _ => undoArm_only _ _ _ _ _ _) _ _
  have h5 : OnlyMesh s4 s5 := (dropOps_only _ _ _ _).trans (modCl_only _ _ _)
  have h6 : OnlyMesh s5 s6 := modSlot_only _ _ _ _
  have h7 : OnlyMesh s6 s7 := ((setFld_only _ _ _).trans (setFld_only _ _ _)).mesh
  have h8 : OnlyMesh s7 s8 := ((setFld_only _ _ _).trans (setFld_only _ _ _)).mesh
  have h9 : OnlyMesh s8 s9 := OnlyMesh.ite (setFlag_only _ _ _).mesh (OnlyMesh.rfl' _)
  exact (((((((((h1.trans h2).trans h3).trans h4).trans h5).trans h6).trans h7).trans h8).trans h9).trans ⟨_, _, _, _, rfl⟩)

theorem settle_only (site n : Nat) : OnlyMesh s (s.settle site n) := by
  unfold State.settle; dsimp only
  split
  · split
    · exact dropOps_only _ _ _ _
    · exact (dropOps_only _ _ _ _).trans (discard_only _ _ _ _)
  · exact OnlyMesh.rfl' s

theorem settleAll_only (site : Nat) : OnlyMesh s (s.settleAll site) := OnlyMesh.foldl _ (fun _ _ => settle_only _ _ _) _ _

theorem trap_only (site n c : Nat) : OnlyMesh s (s.trap site n c) := by
  unfold State.trap; dsimp only
  exact ((((setFld_only _ _ _).trans (setFld_only _ _ _)).mesh.trans (modSlot_only _ _ _ _)).trans (raiseAt_only _ _ _ _ _ _ _ _)).trans
    (settle_only _ _ _)

theorem waitTmo_only (a b c d e f g h : Nat) (l : Bool) : OnlyMesh s (s.waitTmo a b c d e f g h l) := by
  unfold State.waitTmo
  exact OnlyMesh.trans (wr64_only _ _ _).mesh (raise_only _ _)

/-! ## The slice -/

theorem corrected_only (site w : Nat) : OnlyMesh s (s.corrected site w) := by
  unfold State.corrected; dsimp only
  split
  · exact ((modCl_only _ _ _).trans (count_only _ _ _).mesh).trans (raise_only _ _)
  · exact (modCl_only _ _ _).trans (count_only _ _ _).mesh

theorem badWord_only (site w c : Nat) (who : Who) : OnlyMesh s (s.badWord site w c who) := by
  unfold State.badWord; dsimp only
  split
  · exact (count_only _ _ _).mesh.trans (raise_only _ _)
  · exact raise_only _ _

theorem meet_only (site a n : Nat) (who : Who) : OnlyMesh s (s.meet site a n who).1 := by
  unfold State.meet
  generalize (s.cl site).errWords a n = l
  have : ∀ (l : List (Nat × Nat)) (p : State × Bool), OnlyMesh p.1 (l.foldl (fun (p : State × Bool) w =>
      if w.2 = 1 then (p.1.corrected site w.1, p.2) else (p.1.badWord site w.1 w.2 who, false)) p).1 := by
    intro l
    induction l with
    | nil => exact fun p => OnlyMesh.rfl' _
    | cons x t ih =>
      intro p
      rw [List.foldl_cons]
      refine OnlyMesh.trans ?_ (ih _)
      split
      · exact corrected_only _ _ _
      · exact badWord_only _ _ _ _ _
  exact this l (s, true)

theorem offError_only (site a n : Nat) (who : Who) : OnlyMesh s (s.offError site a n who) :=
  OnlyMesh.ite (raise_only _ _) (OnlyMesh.rfl' _)

theorem touchRead_only (site a n : Nat) (who : Who) : OnlyMesh s (s.touchRead site a n who).1 := by
  unfold State.touchRead
  extract_lets s1
  have h1 : OnlyMesh s s1 := OnlyMesh.ite (modBlk_only _ _ _ _) (OnlyMesh.rfl' _)
  exact (h1.trans (offError_only _ _ _ _ _)).trans (meet_only _ _ _ _ _)

theorem meetLand_only (site : Nat) (rs : List (Nat × Nat)) (who : Who) : OnlyMesh s (s.meetLand site rs who) := by
  unfold State.meetLand; dsimp only
  refine OnlyMesh.trans ?_ (OnlyMesh.foldl _ (fun _ _ => meet_only _ _ _ _ _) _ _)
  split
  · exact offError_only _ _ _ _ _
  · exact OnlyMesh.rfl' s

theorem guardTrip_only (site n l k : Nat) : OnlyMesh s (s.guardTrip site n l k) := by
  unfold State.guardTrip
  extract_lets b entry v s1 s2 s3
  have h1 : OnlyMesh s s1 := (wr64_only _ _ _).mesh
  have h2 : OnlyMesh s1 s2 := OnlyMesh.ite (count_only _ _ _).mesh (OnlyMesh.rfl' _)
  have h3 : OnlyMesh s2 s3 := OnlyMesh.ite (OnlyMesh.rfl' _) ((modSlot_only _ _ _ _).trans (log_only _ _).mesh)
  exact ((h1.trans h2).trans h3).trans (modBlk_only _ _ _ _)

theorem sliceWrite_only (site a : Nat) (bs : List Byte) (who : Who) : OnlyMesh s (s.sliceWrite site a bs who) := by
  unfold State.sliceWrite
  extract_lets n lo hi part s1 stuck s2 cells ok s3
  have h1 : OnlyMesh s s1 := OnlyMesh.foldl _ (fun _ _ => meet_only _ _ _ _ _) _ _
  have h2 : OnlyMesh s1 s2 := offError_only _ _ _ _ _
  have h3 : OnlyMesh s2 s3 := modCl_only _ _ _
  refine OnlyMesh.ite (OnlyMesh.rfl' s) (OnlyMesh.ite ?_ ((h1.trans h2).trans h3))
  exact ((h1.trans h2).trans h3).trans (OnlyMesh.foldl _ (fun _ _ => guardTrip_only _ _ _ _ _) _ _)

theorem writeRec_only (site off r : Nat) (who : Who) : OnlyMesh s (s.writeRec site off r who) := sliceWrite_only s _ _ _ _

/-! ## Slots -/

theorem retire_only (site n pc : Nat) : OnlyMesh s (s.retire site n pc) := (modSlot_only _ _ _ _).trans (setFld_only _ _ _).mesh

theorem retireX_only (site n len rd : Nat) (v : DWord) : OnlyMesh s (s.retireX site n len rd v) :=
  (modSlot_only _ _ _ _).trans (retire_only _ _ _ _)

theorem leave_only (site n : Nat) : OnlyMesh s (s.leave site n) := OnlyMesh.ite (modCl_only _ _ _) (OnlyMesh.rfl' s)

theorem showSlot_only (site n v : Nat) : OnlyRegs s (s.showSlot site n v) := setFld_only _ _ _

theorem stall_only (site n : Nat) (w : Option StallOn) : OnlyMesh s (s.stall site n w) :=
  ((leave_only _ _ _).trans (modSlot_only _ _ _ _)).trans (showSlot_only _ _ _ _).mesh

end

end Sys2Proof.Machine
end

