-- ==== Sys2Proof/Machine/Attention.lean ====
section
/-! DEFINITION. Streaming attention over long sequences (R271 to R284): what software lays out and computes with the commands of the
table. No row of the table is one of these operations: they are the chapter's layouts, masks and state update as functions of their
data, with the element operations of the vector engines in fast mode. -/

namespace Sys2Proof.Machine

/-! ## Positions and ring blocks (R271 to R277) -/

/-- The padding word (R271). -/
abbrev padWord : Nat := 0x00400000

/-- A position word: a position, or the padding word (R271). -/
def posOk (w : Nat) : Bool := decide (w ≤ padWord)

/-- Whether a position word is padding. -/
def posPad (w : Nat) : Bool := w.testBit 22

/-- Key words of a ring block: the unpadded ones strictly rise, and padding follows (R272). -/
def keysOk : List Nat → Bool
  | a :: b :: t => posOk a && ((!posPad a && decide (a < b)) || (posPad a && posPad b)) && keysOk (b :: t)
  | l => l.all posOk

/-- Fields of a ring block's 64 B header (R273). -/
def ringSub (h : Nat) : Nat := bits h 0 5
def ringDim (h : Nat) : Nat := bits h 5 8
def ringOrigin (h : Nat) : Nat := bits h 16 16
def ringDoc (h j : Nat) : Nat := bits h (64 + 16 * j) 16

/-- Offsets in a ring block (R273): key word `n`, key `n` of sub-block `j`, component `n` of the values of sub-block `j`. -/
def ringKeyWord (n : Nat) : Nat := 64 + 4 * n
def ringKey (sub d j n : Nat) : Nat := 64 + 256 * sub + 128 * d * j + 2 * d * n
def ringValue (sub d j n : Nat) : Nat := 64 + 256 * sub + 128 * d * sub + 128 * d * j + 128 * n

/-- A header within R273, in a landing slot of so many bytes. -/
def ringOk (h slotBytes : Nat) : Bool :=
  let sub := ringSub h
  let d := ringDim h
  decide (1 ≤ sub) && decide (sub ≤ 16) && decide (16 ≤ d) && decide (d ≤ 128) && d % 16 == 0 && bits h 13 3 == 0 && bits h 32 32 == 0
    && bits h 320 192 == 0 && decide (64 + 256 * sub * (d + 1) ≤ slotBytes)

/-- WSRC from the ring block's start, WSTRIDE, K and N of the weight load for QKᵀ, and for PV from component `n0` (R273). -/
def loadQK (sub d j : Nat) : Nat × Nat × Nat × Nat := (ringKey sub d j 0, 2 * d, d, 64)
def loadPV (sub d j n0 : Nat) : Nat × Nat × Nat × Nat := (ringValue sub d j n0, 128, 64, min 64 (d - n0))

/-- A holder of a ring block forwards it, from its slice at the origin and from the landing slot elsewhere; the last one drains it
(R275). -/
def ringForwards (i origin p : Nat) : Bool := (i + p - origin % p) % p != p - 1
def ringFromSlot (i origin p : Nat) : Bool := (i + p - origin % p) % p != 0

/-- Ring steps between receiving and consuming, from the path's latency in beats rounded up; landing slots of the hop (R275, R276). -/
def ringLead (latency : Nat) : Nat := max 2 (latency + 1)
def ringSlots (lead : Nat) : Nat := lead + 2

/-! ## Masks (R278, R279) -/

/-- Classes of a sub-block against a query group (R278). -/
inductive SubClass where
  /-- NONE: not loaded, not streamed. -/
  | none
  /-- FULL: every pair is visible. -/
  | full
  /-- PARTIAL: the rows of `fedRow` and the pairs of `visiblePair`. -/
  | part
deriving DecidableEq, Repr

/-- The class of a sub-block of these key words and document (R278). -/
def classify (keys : List Nat) (doc groupDoc : Nat) (causal : Bool) (qmin qmax : Nat) : SubClass :=
  let kf := keys.headD padWord
  let kl := ((keys.filter fun k => !posPad k).getLast?).getD 0
  if keys.all posPad || doc != groupDoc || (causal && decide (qmax < kf)) then .none
  else if !(keys.any posPad) && (!causal || decide (kl ≤ qmin)) then .full
  else .part

/-- Query `q` is fed (R272, R279). -/
def fedRow (causal : Bool) (kf q : Nat) : Bool := !posPad q && (!causal || decide (kf ≤ q))

/-- The pair of a query and a key is visible (R279). -/
def visiblePair (causal : Bool) (q k : Nat) : Bool := if causal then decide (k ≤ q) else decide (k < 2 ^ 22)

/-! ## Running state (R280 to R283) -/

/-- The FP32 codes of −∞ and of +0. -/
abbrev fNegInf : Word := 0xFF800000#32
abbrev fZero : Word := 0#32

/-- A query's state, in FP32 words (R280). -/
structure AttState where
  mh : Word := fNegInf
  ml : Word := fZero
  r  : Word := fNegInf
  lh : Word := fZero
  ll : Word := fZero
deriving DecidableEq, Repr

/-- The 32 B record (R280). -/
def attRecord (t : AttState) (lse : Word) : Nat :=
  t.mh.toNat + t.ml.toNat * 2 ^ 32 + t.r.toNat * 2 ^ 64 + t.lh.toNat * 2 ^ 96 + t.ll.toNat * 2 ^ 128 + lse.toNat * 2 ^ 160

/-- The state of a record. -/
def attLoad (v : Nat) : AttState :=
  let w (i : Nat) : Word := BitVec.ofNat 32 (bits v (32 * i) 32)
  { mh := w 0, ml := w 1, r := w 2, lh := w 3, ll := w 4 }

/-- One FP32 element operation of a vector engine, in fast mode (R166, R167). -/
def fop (op : Nat) (a b c : Word) : Word := (fpElem op 0 false a b c {}).1
def fAdd (a b : Word) : Word := fop 0x02 a b 0
def fSub (a b : Word) : Word := fop 0x03 a b 0
def fMul (a b : Word) : Word := fop 0x04 a b 0
def fFma (a b c : Word) : Word := fop 0x05 a b c
def fAddErr (a b : Word) : Word := fop 0x1B a b 0
def fNeg (a : Word) : Word := fop 0x11 a 0 0

/-- log2(e)/√D rounded once to FP32 (R281), from log2(e) in 128 fraction bits. -/
def attScale (d : Nat) : Word :=
  let m := 0x171547652b82fe1777d0ffda0d23a7d11
  BitVec.ofNat 32 (fp32.encode (roundFp fp32 false false (.fin false (Nat.sqrt (m * m * 2 ^ 64 / d)) (-160)) {}).1)

/-- The exact pair of a score times c; an invisible pair is (−∞, +0) (R279, R281). -/
def scorePair (c s : Word) (vis : Bool) : Word × Word :=
  let h := fMul s c
  if vis then (h, fFma s c (fNeg h)) else (fNegInf, fZero)

/-- The larger pair, by high word, then by low word; a NaN is ignored (R94, R281). -/
def largerPair (a b : Word × Word) : Word × Word :=
  let ah := fp32.decode a.1.toNat
  let bh := fp32.decode b.1.toNat
  if bh.isNan then a
  else if ah.isNan || ah.lt bh || (ah.eq bh && (fp32.decode a.2.toNat).lt (fp32.decode b.2.toNat)) then b
  else a

/-- The least integer not below a number. -/
def ceilNum : Num → Num
  | .fin n m e =>
    let i := signed n m
    Num.ofInt (if 0 ≤ e then i * 2 ^ e.toNat else -((-i) / 2 ^ (-e).toNat))
  | v => v

/-- The rescale base: max(R, ceil of the exact pair value) (R281). -/
def rescaleBase (r : Word) (p : Word × Word) : Word :=
  let v := ceilNum ((fp32.decode p.1.toNat).add (fp32.decode p.2.toNat))
  BitVec.ofNat 32 (fp32.encode (numMax false (fp32.decode r.toNat) v))

/-- The rescale factor, an exact power of two (R281). -/
def rescaleFactor (old new : Word) : Word :=
  match fp32.decode old.toNat, fp32.decode new.toNat with
  | .fin n m e, .fin k l g =>
    let i (n : Bool) (m : Nat) (e : Int) : Int := signed n m * 2 ^ e.toNat / 2 ^ (-e).toNat
    let d := i n m e - i k l g
    if d < -126 then fZero else BitVec.ofNat 32 ((127 + d).toNat * 2 ^ 23)
  | _, _ => fZero

/-- The sum of a pair and an FP32 value, normalised (R87, R281; log entry 61). -/
def pairAdd (p : Word × Word) (b : Word) : Word × Word :=
  let l := fAdd p.2 (fAddErr p.1 b)
  let h := fAdd p.1 b
  (fAdd h l, fAddErr h l)

/-- A probability, rounded to BF16 and held as an FP32 word (R281). -/
def attProb (r : Word) (x : Word × Word) : Word := fop 0x12 (fop 0x13 (fAdd (fSub x.1 r) x.2) 0 0) 0 0

/-- The sum of a sub-block's probabilities, by a tree of six levels (R168, R281). -/
def attSum (p : List Word) : Word :=
  let t := tree (fun a b r => fpAdd false a b r) 6 (p.map fun w => some (fp32.decode w.toNat)) {}
  BitVec.ofNat 32 (fp32.encode (t.1.getD Num.zero))

/-- The update of a fed query by a sub-block of 64 scores: the state, the rescale factor and the probabilities; none where nothing is
visible yet (R281). -/
def attUpdate (c : Word) (t : AttState) (scores : List Word) (vis : List Bool) : Option (AttState × Word × List Word) :=
  let xs := (scores.zip vis).map fun (p : Word × Bool) => scorePair c p.1 p.2
  let m := xs.foldl largerPair (t.mh, t.ml)
  let r := rescaleBase t.r m
  if r = fNegInf then none
  else
    let f := rescaleFactor t.r r
    let p := xs.map (attProb r)
    let l := pairAdd (fMul t.lh f, fMul t.ll f) (attSum p)
    some ({ mh := m.1, ml := m.2, r := r, lh := l.1, ll := l.2 }, f, p)

/-- The update of one component of the output accumulator by its PV product (R281). -/
def attOut (o : Word × Word) (f pv : Word) : Word × Word := pairAdd (fMul o.1 f, fMul o.2 f) pv

/-- The buffers that the block of a ring step reads and writes: by parity (R282). -/
def attBuffers (step : Nat) : Nat × Nat := (step % 2, (step + 1) % 2)

/-- An output component before its rounding to the output format, and LSE (R283). -/
def attFinal (t : AttState) (o : Word × Word) : Word :=
  if t.r = fNegInf then fZero
  else
    let q := fop 0x15 t.lh 0 0
    fFma o.1 q (fMul o.2 q)
def attLse (t : AttState) : Word := if t.r = fNegInf then fNegInf else fAdd t.r (fop 0x14 t.lh 0 0)

end Sys2Proof.Machine
end

