-- ==== Sys2Proof/WellFormed.lean ====
section
/-! DEFINITION. Well-formed commands: the sizes that the wires and the tables allow their operands. -/

namespace Sys2Proof

/-- A sideband frame carries at most 16 payload bytes (R406). -/
def frameWf (f : Frame) : Bool := decide (f.payload.length ≤ 16)

/-- A message carries whole data units, at most 256 of them (R385); a reduction message four (R387). -/
def msgWf (m : GMsg) : Bool :=
  m.data.length % 16 == 0 && decide (m.data.length ≤ 4096) && (m.ty != 8 || m.data.length == 64)

/-- A flit is 256 bytes (R379) of four codewords (R381). -/
def flitWf (f : Flit) : Bool := f.bytes.length == 256 && f.words.length == 4

/-- A flash read returns at most 4 KiB (R425); a port has 4,352 pairs (R397). -/
def bootWf (b : BootIn) : Bool :=
  match b with
  | .data bytes => decide (bytes.length ≤ 4096)
  | .ports _ single => single.length == 8 && single.all fun n => decide (n.toNat ≤ 4352)
  | _ => true

/-- A control-space offset has 32 bits (R10). -/
def offWf (o : Nat) : Bool := decide (o < 2 ^ 32)

/-- A code that the table of R438 gives to no other instruction. -/
def bypassWf (c : BitVec 8) : Bool := !([0, 1, 2, 3, 4, 0x20] : List (BitVec 8)).contains c

/-- The check of a command's operands. -/
def Instr.wf (i : Instr) : Bool :=
  match i with
  | .addrClaim f | .capQuery f | .capReply f | .resetHold f | .resetRelease f | .bootStatus f | .beatAppoint f | .beatCommit f
  | .wake f | .timeSet f | .healthQuery f | .healthReply f | .pkgAssign f | .queue0Cfg f | .pkgConfig f
  | .sbUnknownFrame _ f => frameWf f
  | .remoteArrival m | .remoteSignal m | .reductionLineArrival _ m | .reductionTrailerArrival _ m | .downLineArrival m
  | .downTrailerArrival m | .cap _ m | .memForward _ m | .memAck m | .messageForward m => msgWf m
  | .flitReceipt _ f => flitWf f
  | .bootRomStep b => bootWf b
  | .registerWrite _ o _ => offWf o
  | .monitorPeek o n => offWf o && decide (n ≤ 64)
  | .monitorPoke o _ => offWf o
  | .monitorUnlockSignature sig => sig.length == 96
  | .bypass x => bypassWf x.code
  | .selftestDone _ (.pairs n _) => decide (n.toNat ≤ 4352)
  | _ => true

end Sys2Proof
end

