-- ==== Sys2Proof/Tests/Slice0.lean ====
section
/-! SUPPORT. Tests of the model against worked examples of the spec, and one witness for each statement that has hypotheses. -/

namespace Sys2Proof.Tests

set_option maxRecDepth 20000
set_option exponentiation.threshold 1024
set_option linter.unusedVariables false

open Sys2Proof Sys2Proof.Machine

/-! ## One ill-formed command for each check -/

theorem test_wf_frame : Instr.wf (.timeSet { dst := 0, src := 8, payload := List.replicate 17 0 }) = false := by decide
theorem test_wf_message_unit : Instr.wf (.memAck { vch := 2, ty := 3, dst := 0, aux := 0, data := [0] }) = false := by decide
theorem test_wf_message_long : Instr.wf (.memForward 0 { vch := 2, ty := 1, dst := 0, aux := 0, data := List.replicate 4112 0 }) = false := by
  decide
theorem test_wf_message_reduction :
    Instr.wf (.reductionLineArrival 0 { vch := 3, ty := 8, dst := 0, aux := 0, data := List.replicate 16 0 }) = false := by decide
theorem test_wf_flit : Instr.wf (.flitReceipt 0 { bytes := [], words := [] }) = false := by decide
theorem test_wf_ports : Instr.wf (.bootRomStep (.ports 1 [4353])) = false := by decide
theorem test_wf_boot : Instr.wf (.bootRomStep (.data (List.replicate 4097 0))) = false := by decide
theorem test_wf_offset : Instr.wf (.registerWrite ⟨.host, .word⟩ (2 ^ 32) 0) = false := by decide
theorem test_wf_peek : Instr.wf (.monitorPeek 0 65) = false := by decide
theorem test_wf_poke : Instr.wf (.monitorPoke (2 ^ 32) 0) = false := by decide
theorem test_wf_signature : Instr.wf (.monitorUnlockSignature [0]) = false := by decide
theorem test_wf_good : Instr.wf (.timeSet { dst := 0, src := 8, payload := List.replicate 8 0 }) = true := by decide

/-! ## States for the witnesses -/

/-- The reset state with fields set. -/
def st (l : List (Fld × Nat)) : State := l.foldl (fun s p => s.setFld p.1 p.2) State.reset

/-- In a tile state, with one memory stack of 2^36 bytes. -/
def at_ (n : Nat) (l : List (Fld × Nat)) : State := st ((Reg.TILE_STATE_STATE, n) :: (Reg.MEM_CFG_NSTACK, 1) :: l)

/-- Holding sideband address 0x10. -/
def heard (n : Nat) (l : List (Fld × Nat)) : State := at_ n ((Reg.SB_ADDR_STATE, 2) :: (Reg.SB_ADDR_ADDR, 0x10) :: l)

/-- A frame from 0x08 to the tile. -/
def fr (p : List Byte) : Frame := { dst := 0x10, src := 0x08, payload := p }

def txFrame : TxFrame := { prio := 3, ty := 2, dst := 9, payload := [] }

/-- The sideband's state changed. -/
def withSb (s : State) (sb : Sb) : State := { s with sb := sb }

/-- As the package's primary. -/
def asPrimary (s : State) : State := { s with dev := { s.dev with primarySel := true } }

def withPwr (s : State) (p : Pwr) : State := { s with pwr := p }

/-- A slot in a state, with this word to execute, these registers and this block. -/
def slotOf (s : State) (site n v w : Nat) (xs : Store DWord) (b : Blk) : State :=
  (s.setSlotState site n v).modSlot site n fun x => { x with buf := leBytes 4 w, x := xs, blk := b }

/-- A running tile whose slot runs a word. -/
def at1 (site n w : Nat) (xs : Store DWord) : State := slotOf (at_ 6 []) site n 2 w xs { id := 1 }

/-- An R-type word. -/
def rt (op f3 rd rs1 rs2 f7 : Nat) : Nat := op + rd * 2 ^ 7 + f3 * 2 ^ 12 + rs1 * 2 ^ 15 + rs2 * 2 ^ 20 + f7 * 2 ^ 25

/-- A running tile with a beat started. -/
def inBeat1 (l : List (Fld × Nat)) : State := { at_ 6 l with beat := { started := true } }

/-- Bytes of a slice set. -/
def poke (s : State) (site a : Nat) (bs : List Byte) : State := s.modCl site fun c => { c with slice := memWrite c.slice a bs }

/-- In boot step 1, with a fuse digest that is off by a word. -/
def fused (k : Word) : State :=
  { at_ 2 [(Reg.BOOT_STATUS_STEP, 1)] with dev := { State.reset.dev with
      fuseCrc := crc32 (Config.fuseArray State.reset.dev.fuses (some State.reset.dev.idKey.toNat)) + k } }

/-- A running tile whose link schedule sends direction 1, slot 0 of site 1 into landing slot 0 of the neighbour. -/
def schedLand : State := poke (inBeat1 [(⟨Reg.BEAT_COUNT, 0, 32⟩, 9)]) 1 1024 [1]

/-- A 64 B descriptor stored in a slice. -/
def desc (s : State) (site a d : Nat) : State := poke s site a (leBytes 64 d)

/-- An arm record of four 128 B transfers from 0x1000 to 0x2000, and an arm of it. -/
def armR : Nat := 2 ^ 8 + 128 * 2 ^ 16 + 0x1000 * 2 ^ 64 + 4 * 2 ^ 160 + 0x2000 * 2 ^ 208
def armOf : Arm := { desc := armR, home := 64, slot := 2, blk := 1, limit := 4 }
def xferOf : Xfer := { desc := armR, slot := 2, blk := 1, idx := 0, epoch := 0 }

/-- A running tile with fields set, whose slot runs a word. -/
def at1f (site n w : Nat) (xs : Store DWord) (l : List (Fld × Nat)) : State := slotOf (at_ 6 l) site n 2 w xs { id := 1 }

/-- An operation of slot 2, block 1. -/
def opOf (k : OpKind) (f7 arg : Nat) : Op := { id := 1, kind := k, slot := 2, blk := 1, f7 := f7, desc := 64, arg := arg }

def vop : Op := { id := 1, kind := .vred, slot := 2, blk := 1, f7 := 0, desc := 64, vl := 4 }
def vopBad : Op := { vop with desc := 65 }

/-- A reduction message of a kind to a bucket's line, of zeros. -/
def redMsg (kind line : Nat) : GMsg :=
  { vch := 3, ty := 8, dst := 0, aux := BitVec.ofNat 64 (kind * 2 ^ 17 + 2 * 2 ^ 19 + line * 2 ^ 31), data := List.replicate 64 0 }

/-- A running tile with group 3 in use: inputs and output of its node. -/
def red (mask out root : Nat) (l : List (Fld × Nat)) : State :=
  at_ 6 ([(Reg.REDUCE_CTL_EN, 1), (Reg.REDUCE_GRP0_EN 3, 1), (Reg.REDUCE_GRP0_IN_MASK 3, mask), (Reg.REDUCE_GRP0_OUT 3, out),
    (Reg.REDUCE_GRP0_ROOT 3, root), (Reg.REDUCE_GRP2_NBUCKET 3, 4), (⟨Reg.REDUCE_GRP45 3, 0, 32⟩, 0x1000)] ++ l)

/-- Bytes of package memory set. -/
def pput (s : State) (a : Nat) (bs : List Byte) : State := { s with pkgMem := memWrite s.pkgMem a bs }

/-- A legal reduction descriptor of 16 FP32 elements from 0x4000 to 0x5000, watching tile object 7 for one arrival. -/
def redD : Nat := 0x4000 + 0x5000 * 2 ^ 64 + 16 * 2 ^ 128 + 7 * 2 ^ 176 + 2 ^ 190 + 2 ^ 192

/-- One error that waits for its test. -/
def errOf (site : Option Nat) : PErr :=
  { cls := 1, site := site, unit := .unit 1 0, source := 0, slot := 2, blk := 1, beat := 0, step := 0, attempt := 0, level := 1, ready := true }

def withErr (s : State) (e : PErr) : State := { s with tile := { s.tile with errs := [e] } }

/-- A LAND message to slot 2 of site 1. -/
def landMsg : GMsg := { vch := 0, ty := 5, dst := 0x1A#32, aux := BitVec.ofNat 64 (2 + 2 ^ 32), data := [1, 2, 3] }

/-- A command of queue 1 in flight. -/
def fl (op p : Nat) : Flight := { queue := 1, seq := 0, opcode := op, tag := 5, jobId := 0, halt := false, head := 0, param := p }
def flOn (op p : Nat) : Flight := { fl op p with phase := .running }

/-- A tile with queue 1 enabled and one command in flight. -/
def cmd (n : Nat) (l : List (Fld × Nat)) (f : Flight) : State :=
  { at_ n ([(Reg.QUEUE_STATE_STATE 1, 2), (Reg.QUEUE_CTL_EN 1, 1), (Reg.QUEUE_CTL_LIMIT 1, 8), (Reg.QUEUE_CTL_LOG2_SQ 1, 6), (Reg.QUEUE_CTL_LOG2_CQ 1, 6),
      (Reg.SQ_BASE_LO_ADDR 1, 4), (Reg.CQ_BASE_LO_ADDR 1, 8), (Reg.QUEUE_STATE_OUTST 1, 1)] ++ l) with flights := [f] }
def i1 : FlightId := ⟨1, 0⟩

/-- A flit of these first bytes with its CRC. -/
def flit (h : List Byte) : Flit :=
  let b := h ++ List.replicate (252 - h.length) 0
  { bytes := b ++ leBytes 4 (crc32 b).toNat, words := List.replicate 4 (some 0) }

/-- An edge that is up on 32 lanes, or training at a step. -/
def edgeUp1 (l : List (Fld × Nat)) : State :=
  at_ 6 ([(Reg.LINK_STATUS_STATE 1, 2), (Reg.LINK_STATUS_LANES 1, 32), (⟨Reg.LINK_LANEMAP 1, 0, 32⟩, 0xFFFFFFFF)] ++ l)
def trainAt (k : Nat) (l : List (Fld × Nat)) : State :=
  (at_ 6 ((Reg.LINK_STATUS_STATE 1, 1) :: l)).modEdge 1 fun x => { x with train := { x.train with step := k } }

def msg (ty dst aux : Nat) (data : List Byte) : GMsg :=
  { vch := 0, ty := Fin.ofNat 16 ty, dst := BitVec.ofNat 32 dst, aux := BitVec.ofNat 64 aux, data := data }

/-- A legal descriptor of a partner tile. -/
def peerD : Nat := 2 ^ 20 + 32 * 2 ^ 32 + 16 * 2 ^ 40

/-- The tile with the serial monitor, and debug access open. -/
def open_ (n : Nat) (l : List (Fld × Nat)) : State := at_ n ((Reg.DBG_STATE_UNLOCKED, 1) :: l)
def locked (n : Nat) (l : List (Fld × Nat)) : State := at_ n ((Reg.DBG_STATE_UNLOCKED, 0) :: l)

/-- The state that a command answers. -/
def nx (c : Instr) (s : State) : State :=
  match exec c s with
  | .next t => t
  | _ => s

/-- A control message of a kind about a barrier, from a tile's agent. -/
def cmsg (sub bar gen val tile : Nat) : GMsg :=
  { vch := 0, ty := 7, dst := 0x2000001#32, aux := BitVec.ofNat 64 (sub + bar * 2 ^ 8 + gen * 2 ^ 16 + val * 2 ^ 32), data := leBytes 4 (0x2000001 + tile * 1024) }

/-! ## The spec's worked examples -/

/-- Encoding three Barza opcodes (02, after R65): BZ.VRUN on VE0, BZ.SARM of context 17, BZ.ENDB to the entry in x12. -/
theorem test_opcode_words : opcodeIs 0x0AB5102B 0x2B 1 ∧ wF7 0x0AB5102B = 5 ∧ wRs1 0x0AB5102B = 10 ∧ wRs2 0x0AB5102B = 11
    ∧ opcodeIs 0x220302DB 0x5B 0 ∧ wF7 0x220302DB = 17 ∧ wRd 0x220302DB = 5 ∧ wRs1 0x220302DB = 6
    ∧ opcodeIs 0x0206307B 0x7B 3 ∧ wF7 0x0206307B = 1 ∧ wRs1 0x0206307B = 12 := by decide

/-- FP32 codes of 300.0, −1.3, 0.003 and 0.0009 into MXFP8 E4M3 (03): scale 0x7F, FLUSH 1, SAT 0. -/
theorem test_mxfp8 : (let b := mxBlock 3 ([0x43960000, 0xBFA66666, 0x3B449BA6, 0x3A6BEDFA].map fun c => some (fp32.decode c)) {}
    (b.1, b.2.1, b.2.2.sat, b.2.2.flush)) = (0x7F, [0x79, 0xBA, 0x02, 0x00], 0, 1) := by decide +kernel

/-- 7.5, −1.1 and 0.3 into MXFP4 (03): the scale rises to 0x80. -/
theorem test_mxfp4 : (let b := mxBlock 7 ([0x40F00000, 0xBF8CCCCD, 0x3E99999A].map fun c => some (fp32.decode c)) {}
    (b.1, b.2.1, b.2.2.sat, b.2.2.flush)) = (0x80, [6, 9, 0], 0, 1) := by decide +kernel

/-- A NaN beside 3.0 (03): MXFP6 E2M3 takes scale 0xFF and zeros; E4M3 takes scale 0x78 with 0x7F and 0x7C. -/
theorem test_nan_block : (mxBlock 6 [some (.nan false), some (.fin false 3 0)] {}).1 = 0xFF
    ∧ (mxBlock 6 [some (.nan false), some (.fin false 3 0)] {}).2.1 = [0, 0]
    ∧ (mxBlock 3 [some (.nan false), some (.fin false 3 0)] {}).1 = 0x78
    ∧ (mxBlock 3 [some (.nan false), some (.fin false 3 0)] {}).2.1 = [0x7F, 0x7C] := by decide +kernel

/-- 70,000 and 1.0e−6 into FP16, fast and strict (03). -/
theorem test_fp16 : toElem 1 false 0 (.fin false 70000 0) {} = (0x7BFF, { sat := 1 })
    ∧ toElem 1 true 0 (.fin false 70000 0) {} = (0x7C00, { ovf := true })
    ∧ toElem 1 false 0 (fp32.decode 0x358637BD) {} = (0, { flush := 1 })
    ∧ toElem 1 true 0 (fp32.decode 0x358637BD) {} = (0x0011, { underflow := true }) := by decide +kernel

/-- FX64 with e = −40 (03): 5 × 2^−5, −3 × 2^−42, 2^30, and the sum of the first two back in FP32. -/
theorem test_fx64 : (toFx64 (-40) (.fin false 5 (-5)) {}).1 = 0x0000002800000000
    ∧ (toFx64 (-40) (.fin true 3 (-42)) {}).1 = 0xFFFFFFFFFFFFFFFF ∧ toFx64 (-40) (.fin false 1 30) {} = (0x7FFFFFFFFFFFFFFF, { sat := 1 })
    ∧ (toElem 0 false 0 (decodeElem 0x0D 0x00000027FFFFFFFF 0 (-40)) {}).1 = 0x3E200000
    ∧ hexpOf (.fin false 5 (-5)) = 0x7C ∧ hexpOf (.fin true 3 (-42)) = 0x56 ∧ hexpOf (.fin false 1 30) = 0x9D := by decide +kernel

/-- INT8 readout of 1,000, 25 and 2,000 by the row scale 0x3DCC_CCCD, rounded once (03, R102). -/
theorem test_int8_once : ([1000, 25, 2000].map fun n => toInt 8 ((fp32.decode 0x3DCCCCCD).mul (.fin false n 0)) {})
    = [(100, {}), (3, {}), (127, { sat := 1 })] := by decide +kernel

/-- Choice of the exponent (08): GHINT 124, MARGIN_BASE 2 and 3,000 participants give −50; 0.1875 is then 3 × 2^46. In the repeat of
the step, E = −45 is kept; in the next one HEXP 131 and margin 4 give −41. -/
theorem test_exponent :
    (let s := at_ 6 [(Reg.REDUCE_GRP0_MARGIN_BASE 3, 2), (Reg.REDUCE_GRP1_PARTICIPANTS 3, 3000), (⟨Reg.TILE_STEP, 0, 32⟩, 812)]
     [s.chooseExp 3 (124 * 2 ^ 288), s.chooseExp 3 (131 * 2 ^ 288 + 467 * 2 ^ 320 + 4 * 2 ^ 329 + 2 ^ 335 + 812 * 2 ^ 336),
      s.chooseExp 3 (131 * 2 ^ 288 + 467 * 2 ^ 320 + 4 * 2 ^ 329 + 2 ^ 335 + 811 * 2 ^ 336)]) = [(-50, 2), (-45, 4), (-41, 4)]
    ∧ (toFx64 (-50) (.fin false 3 (-4)) {}).1 = 0x0000C00000000000 := by decide +kernel

/-- The residues of the worked adder fault (08). -/
theorem test_residue : residue [5, 2 ^ 64 - 1, 0, 0, 0, 0, 0, 0] = 4 ∧ residue [250, 2, 0, 0, 0, 0, 0, 0] = 252
    ∧ residue [255, 1, 0, 0, 0, 0, 0, 0] = 1 ∧ residue [255 + 2 ^ 40, 1, 0, 0, 0, 0, 0, 0] = 2 := by decide +kernel

/-- Matrix sites of region 2 with its spare in column 6 (01): REGION_MAP[2], and the number of site 21. -/
theorem test_region_map : (let d := { State.reset.dev with spareCol := [6, 6, 6, 6, 6, 6, 6, 6], spareGood := 0xFF }
    (d.regionMap 2, bits (d.clInfo 21) 8 6)) = (0x0037A88E, 13) := by decide +kernel

/-- `TIME_NOW` read as two halves while it advances (00): the high half is the one captured with the low half. -/
theorem test_time_halves :
    (let s := (at_ 6 []).wr64 Reg.TIME_NOW 0x00000001FFFFFFF8
     let r := s.ctlRead .host Reg.TIME_NOW
     (r.1, ((r.2.wr64 Reg.TIME_NOW 0x000000020000000C).ctlRead .host (Reg.TIME_NOW + 4)).1)) = (0xFFFFFFF8#32, 1#32) := by decide +kernel

/-- The vector example (05): FP32 [3, NaN, −1, 0, 5.5, −0, 2, 7, −4, 1] at 0x1000, an INT8 mask at 0x1100, indices at 0x1200. -/
def vecEx : State :=
  poke (poke (poke (at_ 6 []) 3 0x1000 (([0x40400000, 0x7FC00000, 0xBF800000, 0, 0x40B00000, 0x80000000, 0x40000000, 0x40E00000,
    0xC0800000, 0x3F800000] : List Nat).flatMap (leBytes 4))) 3 0x1100 [1, 0, 1, 0, 0, 1, 0, 1, 0, 0]) 3 0x1200
    (([9, 8, 7, 6, 5, 4, 3, 2, 1, 10] : List Nat).flatMap (leBytes 4))

/-- An operand word in the slice. -/
def inSl (fmt a : Nat) : Nat := 1 + fmt * 4 + a * 2 ^ 7
/-- An operation of ten elements. -/
def tenOp (k : OpKind) (f7 : Nat) : Op := { id := 1, kind := k, slot := 2, blk := 0, f7 := f7, desc := 64, vl := 10 }
/-- The words at 0x2000, and at 0x2100. -/
def outs (s : State) (n : Nat) : List Nat × Nat :=
  ((List.range n).map fun i => leNat (s.sliceGet 3 (0x2000 + 4 * i) 4), leNat (s.sliceGet 3 0x2100 4))

/-- An operation's acts on these bytes, up to its end. -/
def vecDone (k : OpKind) (f7 d : Nat) : State × VRun :=
  let r := State.vecGo 3 0 6 vecEx { op := tenOp k f7, dv := d }
  (r.1, r.2.1)

/-- BZ.VRED max and min ignore the NaN; over no element, max is −∞ with EMPTY and sum is +0 without it. -/
theorem test_vred :
    (let d := inSl 0 0x1000 + inSl 0 0x2000 * 2 ^ 192
     let e := d + inSl 9 0x1300 * 2 ^ 64
     let run (k d : Nat) := let r := vecDone .vred k d; ((outs r.1 1).1, r.2.stat.empty)
     [run 1 d, run 2 d, run 1 e, run 0 e])
    = [([0x40E00000], false), ([0xC0800000], false), ([0xFF800000], true), ([0], false)] := by decide +kernel

/-- BZ.VPERM with an index out of range: +0 there, and `VE_OOR` counts; the NaN is canonical. -/
theorem test_vperm :
    (let r := vecDone .vperm 0 (inSl 0 0x1000 + inSl 0x10 0x1200 * 2 ^ 64 + inSl 0 0x2000 * 2 ^ 192)
     ((outs r.1 10).1, r.1.fld (Reg.VE_OOR_COUNT 3 0), r.2.stat.nan))
    = ([0x3F800000, 0xC0800000, 0x40E00000, 0x40000000, 0x80000000, 0x40B00000, 0, 0xBF800000, 0x7FC00000, 0], 1, true) := by
  decide +kernel

/-- BZ.VCMPX compress: [3, −1, −0, 7], n = 4, and the rest of OUT0 keeps its values. -/
theorem test_vcmpx :
    (let r := vecDone .vcmpx 0 (inSl 0 0x1000 + inSl 9 0x1100 * 2 ^ 64 + inSl 0 0x2000 * 2 ^ 192 + inSl 0x10 0x2100 * 2 ^ 256)
     outs r.1 5) = ([0x40400000, 0xBF800000, 0x80000000, 0x40E00000, 0], 4) := by decide +kernel

/-- The diagonal sub-block of the drive-log encoder (09): its slot, class, visible keys, maximum, rescale base and factor, and LH. -/
theorem test_attention :
    (let keys := (List.range 64).map (1000000 + ·)
     let m := largerPair (largerPair (0x40A80000, 0) (0x40F80000, 0x35000000)) (0x40C00000, 0)
     (ringOk (1 + 128 * 2 ^ 5) 33152, ringOk (1 + 128 * 2 ^ 5) 33087, classify keys 1 1 true 1000032 1000047,
      (keys.filter (visiblePair true 1000037)).length, m)) = (true, false, .part, 38, (0x40F80000, 0x35000000))
    ∧ rescaleBase 0x40C00000 (0x40F80000, 0x35000000) = 0x41000000 ∧ rescaleFactor 0x40C00000 0x41000000 = 0x3E800000
    ∧ pairAdd (fMul 0x40600000 0x3E800000, fMul 0 0x3E800000) 0x3F8B8000 = (0x3FFB8000, 0) := by decide +kernel

/-- C's reply in the job example (11): REFUSED_STATE, reason 0x0225, SEQ 0x0012, TAG 0x00C3, PHASE 1. -/
theorem test_reply_word : bits (replyBits 0xC3 stRefusedState 0x0225 0x12 2 3 7 0 true) 0 64 = 0x00120225010100C3 := by decide

/-- The two entries of the recovery example (12): word 0, SOURCE 0.1.10.2 and BEAT. -/
theorem test_log_words :
    (let v := ({ cls := 1, action := 2, test := 1, source := (at_ 6 [(Reg.TILE_ID_TILE_NUM, 1)]).unitAddr 10 2 } : Entry).pack 900 318 0
     (bits v 0 32, bits v 32 32, bits v 64 32)) = (0x0A01, 0x04A2, 900)
    ∧ bits (({ cls := 5, action := 3, test := 1, source := 0 } : Entry).pack 903 318 0) 0 32 = 0x0B05 := by decide +kernel

/-- The end of the claim of 0x12 (15): `SB_ADDR` reads 0x0000_0212. -/
theorem test_sb_addr :
    (nx .sbClaimWindowEnd (withSb (at_ 1 [(Reg.SB_ADDR_STATE, 1), (Reg.SB_ADDR_ADDR, 0x12)]) { window := true })).rd Reg.SB_ADDR = 0x212#32 := by
  decide +kernel

/-- Tokens and numbers of a monitor line (16, R437). -/
theorem test_line : lineCommand "peek 0x30030 2".toList = some (.monitorPeek 0x30030 2) ∧ lineCommand "peek 0x3003g".toList = none
    ∧ lineCommand " sync  tile 12".toList = some (.monitorSync none 12) := by decide +kernel

/-- A discarded block's byte reads as before it, but for one that another writer has written since (09, R282). -/
theorem test_taken_back : (let m := takeBack [(5, 7), (6, 9)] [(5, 3, 7), (5, 0, 3), (6, 1, 8)]; (memGet m 5, memGet m 6)) = (0, 9) := by
  decide +kernel

/-! ## Witnesses: for each clause of a statement, a state and operands that meet its hypotheses -/

theorem wit_StepRunsFrontCommand :
    ∃ (s : State) (c : Instr) (rest : List Instr), s.pending = c :: rest :=
  ⟨{ State.reset with pending := [.idcode] }, .idcode, [], by decide⟩

theorem wit_IdleStepCountsTime :
    (∃ (s : State), s.pending = [] ∧ s.ts = tsOff) ∧
    (∃ (s : State), s.pending = [] ∧ s.ts ≠ tsOff ∧ s.clk.refclk = true) :=
  ⟨⟨(at_ 0 []), by decide⟩,
   ⟨State.reset, by decide⟩⟩

theorem wit_SuppliesAndClocks :
    ∃ (c : Instr) (s : State), ((∀ st, c ≠ .vddAonRise st)) :=
  ⟨(.trip 309 28), (at_ 6 []), by simp⟩

theorem wit_ReleaseAndResetHold :
    (∃ (s : State), s.ts = tsAon ∧ s.sb.released = false ∧ s.dev.aonClk = true ∧ ((s.dev.testMode = true ∨ (s.leads = true ∧ s.sbHeld = true
      ∧ s.fld Reg.SB_ADDR_ADDR = 0x08 ∧ s.sb.held = false)))) ∧
    (∃ (s : State), s.dev.aonClk = false) ∧
    (∃ (s : State) (f : Frame), s.dev.aonClk = false) ∧
    (∃ (s : State) (f : Frame), s.ts = tsAon ∧ s.hears f ∧ f.payload = [] ∧ ((f.src = 0x00 ∨ (f.src = 0x08 ∧ s.leads = false)))
      ∧ s.dev.aonClk = true) ∧
    (∃ (s : State) (f : Frame), s.hears f ∧ f.payload = [] ∧ resetSource f = true) :=
  ⟨⟨(asPrimary (heard 1 [(Reg.SB_ADDR_ADDR, 8)])), by decide⟩,
   ⟨{ heard 1 [] with dev := { State.reset.dev with aonClk := false } }, by decide⟩,
   ⟨{ heard 1 [] with dev := { State.reset.dev with aonClk := false } }, (fr []), by decide⟩,
   ⟨(heard 1 []), (fr []), by decide⟩,
   ⟨(heard 6 [(Reg.QUEUE_STATE_STATE 5, 2), (Reg.TILE_CTL_JOB_EN, 1)]), (fr []), by decide⟩⟩

theorem wit_BootRomSteps :
    (∃ (s : State) (b : BootIn), s.romRuns 1 ∧ s.dev.fuseOk = true ∧ ((∀ m, s.pwr.move = some m → m.starter = none))) ∧
    (∃ (s : State) (b : BootIn), s.romRuns 1 ∧ s.dev.fuseOk = false) ∧
    (∃ (s : State) (b : BootIn), s.romRuns 2 ∧ b ≠ .fail ∧ s.pwr.move = none) ∧
    (∃ (s : State), s.romRuns 2) ∧
    (∃ (s : State) (up : Byte) (single : List (BitVec 13)), s.romRuns 3 ∧ s.dev.testMode = false) ∧
    (∃ (s : State) (good : Byte) (single : List (BitVec 13)), s.romRuns 3 ∧ s.dev.testMode = true) ∧
    (∃ (s : State) (b : BootIn), s.romRuns 4 ∧ s.flag (Reg.LINK_CTL_EN s.dev.bootEdge.toNat) = true) ∧
    (∃ (s : State) (l : List Byte), s.romRuns 5 ∧ 256 ≤ l.length ∧ ((∀ m, s.flashReply = some m → bits m.aux.toNat 48 16 = 0))) ∧
    (∃ (s : State) (b : BootIn), s.romRuns 6 ∧ s.keyCheck s.boot.header = 0) ∧
    (∃ (s : State) (b : BootIn), s.romRuns 6 ∧ s.keyCheck s.boot.header ≠ 0) ∧
    (∃ (s : State) (l : List Byte) (m : GMsg), (s.romRuns 5 ∨ s.romRuns 7) ∧ s.flashReply = some m ∧ bits m.aux.toNat 48 16 ≠ 0) ∧
    (∃ (s : State) (l : List Byte), s.romRuns 7 ∧ ((∀ m, s.flashReply = some m → bits m.aux.toNat 48 16 = 0))) ∧
    (∃ (s : State) (b : BootIn), s.romRuns 8
      ∧ ecdsaVerify (beNat ((s.boot.header.drop 64).take 96)) (imageDigest s.boot.header s.boot.body) (beNat ((s.boot.header.drop 160).take 96)) = false) ∧
    (∃ (s : State) (b : BootIn), s.romRuns 9) ∧
    (∃ (s : State), s.alive = true ∧ s.ts = tsBootRom ∧ s.boot.retry = true ∧ ((∀ m, s.pwr.move = some m → m.starter = none))) :=
  ⟨⟨(fused 0), .none, ⟨by decide, by decide, by decide, by decide, by decide⟩, by simp [fused, Dev.fuseOk, Dev.fuses], by intro m h; cases h⟩,
   ⟨(fused 1), .none, ⟨by decide, by decide, by decide, by decide, by decide⟩, by simp [fused, Dev.fuseOk, Dev.fuses]⟩,
   ⟨{ at_ 2 [(Reg.BOOT_STATUS_STEP, 2)] with boot := {  } }, .none, by decide⟩,
   ⟨{ at_ 2 [(Reg.BOOT_STATUS_STEP, 2)] with boot := {  } }, by decide⟩,
   ⟨{ at_ 2 [(Reg.BOOT_STATUS_STEP, 3)] with boot := {  } }, 5, [1, 2, 3, 4, 5, 6, 7, 8], by decide⟩,
   ⟨{ at_ 2 [(Reg.BOOT_STATUS_STEP, 3)] with dev := { State.reset.dev with testMode := true } }, 0xF7, [1, 2, 3, 4, 5, 6, 7, 8], by decide⟩,
   ⟨{ at_ 2 [(Reg.BOOT_STATUS_STEP, 4), (Reg.LINK_CTL_EN 0, 1)] with boot := {  } }, .none, by decide⟩,
   ⟨{ at_ 2 [(Reg.BOOT_STATUS_STEP, 5)] with boot := {  } }, (leBytes 4 0x31465A42 ++ leBytes 12 0 ++ leBytes 4 64 ++ leBytes 236 0 ++ [1]),
     by decide⟩,
   ⟨{ at_ 2 [(Reg.BOOT_STATUS_STEP, 6)] with dev := { State.reset.dev with keyHash0 := 0x38b060a751ac96384cd9327eb1b1e36a21fdb71114be07434c0cc7bf63f6e1da274edebfe76f65fbd51ad2f14898b95b#384 } },
     .none, by decide⟩,
   ⟨{ at_ 2 [(Reg.BOOT_STATUS_STEP, 6)] with boot := {  } }, .none, by decide⟩,
   ⟨{ at_ 2 [(Reg.BOOT_STATUS_STEP, 7)] with inbox := [(msg 3 0x2000000 (2 ^ 60) [])] }, [1, 2], (msg 3 0x2000000 (2 ^ 60) []), by decide⟩,
   ⟨{ at_ 2 [(Reg.BOOT_STATUS_STEP, 7)] with boot := { header := leBytes 16 0 ++ leBytes 4 64, body := [1, 2] } }, [3], by decide⟩,
   ⟨{ at_ 2 [(Reg.BOOT_STATUS_STEP, 8)] with boot := {  } }, .none, by decide⟩,
   ⟨{ at_ 2 [(Reg.BOOT_STATUS_STEP, 9)] with boot := { header := leBytes 20 0 ++ leBytes 4 0x200 } }, .none, by decide⟩,
   ⟨{ at_ 2 [(Reg.BOOT_STATUS_STEP, 3)] with boot := { retry := true } }, by decide⟩⟩

theorem wit_PrimaryReleasesTiles :
    (∃ (s : State) (f : Frame) (left marked : List Nat), s.hears f ∧ f.payload.length = 16 ∧ s.fw = true
      ∧ s.sb.phase = .asking f.src.toNat left marked) ∧
    (∃ (s : State) (f : Frame) (left : List Nat), s.hears f ∧ f.payload.length = 8 ∧ s.fw = true ∧ s.sb.phase = .health f.src.toNat left
      ∧ f.payload.getD 0 0 = 1 ∧ s.sb.txq.length ≤ 1 ∧ f.src ≠ 0 ∧ rstRoom s f.src.toNat) ∧
    (∃ (s : State) (f : Frame) (left : List Nat), s.hears f ∧ f.payload.length = 8 ∧ s.fw = true ∧ s.sb.phase = .health f.src.toNat left
      ∧ f.payload.getD 0 0 ≠ 1 ∧ f.src ≠ 0 ∧ rstRoom s f.src.toNat) ∧
    (∃ (s : State) (f : Frame) (left : List Nat), s.hears f ∧ f.payload.length = 1 ∧ s.fw = true ∧ s.leads = true
      ∧ s.sb.phase = .waiting f.src.toNat left ∧ f.src ≠ 0 ∧ rstRoom s f.src.toNat) ∧
    (∃ (s : State) (a : Nat) (left : List Nat), s.fw = true ∧ s.sb.phase = .waiting a left ∧ a ≠ 0 ∧ a < 256 ∧ rstRoom s a) ∧
    (∃ (s : State) (a : Nat) (left : List Nat), s.fw = true ∧ s.sb.phase = .health a left) ∧
    (∃ (s : State) (a : Nat) (left marked : List Nat), s.fw = true ∧ s.sb.phase = .asking a left marked) :=
  ⟨⟨(withSb (heard 4 []) { phase := .asking 8 [0x12] [0x11] }), (fr ([0x5A#8, 0x1B#8, 0#8, 0x60#8, 1#8] ++ List.replicate 11 0#8)), [0x12], [0x11],
     by decide⟩,
   ⟨(withSb (heard 4 []) { phase := .health 8 [0x12] }), (fr (List.replicate 8 1#8)), [0x12], by decide⟩,
   ⟨(withSb (heard 4 []) { phase := .health 8 [0x12] }), (fr (List.replicate 8 4#8)), [0x12], by decide⟩,
   ⟨(withSb (asPrimary (heard 4 [])) { phase := .waiting 8 [] }), (fr [4#8]), [], by decide⟩,
   ⟨(withSb (heard 4 []) { phase := .waiting 9 [7] }), 9, [7], by decide⟩,
   ⟨(withSb (heard 4 []) { phase := .health 9 [7] }), 9, [7], by decide⟩,
   ⟨(withSb (heard 4 []) { phase := .asking 9 [] [8] }), 9, [], [8], by decide⟩⟩

theorem wit_ClaimsAndFrames :
    (∃ (s : State) (f : Frame), s.hears f ∧ f.payload.length = 8) ∧
    (∃ (s : State) (f : Frame), s.hears f ∧ f.payload.length = 8 ∧ f.src.toNat = s.fld Reg.SB_ADDR_ADDR ∧ leNat f.payload ≠ s.rd64 Reg.SB_UID
      ∧ s.sbHeld = true ∧ s.sb.txq.length ≤ 2) ∧
    (∃ (s : State) (f : Frame), s.hears f ∧ f.payload.length = 8 ∧ f.src.toNat = s.fld Reg.SB_ADDR_ADDR ∧ leNat f.payload ≠ s.rd64 Reg.SB_UID
      ∧ s.sbHeld = false ∧ s.sb.window = true) ∧
    (∃ (s : State), s.sbOn = true ∧ s.sb.window = true) ∧
    (∃ (s : State), (s.sbOn = false ∨ s.sb.window = false)) ∧
    (∃ (s : State) (f : TxFrame), s.sends f) ∧
    (∃ (s : State) (f : TxFrame) (o : SendEnd), s.sends f ∧ (o = .noAck ∨ o = .busFault) ∧ f.retries < 8) ∧
    (∃ (s : State) (f : TxFrame) (o : SendEnd), s.sends f ∧ (o = .noAck ∨ o = .busFault) ∧ 8 ≤ f.retries) ∧
    (∃ (s : State) (f : TxFrame) (same : Bool), s.sends f) ∧
    (∃ (s : State) (c : Nat) (l : List Nat), s.sbOn = true ∧ s.fld Reg.SB_ADDR_STATE = 0 ∧ s.sb.cands = c :: l ∧ s.sb.txq = []) ∧
    (∃ (s : State) (o : SendEnd), (s.sbOn = false ∨ (s.sb.txq = [] ∧ (s.fld Reg.SB_ADDR_STATE ≠ 0 ∨ s.sb.cands = []) ∧ s.claimAgain = s))) ∧
    (∃ (s : State) (w : SbFault), s.sbOn = true) ∧
    (∃ (s : State) (ty : Byte) (f : Frame), s.hears f) ∧
    (∃ (s : State) (ty : Byte) (f : Frame), s.sbOn = true ∧ f.dst ≠ 0xFF ∧ ((s.sbHeld = false ∨ f.dst.toNat ≠ s.fld Reg.SB_ADDR_ADDR))) ∧
    (∃ (s : State) (ty : Byte) (f : Frame), s.sbOn = false) :=
  ⟨⟨(heard 4 []), (fr (List.replicate 8 1#8)), by decide⟩,
   ⟨(heard 4 []), { fr (List.replicate 8 1#8) with src := 0x10 }, by decide⟩,
   ⟨(withSb (heard 4 [(Reg.SB_ADDR_STATE, 1)]) { window := true, cands := [0x18] }), { fr (List.replicate 8 1#8) with src := 0x10, dst := 0xFF },
     by decide⟩,
   ⟨(withSb (heard 1 []) { window := true, txq := [txFrame] }), by decide⟩,
   ⟨(heard 1 []), by decide⟩,
   ⟨(withSb (heard 1 []) { txq := [txFrame] }), txFrame, by decide⟩,
   ⟨(withSb (heard 1 []) { txq := [txFrame] }), txFrame, .busFault, by decide⟩,
   ⟨(withSb (heard 1 []) { txq := [{ txFrame with claim := true, retries := 8 }], cands := [0x11] }), { txFrame with claim := true, retries := 8 },
     .noAck, by decide⟩,
   ⟨(withSb (heard 1 []) { txq := [{ txFrame with claim := true, retries := 0 }], cands := [0x11] }), { txFrame with claim := true, retries := 0 },
     true, by decide⟩,
   ⟨(withSb (heard 1 [(Reg.SB_ADDR_STATE, 0)]) { cands := [0x11, 0x12] }), 0x11, [0x12], by decide⟩,
   ⟨(heard 1 []), .acked, by decide⟩,
   ⟨(heard 1 []), .crc, by decide⟩,
   ⟨(heard 1 []), 0x77, (fr []), by decide⟩,
   ⟨(heard 1 []), 0x77, { fr [] with dst := 0x33 }, by decide⟩,
   ⟨(at_ 0 []), 0x77, (fr []), by decide⟩⟩

theorem wit_SidebandRepliesAndAppointment :
    (∃ (s : State) (f : Frame), s.hears f ∧ f.payload = [] ∧ s.sb.txq.length ≤ 1) ∧
    (∃ (s : State) (f : Frame), s.hears f ∧ f.payload = [] ∧ s.sb.txq.length ≤ 1) ∧
    (∃ (s : State) (f : Frame), s.hears f ∧ f.payload.length = 4 ∧ s.outsideRun = true ∧ s.sb.txq.length ≤ 1) ∧
    (∃ (s : State) (f : Frame), s.hears f ∧ f.payload.length = 4 ∧ s.outsideRun = false ∧ s.sb.txq.length ≤ 1) ∧
    (∃ (s : State) (f : Frame), s.hears f ∧ f.payload.length = 4 ∧ ((s.sb.appoint ≠ some (BitVec.ofNat 32 (leNat f.payload)) ∨ s.outsideRun = false))
      ∧ s.sb.txq.length ≤ 1) ∧
    (∃ (s : State) (f : Frame), s.hears f ∧ f.payload.length = 4 ∧ s.sb.appoint = some (BitVec.ofNat 32 (leNat f.payload)) ∧ s.outsideRun = true) :=
  ⟨⟨(heard 4 []), (fr []), by decide⟩,
   ⟨(heard 4 []), (fr []), by decide⟩,
   ⟨(heard 4 []), (fr [1, 4, 0, 2]), by decide⟩,
   ⟨(heard 6 []), (fr [1, 4, 0, 2]), by decide⟩,
   ⟨(withSb (heard 4 []) { appoint := some 0x02000001#32 }), (fr [1, 4, 0, 2]), by decide⟩,
   ⟨(withSb (heard 4 []) { appoint := some 0x02000001#32 }), (fr [1, 0, 0, 2]), by decide⟩⟩

theorem wit_WakeAndComparators :
    (∃ (s : State) (f : Frame), s.hears f ∧ f.payload = [] ∧ s.flag (Reg.AON_CMP_EN 3) = true) ∧
    (∃ (s : State) (n : Fin 4) (r : BitVec 10), s.ts ≠ tsOff ∧ ((n = 1 ∨ s.flag (Reg.AON_CMP_COND n) = false)) ∧ s.flag (Reg.AON_CMP_EN n) = true
      ∧ ((n = 1 ∧ r.toNat < s.rd64 (Reg.AON_CMP_VAL 1) % 2 ^ 10 ∨ n = 2 ∧ s.rd64 (Reg.AON_CMP_VAL 2) ≤ s.rd64 Reg.TIME_NOW ∨ n = 0
      ∧ s.rd64 (Reg.AON_CMP_VAL 0) % 2 ^ 8 ≤ r.toNat % 2 ^ 8))) :=
  ⟨⟨(heard 4 [(Reg.AON_CMP_EN 3, 1)]), (fr []), by decide⟩,
   ⟨(at_ 4 [(Reg.AON_CMP_EN 0, 1), (⟨Reg.AON_CMP_VAL 0, 0, 32⟩, 50)]), 0, 50, by decide⟩⟩

theorem wit_PackageFramesSetTimeAndValues :
    (∃ (s : State) (f : Frame), s.hears f ∧ f.payload.length = 8 ∧ ((s.ts = tsBootRom ∨ s.ts = tsMonitor ∨ s.ts = tsFwReady))) ∧
    (∃ (s : State) (f : Frame), s.hears f ∧ f.payload.length = 8 ∧ s.ts ≠ tsBootRom ∧ s.ts ≠ tsMonitor ∧ s.ts ≠ tsFwReady) ∧
    (∃ (s : State) (f : Frame), s.hears f ∧ f.payload.length = 2) ∧
    (∃ (s : State) (f : Frame), s.hears f ∧ f.payload.length = 15) ∧
    (∃ (s : State) (f : Frame), s.hears f ∧ f.payload.length = 8 ∧ s.configOk f.payload = true) :=
  ⟨⟨(heard 4 []), (fr [1, 2, 3, 4, 5, 6, 7, 8]), by decide⟩,
   ⟨(heard 6 [(⟨Reg.TIME_NOW, 0, 32⟩, 77)]), (fr [1, 2, 3, 4, 5, 6, 7, 8]), by decide⟩,
   ⟨(heard 4 []), (fr [0x34, 0x12]), by decide⟩,
   ⟨(heard 4 []), (fr [1, 2, 3, 4, 5, 6, 7, 8, 9, 10, 11, 12, 13, 14, 15]), by decide⟩,
   ⟨(heard 4 []), (fr [0, 4, 34, 0, 1, 8, 0, 0]), by decide⟩⟩

theorem wit_TripsResetTheTile :
    (∃ (s : State) (r : Region) (temp : Byte), s.ts ≠ tsOff ∧ 115 ≤ temp.toNat) ∧
    (∃ (s : State) (w : Word) (crc : Byte), s.ts ≠ tsOff ∧ regTakes (crc ++ w) 5 = true) :=
  ⟨⟨(at_ 6 []), 3, 120, by decide⟩,
   ⟨(at_ 6 []), 309, 28, by decide⟩⟩

theorem wit_PowerIsLimited :
    (∃ (s : State) (q : Requester) (v : Word), s.takesWrite q Reg.PWR_OP v.toNat ∧ s.pwr.move = none) ∧
    (∃ (s : State) (w : Word) (crc : Byte) (m : Move) (v : Nat), s.powered = true ∧ s.mon.input = [] ∧ regTakes (crc ++ w) 2 = true
      ∧ s.pwr.move = some m ∧ m.rails = [(regRail (crc ++ w), v)]) ∧
    (∃ (s : State) (w : Word) (crc : Byte) (m : Move) (v : Nat) (r : Nat × Nat) (l : List (Nat × Nat)), s.powered = true ∧ s.mon.input = []
      ∧ regTakes (crc ++ w) 2 = true ∧ s.pwr.move = some m ∧ m.rails = (regRail (crc ++ w), v) :: r :: l) ∧
    (∃ (s : State) (m : Move) (cur : Nat), s.powered = true ∧ s.mon.input = [] ∧ s.ts ≠ tsBootRom ∧ s.pwr.move = some m ∧ m.back = false
      ∧ cur = s.fld Reg.PWR_OP_CUR) ∧
    (∃ (s : State) (m : Move), s.powered = true ∧ s.mon.input = [] ∧ s.ts ≠ tsBootRom ∧ s.pwr.move = some m ∧ m.back = true) ∧
    (∃ (s : State) (m : Move), s.alive = true ∧ s.mon.input = [] ∧ s.ts = tsBootRom ∧ s.bootStep = 2 ∧ s.boot.retry = false ∧ s.pwr.move = some m) ∧
    (∃ (s : State) (head : Byte) (payload : BitVec 24) (crc : Byte) (r : Nat), s.alive = true ∧ regTakes (crc ++ (payload ++ head)) 3 = true
      ∧ r = bits head.toNat 4 3 ∧ r < 6) ∧
    (∃ (s : State) (temp : Byte) (r : Region), s.fw = true ∧ ((∀ k, k < 6 → (s.rail k).fresh = true))) ∧
    (∃ (s : State) (e : Edge) (n : Fin 16), s.awake = true ∧ (s.fld Reg.LINK_BEAT_DOWN).testBit e = true) ∧
    (∃ (s : State) (e : Edge) (n : Fin 16), s.awake = true ∧ (s.fld Reg.LINK_BEAT_DOWN).testBit e = false) ∧
    (∃ (s : State) (d : DroopRead), s.awake = true ∧ ((s.droops 0 d.arr.toNat = true ∨ s.droops 1 d.log.toNat = true))) ∧
    (∃ (s : State) (d : DroopRead), s.awake = true ∧ s.droops 0 d.arr.toNat = false ∧ s.droops 1 d.log.toNat = false) ∧
    (∃ (s : State), s.awake = true) ∧
    (∃ (s : State) (w : Word) (crc : Byte), regTakes (crc ++ w) 2 = false) ∧
    (∃ (s : State) (head : Byte) (payload : BitVec 24) (crc : Byte), regTakes (crc ++ (payload ++ head)) 3 = false) ∧
    (∃ (s : State) (w : Word) (crc : Byte), regTakes (crc ++ w) 5 = false) :=
  ⟨⟨(at_ 4 []), (.core 0), 3, by decide⟩,
   ⟨(withPwr (at_ 4 []) { move := some { target := 3, former := 0, rails := [(0, 700)], back := false } }), 179202, 176,
     { target := 3, former := 0, rails := [(0, 700)], back := false }, 700, by decide⟩,
   ⟨(withPwr (at_ 4 []) { move := some { target := 3, former := 0, rails := [(1, 5), (0, 700)], back := false } }), 1298, 99,
     { target := 3, former := 0, rails := [(1, 5), (0, 700)], back := false }, 5, (0, 700), [], by decide⟩,
   ⟨(withPwr (at_ 4 []) { move := some { target := 3, former := 0, rails := [(1, 5)], back := false } }),
     { target := 3, former := 0, rails := [(1, 5)], back := false }, 0, by decide⟩,
   ⟨(withPwr (at_ 4 []) { move := some { target := 3, former := 0, rails := [(1, 5)], back := true } }),
     { target := 3, former := 0, rails := [(1, 5)], back := true }, by decide⟩,
   ⟨{ withPwr (at_ 2 [(Reg.BOOT_STATUS_STEP, 2)]) { move := some { target := 3, former := 0, rails := [(1, 5)], back := false } } with boot := {} },
     { target := 3, former := 0, rails := [(1, 5)], back := false }, by decide⟩,
   ⟨(at_ 4 []), 51, 369440, 44, 3, by decide⟩,
   ⟨(withPwr (at_ 4 []) { rails := [0, 1, 2, 3, 4, 5].map fun k => (k, { mv := 800, current := 2000, fresh := true }) }), 60, 2, by decide⟩,
   ⟨(at_ 4 [(Reg.LINK_BEAT_DOWN, 4)]), 2, 7, by decide⟩,
   ⟨(at_ 4 []), 2, 7, by decide⟩,
   ⟨(withPwr (at_ 4 [(Reg.DROOP_CFG_EN, 1)]) { volts := [(0, 900), (2, 900)] }), { region := 2, arr := 700, log := 900 }, by decide⟩,
   ⟨(at_ 4 [(Reg.DROOP_CFG_EN, 1)]), { region := 2, arr := 4000, log := 4000 }, by decide⟩,
   ⟨(withPwr (at_ 4 []) { droop := true }), by decide⟩,
   ⟨(at_ 4 []), 5, 0, by decide⟩,
   ⟨(at_ 4 []), 5, 0, 0, by decide⟩,
   ⟨(at_ 4 []), 7, 0, by decide⟩⟩

theorem wit_RegionsAndSleep :
    (∃ (s : State) (q : Requester) (v : Word), s.takesWrite q Reg.PWR_REGION v.toNat) ∧
    (∃ (s : State) (r : Region), s.alive = true ∧ r.val ∈ s.pwr.regionsUp) ∧
    (∃ (s : State) (q : Requester) (v : Word), s.takesWrite q Reg.PWR_SLEEP v.toNat ∧ v.getLsbD 0 = true ∧ s.sleep = 0) ∧
    (∃ (s : State), s.alive = true ∧ s.sleep = 1 ∧ s.flights = [] ∧ s.wakePending = none) ∧
    (∃ (s : State) (n : Nat), s.alive = true ∧ s.sleep = 1 ∧ s.flights = [] ∧ s.wakePending = some n) ∧
    (∃ (s : State) (e : Edge), s.powered = true ∧ s.sleep = 3 ∧ s.pwr.move = none ∧ s.pwr.restored = false ∧ e.val ∈ s.sleptEdges) ∧
    (∃ (s : State), s.powered = true ∧ s.sleep = 3 ∧ s.pwr.move = none ∧ s.sleptEdges = [] ∧ ((∀ e, e < 4 → s.fld (Reg.LINK_STATUS_STATE e) ≠ 1))
      ∧ ((s.pwr.restored = true → s.pwr.saved = []))) :=
  ⟨⟨(at_ 4 []), (.core 0), 5, by decide⟩,
   ⟨(withPwr (at_ 4 [(Reg.PWR_REGION_DOWN, 5)]) { regionsUp := [2, 0] }), 2, by decide⟩,
   ⟨(at_ 4 []), (.core 0), 1, by decide⟩,
   ⟨(at_ 4 [(Reg.PWR_SLEEP_STATE, 1)]), by decide⟩,
   ⟨(at_ 4 [(Reg.PWR_SLEEP_STATE, 1), (Reg.AON_CMP_WAKE 0, 1), (Reg.AON_CMP_FIRED 0, 1)]), 0, by decide⟩,
   ⟨(withPwr (at_ 4 [(Reg.PWR_SLEEP_STATE, 3)]) { saved := [(Reg.LINK_STATUS 1, 2)] }), 1, by decide⟩,
   ⟨(at_ 4 [(Reg.PWR_SLEEP_STATE, 3)]), by decide⟩⟩

theorem wit_MarksKeepTheBeat :
    (∃ (s : State), s.marked = true ∧ s.flag Reg.BEAT_CFG_MASTER = true ∧ s.beat.armed = none ∧ s.beat.lost = false) ∧
    (∃ (s : State) (num : BitVec 16) (st : Fin 16), s.fw = true ∧ s.flag Reg.BEAT_CFG_MASTER = false ∧ s.ts ≠ tsJobLoaded ∧ s.marked = true
      ∧ s.beat.lost = false ∧ num.toNat = (s.beatLow + 1) % 2 ^ 16) ∧
    (∃ (s : State) (num : BitVec 16) (st : Fin 16) (onTime : Bool), s.fw = true ∧ s.flag Reg.BEAT_CFG_MASTER = false ∧ s.ts ≠ tsJobLoaded
      ∧ s.marked = true ∧ s.beat.lost = false ∧ ((onTime = false ∨ num.toNat ≠ (s.beatLow + 1) % 2 ^ 16))) ∧
    (∃ (s : State), s.marked = true ∧ s.beat.started = true ∧ s.flag Reg.BEAT_CFG_MASTER = false ∧ s.beat.armed = none ∧ s.beat.lost = false) ∧
    (∃ (s : State), s.alive = true ∧ s.beat.lost = true ∧ tsRunning ≤ s.ts ∧ s.ts ≤ tsRecovering) ∧
    (∃ (s : State) (num st : Nat), s.beat.armed = some (num, st) ∧ s.marked = true ∧ s.beat.lost = false ∧ num < 2 ^ 16 ∧ st < 16
      ∧ s.tile.rep.named = none ∧ s.tile.buckets = [] ∧ s.rd64 Reg.BEAT_COUNT + 2 ^ 17 < 2 ^ 64) ∧
    (∃ (s : State) (num st : Nat) (site : Site) (n : SlotId), s.quietMark num st ∧ s.startsBlocks = true ∧ s.job.pauseAt = none
      ∧ s.waitsMark site n = true ∧ (s.slot site n).late = false ∧ (s.slot site n).entTrap = 0) ∧
    (∃ (s : State) (num st : Nat) (site : Site) (n : SlotId), s.quietMark num st ∧ s.ts = tsRunning ∧ s.live site = true
      ∧ s.uncommitted site n = true) :=
  ⟨⟨(inBeat1 [(Reg.BEAT_CFG_MASTER, 1)]), by decide⟩,
   ⟨(inBeat1 []), 1, 3, by decide⟩,
   ⟨(inBeat1 []), 5, 3, true, by decide⟩,
   ⟨(inBeat1 []), by decide⟩,
   ⟨{ at_ 6 [] with beat := { started := true, lost := true } }, by decide⟩,
   ⟨{ at_ 6 [] with beat := { started := true, armed := some (1, 2) } }, 1, 2, by decide⟩,
   ⟨{ (at_ 6 [(Reg.SLOT_CFG_EN 1 2, 1), (Reg.SLOT_CFG_ENTRIES 1 2, 1), (Reg.SLOT_STATUS_STATE 1 2, 1)]).modSlot 1 2 fun x => { x with copied := true, entId := 7 } with beat := { started := true, armed := some (1, 0) } },
     1, 0, 1, 2, by decide⟩,
   ⟨{ (slotOf (at_ 6 []) 1 2 2 0 [] { id := 1 }) with beat := { started := true, armed := some (1, 0) } }, 1, 0, 1, 2, by decide⟩⟩

theorem wit_BlocksStartAndCommit :
    (∃ (s : State) (site : Site) (n : SlotId), s.startsBlocks = true ∧ s.waitsMark site n = true ∧ (s.slot site n).late = true
      ∧ (s.slot site n).entTrap = 0) ∧
    (∃ (s : State) (site : Site) (n : SlotId), s.alive = true ∧ s.live site = true ∧ s.committing site n = true ∧ (s.slot site n).blk.id ≠ 0
      ∧ (s.slot site n).blk.failed = false ∧ (s.cl site).opsLeft n (s.slot site n).blk.id = false ∧ (s.slot site n).blk.deltas = []
      ∧ (s.slot site n).blk.held = [] ∧ (s.slot site n).blk.sigs = [] ∧ (s.slot site n).blk.bars = [] ∧ (s.slot site n).blk.fills = []
      ∧ (s.slot site n).blk.drains = [] ∧ (s.slot site n).replay = false) ∧
    (∃ (s : State) (site : Site) (n : SlotId) (o : Nat) (v : Int), s.alive = true ∧ s.live site = true ∧ s.committing site n = true
      ∧ (s.slot site n).blk.id ≠ 0 ∧ (s.slot site n).blk.failed = false ∧ (s.cl site).opsLeft n (s.slot site n).blk.id = false
      ∧ (s.slot site n).blk.deltas = [(o, v)] ∧ o < 48 ∧ v ≠ 0 ∧ (s.slot site n).blk.held = [] ∧ (s.slot site n).blk.sigs = []
      ∧ (s.slot site n).blk.bars = [] ∧ (s.slot site n).blk.fills = [] ∧ (s.slot site n).blk.drains = [] ∧ (s.slot site n).replay = false) :=
  ⟨⟨((at_ 6 [(Reg.SLOT_CFG_EN 1 2, 1), (Reg.SLOT_CFG_ENTRIES 1 2, 1), (Reg.SLOT_STATUS_STATE 1 2,
     1)]).modSlot 1 2 fun x => { x with copied := true, late := true }), 1, 2, by decide⟩,
   ⟨(slotOf (at_ 6 []) 1 2 4 0x13 [] { id := 7 }), 1, 2, by decide⟩,
   ⟨(slotOf (at_ 6 []) 1 2 4 0x13 [] { id := 7, deltas := [(5, 3)] }), 1, 2, 5, 3, by decide⟩⟩

theorem wit_TransfersLand :
    (∃ (s : State) (site : Site) (j : Fin 128) (r : SendRec), s.slotBegins site j ∧ s.clean site ∧ s.tile.net = [] ∧ (s.cl site).sends = [r]
      ∧ r.dir < 4 ∧ r.j = j.val ∧ r.since < s.rd64 Reg.BEAT_COUNT ∧ s.schedEntry site r.dir j % 4 ≠ 3
      ∧ ((s.neighbour site r.dir = none ∨ s.schedEntry site r.dir j % 4 = 0 ∨ bits (s.schedEntry site r.dir j) 4 10 ∈ s.copyAt site r.dir j))) ∧
    (∃ (s : State) (site : Site) (j : Fin 128) (r : SendRec) (k : Nat), s.slotBegins site j ∧ s.clean site ∧ s.tile.net = []
      ∧ (s.cl site).sends = [r] ∧ r.dir < 4 ∧ r.j = j.val ∧ r.since < s.rd64 Reg.BEAT_COUNT ∧ r.slot < 4 ∧ s.neighbour site r.dir = some k ∧ k ≠ site
      ∧ s.schedEntry site r.dir j % 4 = 1 ∧ bits (s.schedEntry site r.dir j) 4 10 ∉ s.copyAt site r.dir j ∧ r.len ≤ 246 * 128) ∧
    (∃ (s : State) (site : Site) (j : Fin 128) (d : Edge) (m : NMsg) (k : Nat), s.slotBegins site j ∧ s.clean site ∧ (s.cl site).sends = []
      ∧ s.tile.net = [((site.val * 4 + d.val) * 16 + m.msg.vch.val, [m])] ∧ s.tile.held = [] ∧ s.schedEntry site d j % 4 = 3
      ∧ bits (s.schedEntry site d j) 14 4 = m.msg.vch.val ∧ msgUnits m.msg ≤ slotUnits ∧ m.hop.1 < s.rd64 Reg.BEAT_COUNT
      ∧ s.route m.msg.dst.toNat = .self ∧ s.neighbour site d = some k ∧ m.goal = k) ∧
    (∃ (s : State) (site : Site) (d : Edge) (h : Hop), s.alive = true ∧ s.live site = true ∧ (s.cl site).hops = [h] ∧ h.dir = d.val ∧ h.pass = none
      ∧ h.land < s.fld (Reg.LAND_NSLOT_NSLOT site) ∧ h.land < 1024 ∧ s.landFree site h.land = true ∧ s.clean site
      ∧ h.bytes.length ≤ s.landBytes site) ∧
    (∃ (s : State) (site : Site) (d : Edge) (r : SendRec), s.alive = true ∧ s.live site = true ∧ (s.cl site).sends = [r] ∧ r.dir = d.val
      ∧ r.timed = false ∧ s.fld (Reg.SYNC_TMO_BEATS site) ≤ r.held ∧ r.slot < 4) ∧
    (∃ (s : State) (m : GMsg) (w : Way), s.fw = true ∧ m.ty = 5 ∧ s.toMe m.dst.toNat = true ∧ bits m.dst.toNat 0 4 = 10 ∧ bits m.dst.toNat 25 1 = 0
      ∧ (s.bring m).origin m = some w ∧ s.live (msgSite m) = true ∧ s.clean (msgSite m) ∧ msgOff m = 0 ∧ msgLast m = true
      ∧ msgSlot m < s.fld (Reg.LAND_NSLOT_NSLOT (msgSite m)) ∧ s.landFree (msgSite m) (msgSlot m) = true
      ∧ s.writerFirst (msgSite m) (msgSlot m) = false ∧ m.data.length ≤ s.landBytes (msgSite m)) ∧
    (∃ (s : State) (m : GMsg) (w : Way), s.fw = true ∧ m.ty = 5 ∧ s.toMe m.dst.toNat = true ∧ bits m.dst.toNat 0 4 = 10 ∧ bits m.dst.toNat 25 1 = 0
      ∧ (s.bring m).origin m = some w ∧ s.live (msgSite m) = true ∧ msgOff m = 0 ∧ msgSlot m < s.fld (Reg.LAND_NSLOT_NSLOT (msgSite m))
      ∧ s.landFree (msgSite m) (msgSlot m) = false) ∧
    (∃ (s : State) (e : Edge) (h : Hold) (m : GMsg) (w : Way), s.fw = true ∧ s.tile.held = [h] ∧ h.vch < 16 ∧ ((h.path = e.val
      ∧ w = .edge h.path ∨ 4 ≤ h.path ∧ w = .mesh h.path))
      ∧ s.wayHead w { vch := Fin.ofNat 16 h.vch, ty := 5, dst := 0, aux := 0, data := [] } = some m
      ∧ s.fld (Reg.SYNC_TMO_BEATS (msgSite m)) ≤ h.marks) :=
  ⟨⟨((inBeat1 [(⟨Reg.BEAT_COUNT, 0, 32⟩, 9)]).modCl 1 fun c => { c with sends := [{ dir := 0, j := 0, src := 0, len := 128, slot := 0 }] }), 1, 0,
     { dir := 0, j := 0, src := 0, len := 128, slot := 0 }, by decide⟩,
   ⟨(schedLand.modCl 1 fun c => { c with sends := [{ dir := 1, j := 0, src := 0, len := 128, slot := 0 }] }), 1, 0,
     { dir := 1, j := 0, src := 0, len := 128, slot := 0 }, 2, by decide⟩,
   ⟨(poke ({ inBeat1 [(⟨Reg.BEAT_COUNT, 0, 32⟩, 9)] with tile := { net := [((1 * 4 + 1) * 16, [{ msg := landMsg, goal := 2 }])] } }) 1 1024 [3, 0, 0,
     0]), 1, 0, 1, { msg := landMsg, goal := 2 }, 2, by decide⟩,
   ⟨((at_ 6 [(Reg.LAND_NSLOT_NSLOT 1,
     4)]).modCl 1 fun c => { c with hops := [{ dir := 1, j := 0, land := 2, bytes := [1, 2], pass := none, src := (2, 0, 1) }] }), 1, 1,
     { dir := 1, j := 0, land := 2, bytes := [1, 2], pass := none, src := (2, 0, 1) }, by decide⟩,
   ⟨((at_ 6 [(Reg.SYNC_TMO_BEATS 1, 3)]).modCl 1 fun c => { c with sends := [{ dir := 1, j := 0, src := 0, len := 128, slot := 0, held := 9 }] }), 1,
     1, { dir := 1, j := 0, src := 0, len := 128, slot := 0, held := 9 }, by decide⟩,
   ⟨{ at_ 6 [(Reg.LAND_NSLOT_NSLOT 1, 4)] with inbox := [landMsg] }, landMsg, .agent, by decide⟩,
   ⟨{ at_ 6 [(Reg.LAND_NSLOT_NSLOT 1, 4), (Reg.LAND_STATE_STATE 1 2, 2)] with inbox := [landMsg] }, landMsg, .agent, by decide⟩,
   ⟨(({ at_ 6 [] with tile := { held := [{ path := 1, vch := 0, marks := 70000 }] } }).modEdge 1 fun x => { x with ingress := [landMsg] }), 1,
     { path := 1, vch := 0, marks := 70000 }, landMsg, (.edge 1), by decide⟩⟩

theorem wit_IntegerInstructionsExecute :
    (∃ (s : State) (site : Site) (n : SlotId) (w len f3 f7 : Nat) (f : DWord → DWord → DWord), s.fetches site n w len ∧ w % 128 = 0x33
      ∧ w / 2 ^ 12 % 8 = f3 ∧ wF7 w = f7 ∧ (f3, f7, f) ∈ opTable) ∧
    (∃ (s : State) (site : Site) (n : SlotId) (w len f3 f7 : Nat) (f : Word → Word → Word), s.fetches site n w len ∧ w % 128 = 0x3B
      ∧ w / 2 ^ 12 % 8 = f3 ∧ wF7 w = f7 ∧ (f3, f7, f) ∈ op32Table) ∧
    (∃ (s : State) (site : Site) (n : SlotId) (w len f3 : Nat) (f : DWord → DWord → DWord), s.fetches site n w len ∧ w % 128 = 0x13
      ∧ w / 2 ^ 12 % 8 = f3 ∧ (f3, f) ∈ immTable) ∧
    (∃ (s : State) (site : Site) (n : SlotId) (w len f3 top : Nat) (f : DWord → Nat → DWord), s.fetches site n w len ∧ w % 128 = 0x13
      ∧ w / 2 ^ 12 % 8 = f3 ∧ w / 2 ^ 26 % 64 = top ∧ (f3, top, f) ∈ shTable) ∧
    (∃ (s : State) (site : Site) (n : SlotId) (w len : Nat), s.fetches site n w len ∧ w % 128 = 0x1B ∧ w / 2 ^ 12 % 8 = 0) ∧
    (∃ (s : State) (site : Site) (n : SlotId) (w len f3 f7 : Nat) (f : Word → Nat → Word), s.fetches site n w len ∧ w % 128 = 0x1B
      ∧ w / 2 ^ 12 % 8 = f3 ∧ wF7 w = f7 ∧ (f3, f7, f) ∈ sh32Table) ∧
    (∃ (s : State) (site : Site) (n : SlotId) (w len : Nat), s.fetches site n w len ∧ ((w % 128 = 0x37 ∨ w % 128 = 0x17))) ∧
    (∃ (s : State) (site : Site) (n : SlotId) (len f3 rs1 rs2 : Nat) (off : Int) (f : DWord → DWord → Bool), rs1 < 32 ∧ rs2 < 32 ∧ -4096 ≤ off
      ∧ off < 4096 ∧ off % 2 = 0 ∧ (f3, f) ∈ brTable ∧ s.fetches site n (encB f3 rs1 rs2 off) len ∧ (s.slot site n).pc < 2 ^ 64) ∧
    (∃ (s : State) (site : Site) (n : SlotId) (len rd : Nat) (off : Int), rd < 32 ∧ -(2 ^ 20) ≤ off ∧ off < 2 ^ 20 ∧ off % 2 = 0
      ∧ s.fetches site n (encJ rd off) len ∧ (s.slot site n).pc < 2 ^ 64) ∧
    (∃ (s : State) (site : Site) (n : SlotId) (w len : Nat), s.fetches site n w len ∧ opcodeIs w 0x67 0) ∧
    (∃ (s : State) (site : Site) (n : SlotId) (w len : Nat), s.fetches site n w len ∧ opcodeIs w 0x0F 0) ∧
    (∃ (s : State) (site : Site) (n : SlotId) (w len k : Nat), s.fetches site n w len ∧ w % 128 = 0x73
      ∧ ((w / 2 ^ 12 % 8 = 2 ∨ w / 2 ^ 12 % 8 = 3 ∨ w / 2 ^ 12 % 8 = 6 ∨ w / 2 ^ 12 % 8 = 7)) ∧ wRs1 w = 0 ∧ k < 3 ∧ w / 2 ^ 20 % 2 ^ 12 = 0xC00 + k) :=
  ⟨⟨(at1 1 2 (rt 0x33 0 5 6 7 0) [(6, 11), (7, 9)]), 1, 2, (rt 0x33 0 5 6 7 0), 4, 0, 0, (fun (a b : BitVec 64) => a + b), ⟨by decide,
     .inl ⟨by decide, by decide⟩⟩, by decide, by decide, by decide, by simp [opTable]⟩,
   ⟨(at1 1 2 (rt 0x3B 0 5 6 7 0) [(6, 11), (7, 9)]), 1, 2, (rt 0x3B 0 5 6 7 0), 4, 0, 0, (fun (a b : BitVec 32) => a + b), ⟨by decide,
     .inl ⟨by decide, by decide⟩⟩, by decide, by decide, by decide, by simp [op32Table]⟩,
   ⟨(at1 1 2 (rt 0x13 0 5 6 31 127) [(6, 11), (7, 9)]), 1, 2, (rt 0x13 0 5 6 31 127), 4, 0, (fun (a b : BitVec 64) => a + b), ⟨by decide,
     .inl ⟨by decide, by decide⟩⟩, by decide, by decide, by simp [immTable]⟩,
   ⟨(at1 1 2 (rt 0x13 1 5 6 3 0) [(6, 11), (7, 9)]), 1, 2, (rt 0x13 1 5 6 3 0), 4, 1, 0, (fun (a : BitVec 64) k => a <<< k), ⟨by decide,
     .inl ⟨by decide, by decide⟩⟩, by decide, by decide, by decide, by simp [shTable]⟩,
   ⟨(at1 1 2 (rt 0x1B 0 5 6 31 127) [(6, 11), (7, 9)]), 1, 2, (rt 0x1B 0 5 6 31 127), 4, ⟨by decide, .inl ⟨by decide, by decide⟩⟩, by decide,
     by decide⟩,
   ⟨(at1 1 2 (rt 0x1B 1 5 6 3 0) [(6, 11), (7, 9)]), 1, 2, (rt 0x1B 1 5 6 3 0), 4, 1, 0, (fun (a : BitVec 32) k => a <<< k), ⟨by decide,
     .inl ⟨by decide, by decide⟩⟩, by decide, by decide, by decide, by simp [sh32Table]⟩,
   ⟨(at1 1 2 0x123452B7 [(6, 11), (7, 9)]), 1, 2, 0x123452B7, 4, ⟨by decide, .inl ⟨by decide, by decide⟩⟩, by decide⟩,
   ⟨(at1 1 2 (encB 0 6 7 16) [(6, 11), (7, 11)]), 1, 2, 4, 0, 6, 7, 16, (fun (a b : BitVec 64) => a == b), by decide, by decide, by decide,
     by decide, by decide, by simp [brTable], ⟨by decide, .inl ⟨by decide, by decide⟩⟩, by decide⟩,
   ⟨(at1 1 2 (encJ 1 2048) []), 1, 2, 4, 1, 2048, by decide, by decide, by decide, by decide, ⟨by decide, .inl ⟨by decide, by decide⟩⟩, by decide⟩,
   ⟨(at1 1 2 (rt 0x67 0 5 6 8 0) [(6, 11), (7, 9)]), 1, 2, (rt 0x67 0 5 6 8 0), 4, ⟨by decide, .inl ⟨by decide, by decide⟩⟩, by decide⟩,
   ⟨(at1 1 2 0x0FF0000F []), 1, 2, 0x0FF0000F, 4, ⟨by decide, .inl ⟨by decide, by decide⟩⟩, by decide⟩,
   ⟨(at1 1 2 0xC01022F3 []), 1, 2, 0xC01022F3, 4, 1, ⟨by decide, .inl ⟨by decide, by decide⟩⟩, by decide, by decide, by decide, by decide, by decide⟩⟩

theorem wit_MemoryInstructionsAndTraps :
    (∃ (s : State) (site : Site) (n : SlotId) (w len f3 : Nat), s.fetches site n w len ∧ opcodeIs w 0x03 f3 ∧ f3 < 7 ∧ s.clean site
      ∧ (s.x site n (wRs1 w) + wImm w).toNat % 2 ^ (f3 % 4) = 0 ∧ (s.x site n (wRs1 w) + wImm w).toNat + 2 ^ (f3 % 4) ≤ sliceSize site) ∧
    (∃ (s : State) (site : Site) (n : SlotId) (len f3 rs1 rs2 : Nat) (off : Int) (a : Nat), f3 < 4 ∧ rs1 < 32 ∧ rs2 < 32 ∧ -2048 ≤ off ∧ off < 2048
      ∧ s.fetches site n (encS 0x23 f3 rs1 rs2 off) len ∧ s.clean site ∧ a = (s.x site n rs1 + BitVec.ofInt 64 off).toNat ∧ a % 2 ^ f3 = 0
      ∧ a + 2 ^ f3 ≤ sliceSize site) ∧
    (∃ (s : State) (site : Site) (n : SlotId) (w len f3 a : Nat), s.fetches site n w len ∧ opcodeIs w 0x2F f3 ∧ ((f3 = 2 ∨ f3 = 3))
      ∧ w / 2 ^ 27 % 32 = 2 ∧ wRs2 w = 0 ∧ s.clean site ∧ a = (s.x site n (wRs1 w)).toNat ∧ a % 2 ^ f3 = 0 ∧ a + 2 ^ f3 ≤ sliceSize site) ∧
    (∃ (s : State) (site : Site) (n : SlotId) (w len f3 a : Nat), s.fetches site n w len ∧ opcodeIs w 0x2F f3 ∧ ((f3 = 2 ∨ f3 = 3))
      ∧ w / 2 ^ 27 % 32 = 3 ∧ s.clean site ∧ a = (s.x site n (wRs1 w)).toNat ∧ a % 2 ^ f3 = 0 ∧ a + 2 ^ f3 ≤ sliceSize site
      ∧ (s.slot site n).resv ≠ some (a, 2 ^ f3)) ∧
    (∃ (s : State) (site : Site) (n : SlotId) (w len f3 a : Nat), s.fetches site n w len ∧ opcodeIs w 0x2F f3 ∧ ((f3 = 2 ∨ f3 = 3))
      ∧ w / 2 ^ 27 % 32 = 3 ∧ s.clean site ∧ a = (s.x site n (wRs1 w)).toNat ∧ a % 2 ^ f3 = 0 ∧ a + 2 ^ f3 ≤ sliceSize site
      ∧ (s.slot site n).resv = some (a, 2 ^ f3)) ∧
    (∃ (s : State) (site : Site) (n : SlotId) (w len f3 f5 a : Nat) (f : DWord → DWord → DWord) (old b : DWord), s.fetches site n w len
      ∧ opcodeIs w 0x2F f3 ∧ ((f3 = 2 ∨ f3 = 3)) ∧ w / 2 ^ 27 % 32 = f5 ∧ (f5, f) ∈ amoTable ∧ s.clean site ∧ a = (s.x site n (wRs1 w)).toNat
      ∧ a % 2 ^ f3 = 0 ∧ a + 2 ^ f3 ≤ sliceSize site ∧ old = loaded f3 (leNat (s.sliceBytes site a (2 ^ f3)))
      ∧ b = loaded f3 ((s.x site n (wRs2 w)).toNat % 2 ^ (8 * 2 ^ f3))) ∧
    (∃ (s : State) (site : Site) (n : SlotId) (w len f3 : Nat), s.fetches site n w len ∧ opcodeIs w 0x03 f3 ∧ f3 < 7
      ∧ (s.slot site n).blk.failed = false ∧ (s.x site n (wRs1 w) + wImm w).toNat % 2 ^ (f3 % 4) ≠ 0) ∧
    (∃ (s : State) (site : Site) (n : SlotId) (w len f3 : Nat), s.fetches site n w len ∧ opcodeIs w 0x03 f3 ∧ f3 < 7
      ∧ (s.slot site n).blk.failed = false ∧ (s.x site n (wRs1 w) + wImm w).toNat % 2 ^ (f3 % 4) = 0
      ∧ sliceSize site < (s.x site n (wRs1 w) + wImm w).toNat + 2 ^ (f3 % 4)) ∧
    (∃ (s : State) (site : Site) (n : SlotId) (len f3 rs1 rs2 : Nat) (off : Int) (a : Nat), f3 < 4 ∧ rs1 < 32 ∧ rs2 < 32 ∧ -2048 ≤ off ∧ off < 2048
      ∧ s.fetches site n (encS 0x23 f3 rs1 rs2 off) len ∧ (s.slot site n).blk.failed = false ∧ a = (s.x site n rs1 + BitVec.ofInt 64 off).toNat
      ∧ ((a % 2 ^ f3 ≠ 0 ∨ sliceSize site < a + 2 ^ f3))) ∧
    (∃ (s : State) (site : Site) (n : SlotId), s.fetches site n 0x73 4 ∧ (s.slot site n).blk.failed = false) ∧
    (∃ (s : State) (site : Site) (n : SlotId) (len : Nat), s.fetches site n 0x100073 len ∧ s.flag Reg.DBG_STATE_UNLOCKED = true) ∧
    (∃ (s : State) (site : Site) (n : SlotId) (len : Nat), s.fetches site n 0x100073 len ∧ s.flag Reg.DBG_STATE_UNLOCKED = false
      ∧ (s.slot site n).blk.failed = false) ∧
    (∃ (s : State) (site : Site) (n : SlotId) (c : Nat), s.runs site n = true ∧ (s.slot site n).fetch = some (c, 2) ∧ expandC c = none
      ∧ (s.slot site n).blk.failed = false) ∧
    (∃ (s : State) (site : Site) (n : SlotId), s.runs site n = true ∧ (s.slot site n).buf.length ≤ (s.slot site n).pc
      ∧ (s.slot site n).blk.failed = false) :=
  ⟨⟨(poke (at1 1 2 (rt 0x03 3 5 6 8 0) [(6, 64)]) 1 72 [1, 2, 3, 4, 5, 6, 7, 8]), 1, 2, (rt 0x03 3 5 6 8 0), 4, 3, ⟨by decide, .inl ⟨by decide,
     by decide⟩⟩, by decide, by decide, by decide, by decide, by decide⟩,
   ⟨(at1 1 2 (encS 0x23 3 6 7 16) [(6, 64), (7, 0x1122334455667788)]), 1, 2, 4, 3, 6, 7, 16, 80, by decide, by decide, by decide, by decide,
     by decide, ⟨by decide, .inl ⟨by decide, by decide⟩⟩, by decide, by decide, by decide, by decide⟩,
   ⟨(at1 1 2 (rt 0x2F 3 5 6 0 8) [(6, 64)]), 1, 2, (rt 0x2F 3 5 6 0 8), 4, 3, 64, ⟨by decide, .inl ⟨by decide, by decide⟩⟩, by decide, by decide,
     by decide, by decide, by decide, by decide, by decide, by decide⟩,
   ⟨(at1 1 2 (rt 0x2F 3 5 6 7 12) [(6, 64), (7, 9)]), 1, 2, (rt 0x2F 3 5 6 7 12), 4, 3, 64, ⟨by decide, .inl ⟨by decide, by decide⟩⟩, by decide,
     by decide, by decide, by decide, by decide, by decide, by decide, by decide⟩,
   ⟨((at1 1 2 (rt 0x2F 3 5 6 7 12) [(6, 64), (7, 9)]).modSlot 1 2 fun x => { x with resv := some (64, 8) }), 1, 2, (rt 0x2F 3 5 6 7 12), 4, 3, 64,
     ⟨by decide, .inl ⟨by decide, by decide⟩⟩, by decide, by decide, by decide, by decide, by decide, by decide, by decide, by decide⟩,
   ⟨(at1 1 2 (rt 0x2F 3 5 6 7 0) [(6, 64), (7, 9)]), 1, 2, (rt 0x2F 3 5 6 7 0), 4, 3, 0, 64, (fun (a b : BitVec 64) => a + b), 0, 9, ⟨by decide,
     .inl ⟨by decide, by decide⟩⟩, by decide, by decide, by decide, by simp [amoTable], by decide, by decide, by decide, by decide, by decide,
     by decide⟩,
   ⟨(at1 1 2 (rt 0x03 3 5 6 1 0) [(6, 64)]), 1, 2, (rt 0x03 3 5 6 1 0), 4, 3, ⟨by decide, .inl ⟨by decide, by decide⟩⟩, by decide, by decide,
     by decide, by decide⟩,
   ⟨(at1 1 2 (rt 0x03 3 5 6 0 0) [(6, 0x800000)]), 1, 2, (rt 0x03 3 5 6 0 0), 4, 3, ⟨by decide, .inl ⟨by decide, by decide⟩⟩, by decide, by decide,
     by decide, by decide, by decide⟩,
   ⟨(at1 1 2 (encS 0x23 3 6 7 15) [(6, 64)]), 1, 2, 4, 3, 6, 7, 15, 79, by decide, by decide, by decide, by decide, by decide, ⟨by decide,
     .inl ⟨by decide, by decide⟩⟩, by decide, by decide, by decide⟩,
   ⟨(at1 1 2 0x73 []), 1, 2, ⟨by decide, .inl ⟨by decide, by decide⟩⟩, by decide⟩,
   ⟨(slotOf (open_ 6 []) 1 2 2 0x100073 [] { id := 1 }), 1, 2, 4, ⟨by decide, .inl ⟨by decide, by decide⟩⟩, by decide⟩,
   ⟨(slotOf (locked 6 []) 1 2 2 0x100073 [] { id := 1 }), 1, 2, 4, ⟨by decide, .inl ⟨by decide, by decide⟩⟩, by decide, by decide⟩,
   ⟨((at1 1 2 0x13 []).modSlot 1 2 fun x => { x with buf := [0, 0] }), 1, 2, 0, by decide⟩,
   ⟨((at1 1 2 0x13 []).modSlot 1 2 fun x => { x with pc := 4 }), 1, 2, by decide⟩⟩

theorem wit_ReservedOpcodeFieldsTrap :
    (∃ (s : State) (site : Site) (n : SlotId) (w : Nat), s.atWord site n w ∧ opcodeIs w 0x0B 0 ∧ (s.slot site n).blk.failed = false
      ∧ ((isVector site = true ∨ wRd w ≠ 0 ∨ wRs2 w ≠ 0 ∨ wF7 w % 16 = 0))) ∧
    (∃ (s : State) (site : Site) (n : SlotId) (w : Nat), s.atWord site n w ∧ opcodeIs w 0x2B 1 ∧ (s.slot site n).blk.failed = false
      ∧ ((wRd w ≠ 0 ∨ (isVector site = false ∧ 64 ≤ wF7 w)))) ∧
    (∃ (s : State) (site : Site) (n : SlotId) (w : Nat), s.atWord site n w ∧ opcodeIs w 0x5B 0 ∧ (s.slot site n).blk.failed = false
      ∧ ((wRs2 w ≠ 0 ∨ 64 ≤ wF7 w))) ∧
    (∃ (s : State) (site : Site) (n : SlotId) (w : Nat), s.atWord site n w ∧ opcodeIs w 0x7B 6 ∧ (s.slot site n).blk.failed = false
      ∧ ((wRs1 w ≠ 0 ∨ wRs2 w ≠ 0 ∨ wF7 w ≠ 0))) :=
  ⟨⟨(at1 1 2 (rt 0x0B 0 1 0 0 1) []), 1, 2, (rt 0x0B 0 1 0 0 1), by decide⟩,
   ⟨(at1 1 2 (rt 0x2B 1 0 6 7 64) []), 1, 2, (rt 0x2B 1 0 6 7 64), by decide⟩,
   ⟨(at1 1 2 (rt 0x5B 0 0 6 1 0) []), 1, 2, (rt 0x5B 0 0 6 1 0), by decide⟩,
   ⟨(at1 1 2 (rt 0x7B 6 0 1 0 0) []), 1, 2, (rt 0x7B 6 0 1 0 0), by decide⟩⟩

theorem wit_ArrayOpcodesIssue :
    (∃ (s : State) (site : Site) (n : SlotId) (w : Nat), s.atWord site n w ∧ opcodeIs w 0x0B 0 ∧ isVector site = false ∧ wRd w = 0 ∧ wRs2 w = 0
      ∧ wF7 w % 16 ≠ 0 ∧ wF7 w / 32 ≠ 3 ∧ ((∀ a, a < 4 → (wF7 w).testBit a = true → roomIn (s.arr site a).queue n = true))) ∧
    (∃ (s : State) (site : Site) (n : SlotId) (w : Nat), s.atWord site n w ∧ opcodeIs w 0x0B 0 ∧ isVector site = false ∧ wRd w = 0 ∧ wRs2 w = 0
      ∧ wF7 w % 16 ≠ 0 ∧ wF7 w / 32 ≠ 3 ∧ ((∃ a, a < 4 ∧ (wF7 w).testBit a = true ∧ roomIn (s.arr site a).queue n = false))) ∧
    (∃ (s : State) (site : Site) (n : SlotId) (w : Nat), s.atWord site n w ∧ opcodeIs w 0x0B 1 ∧ isVector site = false ∧ wRd w = 0 ∧ wF7 w % 16 ≠ 0
      ∧ wF7 w < 16 ∧ (s.x site n (wRs2 w)).toNat ≠ 0 ∧ (s.x site n (wRs2 w)).toNat < 2 ^ 24 ∧ ((∀ a,
      a < 4 → (wF7 w).testBit a = true → roomIn (s.arr site a).queue n = true))) ∧
    (∃ (s : State) (site : Site) (n : SlotId) (w d : Nat), s.atWord site n w ∧ opcodeIs w 0x0B 1 ∧ isVector site = false ∧ wRd w = 0 ∧ wF7 w % 16 ≠ 0
      ∧ wF7 w < 16 ∧ (s.x site n (wRs2 w)).toNat = 0 ∧ s.clean site ∧ s.descAt site (s.x site n (wRs1 w)).toNat = some d ∧ streamDescOk d = true
      ∧ bits d 256 23 + 16 ≤ sliceSize site ∧ ((∀ a, a < 4 → (wF7 w).testBit a = true → s.landSpan site d a 0 = true))) ∧
    (∃ (s : State) (site : Site) (n : SlotId) (w : Nat), s.atWord site n w ∧ opcodeIs w 0x0B 2 ∧ isVector site = false ∧ wRd w = 0 ∧ wRs2 w = 0
      ∧ wF7 w % 16 ≠ 0 ∧ wF7 w < 32 ∧ ((∀ a, a < 4 → (wF7 w).testBit a = true → roomIn (s.arr site a).queue n = true))) ∧
    (∃ (s : State) (site : Site) (n : SlotId) (w : Nat), s.atWord site n w ∧ opcodeIs w 0x0B 3 ∧ isVector site = false ∧ wRd w = 0 ∧ wRs1 w = 0
      ∧ wRs2 w = 0 ∧ wF7 w ≠ 0 ∧ wF7 w < 16) ∧
    (∃ (s : State) (site : Site) (n : SlotId) (w : Nat), s.atWord site n w ∧ opcodeIs w 0x0B 4 ∧ isVector site = false ∧ wRs1 w = 0 ∧ wRs2 w = 0
      ∧ wF7 w < 4) :=
  ⟨⟨(at1 1 2 (rt 0x0B 0 0 6 0 3) [(6, 64)]), 1, 2, (rt 0x0B 0 0 6 0 3), by decide⟩,
   ⟨((at1 1 2 (rt 0x0B 0 0 6 0 1) [(6,
     64)]).modArr 1 0 fun x => { x with queue := List.replicate 8 { id := 1, kind := .aload, slot := 2, blk := 1, f7 := 1, desc := 0 } }), 1, 2,
     (rt 0x0B 0 0 6 0 1), by decide⟩,
   ⟨(at1 1 2 (rt 0x0B 1 0 6 7 1) [(6, 64), (7, 10)]), 1, 2, (rt 0x0B 1 0 6 7 1), by decide⟩,
   ⟨(desc (at1 1 2 (rt 0x0B 1 0 6 7 1) [(6, 64)]) 1 64 (2 ^ 128 + 0x200 * 2 ^ 256)), 1, 2, (rt 0x0B 1 0 6 7 1), (2 ^ 128 + 0x200 * 2 ^ 256),
     by decide⟩,
   ⟨(at1 1 2 (rt 0x0B 2 0 6 0 17) [(6, 64)]), 1, 2, (rt 0x0B 2 0 6 0 17), by decide⟩,
   ⟨(at1 1 2 (rt 0x0B 3 0 0 0 5) []), 1, 2, (rt 0x0B 3 0 0 0 5), by decide⟩,
   ⟨(at1 1 2 (rt 0x0B 4 5 0 0 2) []), 1, 2, (rt 0x0B 4 5 0 0 2), by decide⟩⟩

theorem wit_VectorOpcodesIssue :
    (∃ (s : State) (site : Site) (n : SlotId) (w : Nat), s.atWord site n w ∧ opcodeIs w 0x2B 0 ∧ wRs2 w = 0 ∧ ((wF7 w = 0 ∨ (isVector site = true
      ∧ wF7 w = 64)))) ∧
    (∃ (s : State) (site : Site) (n : SlotId) (w : Nat), s.atWord site n w ∧ opcodeIs w 0x2B 1 ∧ wRd w = 0 ∧ ((isVector site = true ∨ wF7 w < 64))
      ∧ roomIn (s.eng site (wF7 w / 64)).queue n = true) ∧
    (∃ (s : State) (site : Site) (n : SlotId) (w : Nat), s.atWord site n w ∧ opcodeIs w 0x2B 2 ∧ wRd w = 0 ∧ wRs2 w = 0 ∧ wF7 w / 8 % 8 = 0
      ∧ wF7 w % 8 < 6 ∧ ((isVector site = true ∨ wF7 w < 64)) ∧ roomIn (s.eng site (wF7 w / 64)).queue n = true) ∧
    (∃ (s : State) (site : Site) (n : SlotId) (w : Nat), s.atWord site n w ∧ opcodeIs w 0x2B 3 ∧ wRd w = 0 ∧ wRs2 w = 0
      ∧ ((wF7 w = 0 ∨ (isVector site = true ∧ wF7 w = 64))) ∧ roomIn (s.eng site (wF7 w / 64)).queue n = true) ∧
    (∃ (s : State) (site : Site) (n : SlotId) (w : Nat), s.atWord site n w ∧ opcodeIs w 0x2B 4 ∧ wRd w = 0 ∧ wRs2 w = 0 ∧ wF7 w / 2 % 32 = 0
      ∧ ((isVector site = true ∨ wF7 w < 64)) ∧ roomIn (s.eng site (wF7 w / 64)).queue n = true) ∧
    (∃ (s : State) (site : Site) (n : SlotId) (w : Nat), s.atWord site n w ∧ opcodeIs w 0x2B 5 ∧ wRs1 w = 0 ∧ wRs2 w = 0
      ∧ ((wF7 w = 0 ∨ (isVector site = true ∧ wF7 w = 64)))) ∧
    (∃ (s : State) (site : Site) (n : SlotId) (w : Nat), s.atWord site n w ∧ opcodeIs w 0x2B 6 ∧ wRs2 w = 0 ∧ wF7 w = 0) ∧
    (∃ (s : State) (site : Site) (n : SlotId) (w : Nat), s.atWord site n w ∧ opcodeIs w 0x2B 6 ∧ wRs2 w = 0 ∧ wF7 w = 1) :=
  ⟨⟨(at1 1 2 (rt 0x2B 0 5 6 0 0) [(6, 100)]), 1, 2, (rt 0x2B 0 5 6 0 0), by decide⟩,
   ⟨(at1 3 2 (rt 0x2B 1 0 6 7 69) [(6, 64), (7, 128)]), 3, 2, (rt 0x2B 1 0 6 7 69), by decide⟩,
   ⟨(at1 1 2 (rt 0x2B 2 0 6 0 2) [(6, 64)]), 1, 2, (rt 0x2B 2 0 6 0 2), by decide⟩,
   ⟨(at1 1 2 (rt 0x2B 3 0 6 0 0) [(6, 64)]), 1, 2, (rt 0x2B 3 0 6 0 0), by decide⟩,
   ⟨(at1 1 2 (rt 0x2B 4 0 6 0 1) [(6, 64)]), 1, 2, (rt 0x2B 4 0 6 0 1), by decide⟩,
   ⟨(at1 1 2 (rt 0x2B 5 5 0 0 0) []), 1, 2, (rt 0x2B 5 5 0 0 0), by decide⟩,
   ⟨(at1 1 2 (rt 0x2B 6 5 6 0 0) [(6, 64)]), 1, 2, (rt 0x2B 6 5 6 0 0), by decide⟩,
   ⟨(at1 1 2 (rt 0x2B 6 5 6 0 1) [(6, 64)]), 1, 2, (rt 0x2B 6 5 6 0 1), by decide⟩⟩

theorem wit_StreamOpcodesArmAndCancel :
    (∃ (s : State) (site : Site) (n : SlotId) (w r : Nat), s.atWord site n w ∧ opcodeIs w 0x5B 0 ∧ wRs2 w = 0 ∧ wF7 w < 64 ∧ s.clean site
      ∧ s.descAt site (s.x site n (wRs1 w)).toNat = some r ∧ s.armOk site r = true ∧ (s.ctx site (wF7 w)).act = none) ∧
    (∃ (s : State) (site : Site) (n : SlotId) (w r : Nat) (a0 : Arm), s.atWord site n w ∧ opcodeIs w 0x5B 0 ∧ wRs2 w = 0 ∧ wF7 w < 64 ∧ s.clean site
      ∧ s.descAt site (s.x site n (wRs1 w)).toNat = some r ∧ s.armOk site r = true ∧ (s.ctx site (wF7 w)).act = some a0
      ∧ (s.ctx site (wF7 w)).shd = none) ∧
    (∃ (s : State) (site : Site) (n : SlotId) (w r : Nat) (a0 a1 : Arm), s.atWord site n w ∧ opcodeIs w 0x5B 0 ∧ wRs2 w = 0 ∧ wF7 w < 64
      ∧ s.clean site ∧ s.descAt site (s.x site n (wRs1 w)).toNat = some r ∧ s.armOk site r = true ∧ (s.ctx site (wF7 w)).act = some a0
      ∧ (s.ctx site (wF7 w)).shd = some a1) ∧
    (∃ (s : State) (site : Site) (n : SlotId) (w : Nat) (a : Arm), s.atWord site n w ∧ opcodeIs w 0x5B 1 ∧ wRd w = 0 ∧ wF7 w < 64
      ∧ (s.x site n (wRs1 w)).toNat < 2 ^ 16 ∧ ownOk (s.x site n (wRs1 w)).toNat = true ∧ (s.x site n (wRs2 w)).toNat < 2 ^ 48
      ∧ 2 ^ 24 ≤ (s.x site n (wRs2 w)).toNat ∧ (s.ctx site (wF7 w)).shd = none ∧ (s.ctx site (wF7 w)).act = some a ∧ a.next < armCount a.desc
      ∧ a.marks.length < 8) ∧
    (∃ (s : State) (site : Site) (n : SlotId) (w : Nat) (a : Arm), s.atWord site n w ∧ opcodeIs w 0x5B 1 ∧ wRd w = 0 ∧ wF7 w < 64
      ∧ (s.x site n (wRs1 w)).toNat < 2 ^ 16 ∧ ownOk (s.x site n (wRs1 w)).toNat = true ∧ (s.x site n (wRs2 w)).toNat < 2 ^ 48
      ∧ 2 ^ 24 ≤ (s.x site n (wRs2 w)).toNat ∧ (s.ctx site (wF7 w)).shd = some a ∧ a.next < armCount a.desc ∧ a.marks.length < 8) ∧
    (∃ (s : State) (site : Site) (n : SlotId) (w : Nat), s.atWord site n w ∧ opcodeIs w 0x5B 1 ∧ wRd w = 0 ∧ wF7 w < 64
      ∧ (s.x site n (wRs1 w)).toNat < 2 ^ 16 ∧ ownOk (s.x site n (wRs1 w)).toNat = true ∧ (s.x site n (wRs2 w)).toNat < 2 ^ 48
      ∧ 2 ^ 24 ≤ (s.x site n (wRs2 w)).toNat ∧ (s.ctx site (wF7 w)).shd = none ∧ (s.ctx site (wF7 w)).act = none) ∧
    (∃ (s : State) (site : Site) (n : SlotId) (w : Nat), s.atWord site n w ∧ opcodeIs w 0x5B 2 ∧ wRs1 w = 0 ∧ wRs2 w = 0 ∧ wF7 w < 64
      ∧ s.epochBusy site (wF7 w) = false) ∧
    (∃ (s : State) (site : Site) (n : SlotId) (w : Nat), s.atWord site n w ∧ opcodeIs w 0x5B 2 ∧ wRs1 w = 0 ∧ wRs2 w = 0 ∧ wF7 w < 64
      ∧ s.epochBusy site (wF7 w) = true) :=
  ⟨⟨((desc (at1f 1 2 (rt 0x5B 0 5 6 0 5) [(6, 64)] []) 1 64 armR).modCtx 1 5 fun x => x), 1, 2, (rt 0x5B 0 5 6 0 5), armR, by decide⟩,
   ⟨((desc (at1f 1 2 (rt 0x5B 0 5 6 0 5) [(6, 64)] []) 1 64 armR).modCtx 1 5 fun x => { x with act := some armOf }), 1, 2, (rt 0x5B 0 5 6 0 5), armR,
     armOf, by decide⟩,
   ⟨((desc (at1f 1 2 (rt 0x5B 0 5 6 0 5) [(6, 64)] []) 1 64 armR).modCtx 1 5 fun x => { x with act := some armOf, shd := some armOf }), 1, 2,
     (rt 0x5B 0 5 6 0 5), armR, armOf, armOf, by decide⟩,
   ⟨((at1f 1 2 (rt 0x5B 1 0 6 7 5) [(6, 3), (7, 0x2000007)] []).modCtx 1 5 fun x => { x with act := some armOf }), 1, 2, (rt 0x5B 1 0 6 7 5), armOf,
     by decide⟩,
   ⟨((at1f 1 2 (rt 0x5B 1 0 6 7 5) [(6, 3), (7, 0x2000007)] []).modCtx 1 5 fun x => { x with shd := some armOf }), 1, 2, (rt 0x5B 1 0 6 7 5), armOf,
     by decide⟩,
   ⟨(at1f 1 2 (rt 0x5B 1 0 6 7 5) [(6, 3), (7, 0x2000007)] []), 1, 2, (rt 0x5B 1 0 6 7 5), by decide⟩,
   ⟨((at1f 1 2 (rt 0x5B 2 5 0 0 5) [] []).modCtx 1 5 fun x => { x with act := some armOf, xfers := [xferOf] }), 1, 2, (rt 0x5B 2 5 0 0 5), by decide⟩,
   ⟨((at1f 1 2 (rt 0x5B 2 5 0 0 5) [] []).modCtx 1 5 fun x => { x with act := some armOf, xfers := [{ xferOf with epoch := 1 }] }), 1, 2,
     (rt 0x5B 2 5 0 0 5), by decide⟩⟩

theorem wit_SendsFillsAndSignalsAreRecorded :
    (∃ (s : State) (site : Site) (n : SlotId) (w j r : Nat), s.atWord site n w ∧ opcodeIs w 0x5B 3 ∧ wRd w = 0 ∧ wF7 w < 4 ∧ s.clean site
      ∧ j = (s.x site n (wRs1 w)).toNat ∧ r = (s.x site n (wRs2 w)).toNat ∧ j < 128 ∧ j < 2 ^ (s.fld Reg.BEAT_CFG_K - 9)
      ∧ ((s.schedEntry site (wF7 w) j % 4 = 1 ∨ s.schedEntry site (wF7 w) j % 4 = 2)) ∧ r < 2 ^ 40 ∧ r / 2 ^ 23 % 2 = 0 ∧ 1 ≤ r / 2 ^ 24
      ∧ r / 2 ^ 24 ≤ 32768 ∧ r % 2 ^ 23 % 128 = 0 ∧ r % 2 ^ 23 + r / 2 ^ 24 ≤ sliceSize site) ∧
    (∃ (s : State) (site : Site) (n : SlotId) (w d : Nat), s.atWord site n w ∧ opcodeIs w 0x5B 4 ∧ wRd w = 0 ∧ wF7 w = 0 ∧ s.clean site
      ∧ s.descAt site (s.x site n (wRs1 w)).toNat = some d ∧ copyOk .fill d (sliceSize site) = true ∧ roomIn ((s.cl site).fills.drop 1) n = true) ∧
    (∃ (s : State) (site : Site) (n : SlotId) (w d : Nat), s.atWord site n w ∧ opcodeIs w 0x5B 5 ∧ wRd w = 0 ∧ wRs2 w = 0 ∧ wF7 w = 1 ∧ s.clean site
      ∧ s.descAt site (s.x site n (wRs1 w)).toNat = some d ∧ copyOk .xcopy d (sliceSize site) = true ∧ roomIn ((s.cl site).xcopies.drop 1) n = true) ∧
    (∃ (s : State) (site : Site) (n : SlotId) (w d : Nat), s.atWord site n w ∧ opcodeIs w 0x5B 5 ∧ wRd w = 0 ∧ wRs2 w = 0 ∧ wF7 w = 0 ∧ s.clean site
      ∧ s.descAt site (s.x site n (wRs1 w)).toNat = some d ∧ copyOk .copy d (sliceSize site) = true ∧ roomIn ((s.cl site).fills.drop 1) n = true) ∧
    (∃ (s : State) (site : Site) (n : SlotId) (w r : Nat), s.atWord site n w ∧ opcodeIs w 0x7B 0 ∧ wRd w = 0 ∧ wF7 w = 0
      ∧ r = (s.x site n (wRs1 w)).toNat ∧ ((r < 48 ∨ (2 ^ 14 ≤ r ∧ r < 2 ^ 14 + 2 ^ 12))) ∧ -(2 ^ 24 - 1) ≤ (s.x site n (wRs2 w)).toInt
      ∧ (s.x site n (wRs2 w)).toInt ≤ 2 ^ 24 - 1) ∧
    (∃ (s : State) (site : Site) (n : SlotId) (w r o dst : Nat), s.atWord site n w ∧ opcodeIs w 0x7B 0 ∧ wRd w = 0 ∧ wF7 w = 0
      ∧ r = (s.x site n (wRs1 w)).toNat ∧ r = 3 * 2 ^ 14 + o + dst * 2 ^ 16 ∧ o < 48 ∧ dst < 2 ^ 32 ∧ dst % 16 = 9 ∧ dst / 2 ^ 25 % 2 = 0
      ∧ -(2 ^ 24 - 1) ≤ (s.x site n (wRs2 w)).toInt ∧ (s.x site n (wRs2 w)).toInt ≤ 2 ^ 24 - 1) :=
  ⟨⟨(poke (at1f 1 2 (rt 0x5B 3 0 6 7 1) [(7, 0x40000000)] []) 1 1024 [1]), 1, 2, (rt 0x5B 3 0 6 7 1), 0, (64 * 2 ^ 24), by decide⟩,
   ⟨(desc (at1f 1 2 (rt 0x5B 4 0 6 7 0) [(6, 64), (7, 77)] []) 1 64 (64 * 2 ^ 64 + 2 ^ 96 + 0x100 * 2 ^ 23)), 1, 2, (rt 0x5B 4 0 6 7 0),
     (64 * 2 ^ 64 + 2 ^ 96 + 0x100 * 2 ^ 23), by decide⟩,
   ⟨(desc (at1f 1 2 (rt 0x5B 5 0 6 0 1) [(6, 64)] []) 1 64 (64 * 2 ^ 64 + 2 ^ 96 + 0x200 * 2 ^ 23 + 0x100 + 8 * 2 ^ 195 + 8 * 2 ^ 203)), 1, 2,
     (rt 0x5B 5 0 6 0 1), (64 * 2 ^ 64 + 2 ^ 96 + 0x200 * 2 ^ 23 + 0x100 + 8 * 2 ^ 195 + 8 * 2 ^ 203), by decide⟩,
   ⟨(desc (at1f 1 2 (rt 0x5B 5 0 6 0 0) [(6, 64)] []) 1 64 (64 * 2 ^ 64 + 2 ^ 96 + 0x200 * 2 ^ 23 + 0x100)), 1, 2, (rt 0x5B 5 0 6 0 0),
     (64 * 2 ^ 64 + 2 ^ 96 + 0x200 * 2 ^ 23 + 0x100), by decide⟩,
   ⟨(at1f 1 2 (rt 0x7B 0 0 6 7 0) [(6, 3), (7, 5)] []), 1, 2, (rt 0x7B 0 0 6 7 0), 3, by decide⟩,
   ⟨(at1f 1 2 (rt 0x7B 0 0 6 7 0) [(6, 0x19C003), (7, 5)] []), 1, 2, (rt 0x7B 0 0 6 7 0), (3 * 2 ^ 14 + 3 + 0x19 * 2 ^ 16), 3, 0x19, by decide⟩⟩

theorem wit_WaitsEnd :
    (∃ (s : State) (site : Site) (n : SlotId) (w : Nat), s.atWord site n w ∧ opcodeIs w 0x7B 1 ∧ wRd w = 0 ∧ wF7 w = 0
      ∧ (s.x site n (wRs1 w)).toNat < 2 ^ 16 ∧ ownOk (s.x site n (wRs1 w)).toNat = true ∧ (s.x site n (wRs2 w)).toNat < 2 ^ 24
      ∧ ((s.x site n (wRs2 w)).toNat : Int) ≤ s.seen site n (s.x site n (wRs1 w)).toNat) ∧
    (∃ (s : State) (site : Site) (n : SlotId) (w o thr : Nat), s.atWord site n w ∧ opcodeIs w 0x7B 1 ∧ wRd w = 0 ∧ wF7 w = 1
      ∧ o = (s.x site n (wRs1 w)).toNat ∧ thr = (s.x site n (wRs2 w)).toNat ∧ o < 48 ∧ thr < 2 ^ 24 ∧ (thr : Int) ≤ s.seen site n o) ∧
    (∃ (s : State) (site : Site) (n : SlotId) (w : Nat), s.atWord site n w ∧ opcodeIs w 0x7B 1 ∧ wRd w = 0 ∧ wF7 w < 2
      ∧ (s.x site n (wRs1 w)).toNat < 2 ^ 16 ∧ ownOk (s.x site n (wRs1 w)).toNat = true ∧ ((wF7 w = 1 → (s.x site n (wRs1 w)).toNat < 48))
      ∧ (s.x site n (wRs2 w)).toNat < 2 ^ 24 ∧ s.seen site n (s.x site n (wRs1 w)).toNat < ((s.x site n (wRs2 w)).toNat : Int)) ∧
    (∃ (s : State) (site : Site) (n : SlotId) (w : Nat), s.atWord site n w ∧ opcodeIs w 0x7B 1 ∧ (s.slot site n).blk.failed = false
      ∧ ((wRd w ≠ 0 ∨ 2 ≤ wF7 w ∨ 2 ^ 16 ≤ (s.x site n (wRs1 w)).toNat ∨ ownOk (s.x site n (wRs1 w)).toNat = false ∨ (wF7 w = 1
      ∧ 2 ^ 14 ≤ (s.x site n (wRs1 w)).toNat) ∨ 2 ^ 24 ≤ (s.x site n (wRs2 w)).toNat))) ∧
    (∃ (s : State) (site : Site) (n : SlotId) (ref thr k : Nat), s.alive = true ∧ (s.slot site n).wait = some (.object ref thr false, k)
      ∧ (thr : Int) ≤ s.seen site n ref) ∧
    (∃ (s : State) (site : Site) (n : SlotId) (o thr k : Nat), s.alive = true ∧ (s.slot site n).wait = some (.object o thr true, k) ∧ o < 48
      ∧ thr < 2 ^ 24 ∧ (thr : Int) ≤ s.seen site n o ∧ s.servedFirst site n = false) ∧
    (∃ (s : State) (site : Site) (n : SlotId) (d k : Nat), s.alive = true ∧ (s.slot site n).wait = some (.cancel d, k) ∧ s.epochBusy site d = false) ∧
    (∃ (s : State) (site : Site) (n : SlotId), ((s.waitHolds site n = false ∨ s.servedFirst site n = true))) ∧
    (∃ (s : State) (site : Site) (n : SlotId) (w : Wait) (k : Nat), s.alive = true ∧ s.live site = true ∧ (s.slot site n).wait = some (w, k)
      ∧ s.fld (Reg.SYNC_TMO_BEATS site) ≤ k ∧ (s.slot site n).blk.failed = false) ∧
    (∃ (s : State) (site : Site) (d : CtxId) (a : Arm) (m : Marker) (l : List Marker), s.alive = true ∧ s.live site = true
      ∧ (s.ctx site d).act = some a ∧ (s.ctx site d).stop = false ∧ (s.ctx site d).stall = none ∧ a.marks = m :: l
      ∧ s.fld (Reg.SYNC_TMO_BEATS site) ≤ a.waited) ∧
    (∃ (s : State) (site : Site) (d : CtxId) (a : Arm) (l k : Nat), s.alive = true ∧ s.live site = true ∧ (s.ctx site d).act = some a
      ∧ (s.ctx site d).stop = false ∧ (s.ctx site d).stall = some (l, k) ∧ a.marks = [] ∧ s.fld (Reg.SYNC_TMO_BEATS site) ≤ k) ∧
    (∃ (s : State) (site : Site) (a : ArrId) (r : Run) (l k : Nat), s.alive = true ∧ s.live site = true ∧ (s.arr site a).cur = some r
      ∧ (s.arr site a).stall = some (l, k) ∧ a.val ∈ r.op.arrays ∧ s.fld (Reg.SYNC_TMO_BEATS site) ≤ k ∧ (s.slot site r.op.slot).blk.failed = false) ∧
    (∃ (s : State) (site : Site) (e : EngId) (r : VRun) (l k : Nat), s.alive = true ∧ s.live site = true ∧ (s.eng site e).cur = some r
      ∧ (s.eng site e).stall = some (l, k) ∧ s.fld (Reg.SYNC_TMO_BEATS site) ≤ k ∧ (s.slot site r.op.slot).blk.failed = false) :=
  ⟨⟨(at1f 1 2 (rt 0x7B 1 0 6 7 0) [(6, 3), (7, 2)] [(Reg.SYNC_VAL_VALUE 1 3, 4), (Reg.SYNC_TMO_BEATS 1, 3)]), 1, 2, (rt 0x7B 1 0 6 7 0), by decide⟩,
   ⟨(at1f 1 2 (rt 0x7B 1 0 6 7 1) [(6, 3), (7, 4)] [(Reg.SYNC_VAL_VALUE 1 3, 4), (Reg.SYNC_TMO_BEATS 1, 3)]), 1, 2, (rt 0x7B 1 0 6 7 1), 3, 4,
     by decide⟩,
   ⟨(at1f 1 2 (rt 0x7B 1 0 6 7 1) [(6, 3), (7, 9)] [(Reg.SYNC_VAL_VALUE 1 3, 4), (Reg.SYNC_TMO_BEATS 1, 3)]), 1, 2, (rt 0x7B 1 0 6 7 1), by decide⟩,
   ⟨(at1f 1 2 (rt 0x7B 1 0 6 7 2) [(6, 3), (7, 2)] [(Reg.SYNC_VAL_VALUE 1 3, 4), (Reg.SYNC_TMO_BEATS 1, 3)]), 1, 2, (rt 0x7B 1 0 6 7 2), by decide⟩,
   ⟨((at1f 1 2 (rt 0x7B 1 0 6 7 0) [] [(Reg.SYNC_VAL_VALUE 1 3, 4), (Reg.SYNC_TMO_BEATS 1,
     3)]).modSlot 1 2 fun x => { x with wait := some (.object 3 2 false, 1) }), 1, 2, 3, 2, 1, by decide⟩,
   ⟨((at1f 1 2 (rt 0x7B 1 0 6 7 0) [] [(Reg.SYNC_VAL_VALUE 1 3, 4), (Reg.SYNC_TMO_BEATS 1,
     3)]).modSlot 1 2 fun x => { x with wait := some (.object 3 2 true, 1) }), 1, 2, 3, 2, 1, by decide⟩,
   ⟨((at1f 1 2 (rt 0x7B 1 0 6 7 0) [] [(Reg.SYNC_VAL_VALUE 1 3, 4), (Reg.SYNC_TMO_BEATS 1,
     3)]).modSlot 1 2 fun x => { x with wait := some (.cancel 5, 0) }), 1, 2, 5, 0, by decide⟩,
   ⟨((at1f 1 2 (rt 0x7B 1 0 6 7 0) [] [(Reg.SYNC_VAL_VALUE 1 3, 4), (Reg.SYNC_TMO_BEATS 1,
     3)]).modSlot 1 2 fun x => { x with wait := some (.object 3 9 false, 1) }), 1, 2, by decide⟩,
   ⟨((at1f 1 2 (rt 0x7B 1 0 6 7 0) [] [(Reg.SYNC_VAL_VALUE 1 3, 4), (Reg.SYNC_TMO_BEATS 1,
     3)]).modSlot 1 2 fun x => { x with wait := some (.object 3 9 false, 3) }), 1, 2, (.object 3 9 false), 3, by decide⟩,
   ⟨((at_ 6 [(Reg.SYNC_TMO_BEATS 1, 3)]).modCtx 1 5 fun x => { x with act := some { armOf with marks := [⟨3, 1, 1⟩], waited := 3 } }), 1, 5,
     { armOf with marks := [⟨3, 1, 1⟩], waited := 3 }, ⟨3, 1, 1⟩, [], by decide⟩,
   ⟨((at1f 1 2 0x13 [] [(Reg.SYNC_TMO_BEATS 1, 3)]).modCtx 1 5 fun x => { x with act := some armOf, stall := some (2, 3) }), 1, 5, armOf, 2, 3,
     by decide⟩,
   ⟨((at1f 1 2 0x13 [] [(Reg.SYNC_TMO_BEATS 1,
     3)]).modArr 1 0 fun x => { x with cur := some { op := opOf .astream 1 2, dv := 2 ^ 128 + 0x200 * 2 ^ 256 }, stall := some (2, 3) }), 1, 0,
     { op := opOf .astream 1 2, dv := 2 ^ 128 + 0x200 * 2 ^ 256 }, 2, 3, by decide⟩,
   ⟨((at1f 1 2 0x13 [] [(Reg.SYNC_TMO_BEATS 1, 3)]).modEng 1 0 fun x => { x with cur := some { op := vop, dv := 0 }, stall := some (2, 3) }), 1, 0,
     { op := vop, dv := 0 }, 2, 3, by decide⟩⟩

theorem wit_BlockEndsAndArrivals :
    (∃ (s : State) (site : Site) (n : SlotId) (w b : Nat), s.atWord site n w ∧ opcodeIs w 0x7B 2 ∧ wRs2 w = 0 ∧ wF7 w < 2 ∧ b < 64
      ∧ (s.x site n (wRs1 w)).toNat = b + 2 ^ 15
      ∧ ((s.flag (Reg.BAR_CFG_EN b) = false ∨ (s.barMask site b).testBit n = false ∨ s.barTile b = false))) ∧
    (∃ (s : State) (site : Site) (n : SlotId) (w b g : Nat), s.atWord site n w ∧ opcodeIs w 0x7B 2 ∧ wRs2 w = 0 ∧ wF7 w < 2 ∧ b < 64
      ∧ (s.x site n (wRs1 w)).toNat = b + 2 ^ 15 ∧ s.flag (Reg.BAR_CFG_EN b) = true ∧ (s.barMask site b).testBit n = true ∧ s.barTile b = true
      ∧ g = (Store.get 0 (s.slot site n).arrived b + ((s.slot site n).blk.bars.filter fun p => p.1 == b && p.2.2.isSome).length) % 2 ^ 16) ∧
    (∃ (s : State) (site : Site) (n : SlotId) (w : Nat), s.atWord site n w ∧ opcodeIs w 0x7B 3 ∧ wRd w = 0 ∧ wRs2 w = 0 ∧ wF7 w = 0
      ∧ (s.slot site n).blk.last = true ∧ (s.slot site n).blk.failed = false) ∧
    (∃ (s : State) (site : Site) (n : SlotId) (w nxt : Nat), s.atWord site n w ∧ opcodeIs w 0x7B 3 ∧ wRd w = 0 ∧ wRs2 w = 0 ∧ wF7 w < 2
      ∧ (s.slot site n).blk.last = false ∧ (s.slot site n).blk.failed = false ∧ s.clean site
      ∧ ((wF7 w = 0 → nxt = (if s.fld (Reg.SLOT_CFG_ENTRIES site n) ≤ s.fld (Reg.SLOT_STATUS_ENTRY site n) + 1 then 0 else s.fld (Reg.SLOT_STATUS_ENTRY site n) + 1)))
      ∧ ((wF7 w = 1 → nxt = (s.x site n (wRs1 w)).toNat ∧ nxt < s.fld (Reg.SLOT_CFG_ENTRIES site n)))) ∧
    (∃ (s : State) (site : Site) (n : SlotId) (w : Nat), s.atWord site n w ∧ opcodeIs w 0x7B 6 ∧ wRs1 w = 0 ∧ wRs2 w = 0 ∧ wF7 w = 0) :=
  ⟨⟨(at1f 1 2 (rt 0x7B 2 5 6 0 0) [(6, 0x8003)] []), 1, 2, (rt 0x7B 2 5 6 0 0), 3, by decide⟩,
   ⟨(at1f 1 2 (rt 0x7B 2 5 6 0 0) [(6, 0x8003)] [(Reg.BAR_CFG_EN 3, 1), (⟨Reg.BAR_PART 1 0, 0, 32⟩, 0x4000)]), 1, 2, (rt 0x7B 2 5 6 0 0), 3, 0,
     by decide⟩,
   ⟨((at1f 1 2 (rt 0x7B 3 0 0 0 0) [] []).modBlk 1 2 fun x => { x with last := true }), 1, 2, (rt 0x7B 3 0 0 0 0), by decide⟩,
   ⟨(at1f 1 2 (rt 0x7B 3 0 0 0 0) [] []), 1, 2, (rt 0x7B 3 0 0 0 0), 0, by decide⟩,
   ⟨(at1f 1 2 (rt 0x7B 6 5 0 0 0) [] [(⟨Reg.BEAT_COUNT, 0, 32⟩, 9)]), 1, 2, (rt 0x7B 6 5 0 0 0), by decide⟩⟩

theorem wit_BatcherGathersRows :
    (∃ (s : State) (site : Site) (n : SlotId) (w : Nat), s.atWord site n w ∧ opcodeIs w 0x7B 4 ∧ isVector site = false ∧ wRs2 w = 0 ∧ wF7 w < 4
      ∧ s.flag (Reg.BATCH_CFG_EN site) = true ∧ (s.arr site (wF7 w)).batch.length < 127) ∧
    (∃ (s : State) (site : Site) (n : SlotId) (w : Nat) (rows : List Nat), s.atWord site n w ∧ opcodeIs w 0x7B 4 ∧ isVector site = false ∧ wRs2 w = 0
      ∧ wF7 w < 4 ∧ s.flag (Reg.BATCH_CFG_EN site) = true ∧ rows = (s.arr site (wF7 w)).batch ++ [(s.x site n (wRs1 w)).toNat] ∧ rows.length = 128) ∧
    (∃ (s : State) (site : Site) (n : SlotId) (w : Nat), s.atWord site n w ∧ opcodeIs w 0x7B 4 ∧ isVector site = false ∧ wRs2 w = 0 ∧ wF7 w < 4
      ∧ s.flag (Reg.BATCH_CFG_EN site) = true ∧ 128 ≤ (s.arr site (wF7 w)).batch.length) ∧
    (∃ (s : State) (site : Site) (n : SlotId) (w : Nat), s.atWord site n w ∧ opcodeIs w 0x7B 4 ∧ isVector site = false ∧ wRs2 w = 0 ∧ wF7 w < 4
      ∧ s.flag (Reg.BATCH_CFG_EN site) = false) ∧
    (∃ (s : State) (site : Site) (n : SlotId) (w : Nat), s.atWord site n w ∧ opcodeIs w 0x7B 5 ∧ isVector site = false ∧ wRd w = 0 ∧ wRs1 w = 0
      ∧ wRs2 w = 0 ∧ wF7 w < 4 ∧ (s.arr site (wF7 w)).batch ≠ [] ∧ roomIn (s.arr site (wF7 w)).queue (s.fld (Reg.BATCH_CFG_SLOT site)) = false) ∧
    (∃ (s : State) (site : Site) (n : SlotId) (w : Nat), s.atWord site n w ∧ opcodeIs w 0x7B 5 ∧ isVector site = false ∧ wRd w = 0 ∧ wRs1 w = 0
      ∧ wRs2 w = 0 ∧ wF7 w < 4 ∧ (s.arr site (wF7 w)).batch = []) ∧
    (∃ (s : State) (site : Site) (n : SlotId) (w : Nat), s.atWord site n w ∧ opcodeIs w 0x7B 5 ∧ isVector site = false ∧ wRd w = 0 ∧ wRs1 w = 0
      ∧ wRs2 w = 0 ∧ wF7 w < 4 ∧ (s.arr site (wF7 w)).batch ≠ [] ∧ roomIn (s.arr site (wF7 w)).queue (s.fld (Reg.BATCH_CFG_SLOT site)) = true) ∧
    (∃ (s : State) (site : Site) (a : ArrId), s.alive = true ∧ (s.arr site a).batch = []) ∧
    (∃ (s : State) (site : Site) (a : ArrId), s.alive = true ∧ s.live site = true ∧ isVector site = false
      ∧ ((s.fld (Reg.BATCH_CFG_LIMIT_BEATS site) ≠ 0
      ∧ s.fld (Reg.BATCH_CFG_LIMIT_BEATS site) ≤ s.fld (Reg.BATCH_STATUS_WAITED site a) ∨ 128 ≤ (s.arr site a).batch.length))
      ∧ (s.arr site a).batch ≠ [] ∧ roomIn (s.arr site a).queue (s.fld (Reg.BATCH_CFG_SLOT site)) = true) :=
  ⟨⟨(at1f 1 2 (rt 0x7B 4 5 6 0 1) [(6, 0x80)] [(Reg.BATCH_CFG_EN 1, 1)]), 1, 2, (rt 0x7B 4 5 6 0 1), by decide⟩,
   ⟨((at1f 1 2 (rt 0x7B 4 5 6 0 1) [(6, 0x80)] [(Reg.BATCH_CFG_EN 1, 1), (Reg.BATCH_DESC_ADDR 1 1,
     512)]).modArr 1 1 fun x => { x with batch := List.replicate 127 128 }), 1, 2, (rt 0x7B 4 5 6 0 1), (List.replicate 128 128), by decide⟩,
   ⟨((at1f 1 2 (rt 0x7B 4 5 6 0 1) [(6, 0x80)] [(Reg.BATCH_CFG_EN 1, 1), (Reg.BATCH_DESC_ADDR 1 1,
     512)]).modArr 1 1 fun x => { x with batch := List.replicate 128 128, queue := List.replicate 8 { id := 1, kind := .aload, slot := 0, blk := 1, f7 := 1, desc := 0 } }),
     1, 2, (rt 0x7B 4 5 6 0 1), by decide⟩,
   ⟨(at1f 1 2 (rt 0x7B 4 5 6 0 1) [(6, 0x80)] []), 1, 2, (rt 0x7B 4 5 6 0 1), by decide⟩,
   ⟨((at1f 1 2 (rt 0x7B 5 0 0 0 1) [] [(Reg.BATCH_CFG_EN 1,
     1)]).modArr 1 1 fun x => { x with batch := [128], queue := List.replicate 8 { id := 1, kind := .aload, slot := 0, blk := 1, f7 := 1, desc := 0 } }),
     1, 2, (rt 0x7B 5 0 0 0 1), by decide⟩,
   ⟨(at1f 1 2 (rt 0x7B 5 0 0 0 1) [] [(Reg.BATCH_CFG_EN 1, 1)]), 1, 2, (rt 0x7B 5 0 0 0 1), by decide⟩,
   ⟨((at1f 1 2 (rt 0x7B 5 0 0 0 1) [] [(Reg.BATCH_CFG_EN 1, 1)]).modArr 1 1 fun x => { x with batch := [128] }), 1, 2, (rt 0x7B 5 0 0 0 1),
     by decide⟩,
   ⟨(at_ 6 []), 1, 0, by decide⟩,
   ⟨((at_ 6 [(Reg.BATCH_CFG_LIMIT_BEATS 1, 2), (Reg.BATCH_STATUS_WAITED 1 0, 2)]).modArr 1 0 fun x => { x with batch := [128] }), 1, 0, by decide⟩⟩

theorem wit_ArrayOperationsRunAndComplete :
    (∃ (s : State) (site : Site) (a : ArrId) (o : Op) (as : List Nat) (d : Nat), s.alive = true ∧ s.live site = true ∧ isVector site = false
      ∧ (s.arr site a).queue.head? = some o ∧ o.kind = .aload ∧ as = (if o.gang then o.arrays else [a.val]) ∧ ((∀ b ∈ as, s.atHead site b o
      ∧ ∀ r ∈ (s.arr site b).runs, r.done = true)) ∧ s.descAt site o.desc = some d ∧ s.loadOk site o d = true ∧ s.clean site ∧ s.noFullBatch site) ∧
    (∃ (s : State) (site : Site) (a : ArrId) (o : Op) (d : Nat), s.alive = true ∧ s.live site = true ∧ isVector site = false
      ∧ (s.arr site a).queue.head? = some o ∧ o.kind = .astream ∧ ((∀ b ∈ o.arrays, s.atHead site b o ∧ (s.arr site b).inits = []
      ∧ ∀ r ∈ (s.arr site b).runs, r.op.kind = .aload ∧ r.done = true)) ∧ s.descAt site o.desc = some d ∧ s.streamOk site o d = true ∧ s.clean site
      ∧ s.noFullBatch site) ∧
    (∃ (s : State) (site : Site) (a : ArrId) (o : Op) (d : Nat), s.alive = true ∧ s.live site = true ∧ isVector site = false
      ∧ (s.arr site a).queue.head? = some o ∧ o.kind = .ainit ∧ ((∀ b ∈ o.arrays, s.atHead site b o ∧ s.bankHeld site b (s.workBank site b) = false
      ∧ ∀ r ∈ (s.arr site b).runs, r.op.kind = .aload ∨ r.done = true)) ∧ s.descAt site o.desc = some d ∧ s.ainitOk site o d = true ∧ s.clean site
      ∧ s.noFullBatch site ∧ bits d 21 5 = 0 ∧ bits d 26 1 = 0 ∧ bits o.f7 4 1 = 0) ∧
    (∃ (s : State) (site : Site) (a : ArrId) (r : Run) (i : Nat), s.alive = true ∧ s.live site = true ∧ (s.arr site a).cur = some r
      ∧ a.val ∈ r.op.arrays ∧ r.done = false ∧ r.op.kind = .astream ∧ r.fed ≠ 64 ∧ s.nextRow site r.dv r.row (r.op.arg - r.row) = some i
      ∧ s.clean site ∧ ((∀ b ∈ s.feeders site r.op, s.bankHeld site b r.bank = false ∧ (s.rowRanges site b r.op r.dv i).2 = none))) ∧
    (∃ (s : State) (site : Site) (a : ArrId) (r : Run) (i l : Nat), s.alive = true ∧ s.live site = true ∧ (s.arr site a).cur = some r
      ∧ s.feeders site r.op = [a.val] ∧ r.done = false ∧ r.op.kind = .astream ∧ r.fed ≠ 64 ∧ s.nextRow site r.dv r.row (r.op.arg - r.row) = some i
      ∧ s.clean site ∧ s.bankHeld site a r.bank = false ∧ (s.rowRanges site a r.op r.dv i).2 = some l ∧ l < 1024 ∧ r.bound.contains l = false
      ∧ s.land site l = 2 ∧ s.readerFirst site l (a + 1) = false) ∧
    (∃ (s : State) (site : Site) (a : ArrId) (r : Run) (i l : Nat), s.alive = true ∧ s.live site = true ∧ (s.arr site a).cur = some r
      ∧ s.feeders site r.op = [a.val] ∧ r.done = false ∧ r.op.kind = .astream ∧ r.fed ≠ 64 ∧ s.nextRow site r.dv r.row (r.op.arg - r.row) = some i
      ∧ s.clean site ∧ s.bankHeld site a r.bank = false ∧ (s.rowRanges site a r.op r.dv i).2 = some l ∧ r.bound.contains l = false
      ∧ s.land site l ≠ 2) ∧
    (∃ (s : State) (site : Site) (a : ArrId) (r : Run), s.alive = true ∧ s.live site = true ∧ (s.arr site a).cur = some r ∧ a.val ∈ r.op.arrays
      ∧ r.done = false ∧ r.op.kind = .astream ∧ ((r.fed = 64 ∨ s.nextRow site r.dv r.row (r.op.arg - r.row) = none))) ∧
    (∃ (s : State) (site : Site) (a : ArrId) (row : Bool) (entry : Fin 1024) (col : Fin 64) (r : Run), s.alive = true ∧ s.live site = true
      ∧ ((s.arr site a).runs.find? fun r => r.op.kind == .astream && r.total != 0) = some r ∧ (s.slot site r.op.slot).blk.failed = false) ∧
    (∃ (s : State) (site : Site) (a : ArrId), s.alive = true ∧ s.live site = true ∧ (s.arr site a).active = true ∧ (s.arr site a).loading = false
      ∧ (s.arr site a).idle < 256 ∧ s.flag (Reg.ARR_CTL_DUMMY_EN site a) = true) ∧
    (∃ (s : State) (site : Site) (a : ArrId), s.alive = true ∧ s.live site = true ∧ (s.arr site a).active = true ∧ (s.arr site a).loading = false
      ∧ (((s.arr site a).idle = 256 ∨ s.flag (Reg.ARR_CTL_DUMMY_EN site a) = false))) ∧
    (∃ (s : State) (site : Site) (a : ArrId) (r : Run), s.alive = true ∧ s.live site = true ∧ s.firstDone site a = some r ∧ r.op.kind = .aload
      ∧ r.op.arrays = [a.val] ∧ r.op.gang = false ∧ s.clean site) ∧
    (∃ (s : State) (site : Site) (a : ArrId) (r : Run) (sh : List (Nat × Rec)), s.alive = true ∧ s.live site = true ∧ s.firstDone site a = some r
      ∧ r.op.kind = .aload ∧ r.op.gang = true ∧ s.sharesOf site r.op = some sh ∧ s.clean site) ∧
    (∃ (s : State) (site : Site) (a : ArrId) (r : Run) (sh : List (Nat × Rec)), s.alive = true ∧ s.live site = true ∧ s.firstDone site a = some r
      ∧ r.op.kind = .astream ∧ r.op.batch = none ∧ s.sharesOf site r.op = some sh ∧ s.clean site) ∧
    (∃ (s : State) (site : Site) (a : ArrId) (r : Run) (sh : List (Nat × Rec)) (rows : List Nat), s.alive = true ∧ s.live site = true
      ∧ s.firstDone site a = some r ∧ r.op.kind = .astream ∧ r.op.batch = some rows ∧ s.sharesOf site r.op = some sh ∧ s.clean site
      ∧ ((bits r.dv 320 23 + 4 * rows.length ≤ bits r.dv 256 23 ∨ bits r.dv 256 23 + 16 ≤ bits r.dv 320 23))) ∧
    (∃ (s : State) (site : Site) (a : ArrId) (r : Run) (l : List Run), s.alive = true ∧ s.live site = true ∧ (s.arr site a).inits = r :: l
      ∧ r.op.arrays = [a.val] ∧ s.clean site) :=
  ⟨⟨(desc ((at1f 1 2 0x13 [] []).modArr 1 0 fun x => { x with queue := [opOf .aload 1 0] }) 1 64 (0x1000 + 2 ^ 128 + 32 * 2 ^ 133 + 2 ^ 142 + 0x200 * 2 ^ 256)),
     1, 0, (opOf .aload 1 0), [0], (0x1000 + 2 ^ 128 + 32 * 2 ^ 133 + 2 ^ 142 + 0x200 * 2 ^ 256), by decide⟩,
   ⟨(desc ((at1f 1 2 0x13 [] []).modArr 1 0 fun x => { x with queue := [opOf .astream 1 2] }) 1 64 (2 ^ 128 + 0x200 * 2 ^ 256)), 1, 0,
     (opOf .astream 1 2), (2 ^ 128 + 0x200 * 2 ^ 256), by decide⟩,
   ⟨(desc ((at1f 1 2 0x13 [] []).modArr 1 0 fun x => { x with queue := [opOf .ainit 1 0] }) 1 64 (4 * 2 ^ 10 + 0x200 * 2 ^ 128)), 1, 0,
     (opOf .ainit 1 0), (4 * 2 ^ 10 + 0x200 * 2 ^ 128), by decide⟩,
   ⟨((at1f 1 2 0x13 [] []).modArr 1 0 fun x => { x with cur := some { op := opOf .astream 1 2, dv := 2 ^ 128 + 0x200 * 2 ^ 256 }, k := 32, n := 1 }),
     1, 0, { op := opOf .astream 1 2, dv := 2 ^ 128 + 0x200 * 2 ^ 256 }, 0, by decide⟩,
   ⟨((at1f 1 2 0x13 [] [(Reg.LAND_STATE_STATE 1 5,
     2)]).modArr 1 0 fun x => { x with cur := some { op := opOf .astream 1 2, dv := (5 + 2 ^ 23 + 2 ^ 24 + 2 ^ 32 + 2 ^ 128 + 0x200 * 2 ^ 256) }, k := 1, n := 1 }),
     1, 0, { op := opOf .astream 1 2, dv := (5 + 2 ^ 23 + 2 ^ 24 + 2 ^ 32 + 2 ^ 128 + 0x200 * 2 ^ 256) }, 0, 5, by decide⟩,
   ⟨((at1f 1 2 0x13 [] []).modArr 1 0 fun x => { x with cur := some { op := opOf .astream 1 2, dv := (5 + 2 ^ 23 + 2 ^ 24 + 2 ^ 32 + 2 ^ 128 + 0x200 * 2 ^ 256) } }),
     1, 0, { op := opOf .astream 1 2, dv := (5 + 2 ^ 23 + 2 ^ 24 + 2 ^ 32 + 2 ^ 128 + 0x200 * 2 ^ 256) }, 0, 5, by decide⟩,
   ⟨((at1f 1 2 0x13 [] []).modArr 1 0 fun x => { x with cur := some { op := opOf .astream 1 2, dv := 2 ^ 128 + 0x200 * 2 ^ 256, fed := 64, total := 64 } }),
     1, 0, { op := opOf .astream 1 2, dv := 2 ^ 128 + 0x200 * 2 ^ 256, fed := 64, total := 64 }, by decide⟩,
   ⟨((at1f 1 2 0x13 [] []).modArr 1 0 fun x => { x with cur := some { op := opOf .astream 1 2, dv := 2 ^ 128 + 0x200 * 2 ^ 256, total := 5 } }), 1,
     0, true, 7, 9, { op := opOf .astream 1 2, dv := 2 ^ 128 + 0x200 * 2 ^ 256, total := 5 }, by decide⟩,
   ⟨((at1f 1 2 0x13 [] [(Reg.ARR_CTL_DUMMY_EN 1 0, 1)]).modArr 1 0 fun x => { x with active := true, idle := 3 }), 1, 0, by decide⟩,
   ⟨((at1f 1 2 0x13 [] []).modArr 1 0 fun x => { x with active := true, idle := 256 }), 1, 0, by decide⟩,
   ⟨((at1f 1 2 0x13 [] []).modArr 1 0 fun x => { x with cur := some { op := opOf .aload 1 2, dv := (0x1000 + 2 ^ 128 + 32 * 2 ^ 133 + 2 ^ 142 + 0x200 * 2 ^ 256), done := true } }),
     1, 0, { op := opOf .aload 1 2, dv := (0x1000 + 2 ^ 128 + 32 * 2 ^ 133 + 2 ^ 142 + 0x200 * 2 ^ 256), done := true }, by decide⟩,
   ⟨((at1f 1 2 0x13 [] []).modArr 1 0 fun x => { x with cur := some { op := opOf .aload 17 2, dv := (0x1000 + 2 ^ 128 + 32 * 2 ^ 133 + 2 ^ 142 + 0x200 * 2 ^ 256), done := true } }),
     1, 0, { op := opOf .aload 17 2, dv := (0x1000 + 2 ^ 128 + 32 * 2 ^ 133 + 2 ^ 142 + 0x200 * 2 ^ 256), done := true }, [(0, {})], by decide⟩,
   ⟨((at1f 1 2 0x13 [] []).modArr 1 0 fun x => { x with cur := some { op := opOf .astream 1 2, dv := (2 ^ 128 + 0x200 * 2 ^ 256), done := true } }),
     1, 0, { op := opOf .astream 1 2, dv := (2 ^ 128 + 0x200 * 2 ^ 256), done := true }, [(0, {})], by decide⟩,
   ⟨((at1f 1 2 0x13 [] []).modArr 1 0 fun x => { x with cur := some { op := { id := 1, kind := .astream, slot := 2, blk := 1, f7 := 1, desc := 64, arg := 2, batch := some [128, 256] }, dv := (2 ^ 128 + 0x200 * 2 ^ 256 + 0x300 * 2 ^ 320), done := true } }),
     1, 0,
     { op := { id := 1, kind := .astream, slot := 2, blk := 1, f7 := 1, desc := 64, arg := 2, batch := some [128, 256] }, dv := (2 ^ 128 + 0x200 * 2 ^ 256 + 0x300 * 2 ^ 320), done := true },
     [(0, {})], [128, 256], by decide⟩,
   ⟨((at1f 1 2 0x13 [] []).modArr 1 0 fun x => { x with inits := [{ op := opOf .ainit 1 2, dv := (4 * 2 ^ 10 + 0x200 * 2 ^ 128), done := true }] }),
     1, 0, { op := opOf .ainit 1 2, dv := (4 * 2 ^ 10 + 0x200 * 2 ^ 128), done := true }, [], by decide⟩⟩

theorem wit_VectorOperationsRun :
    (∃ (s : State) (site : Site) (e : EngId) (o : Op) (l : List Op) (d : Nat), s.alive = true ∧ s.live site = true ∧ (s.eng site e).cur = none
      ∧ s.fld (Reg.VE_STATUS_STATE site e) ≠ 6 ∧ (s.eng site e).queue = o :: l ∧ s.descAt site o.desc = some d ∧ s.vecOk site e o d = true
      ∧ s.clean site) ∧
    (∃ (s : State) (site : Site) (e : EngId) (r : VRun), s.alive = true ∧ s.live site = true ∧ (s.eng site e).cur = some r ∧ r.over = false) ∧
    (∃ (s : State) (site : Site) (e : EngId) (o : Op) (l : List Op) (d k : Nat), s.alive = true ∧ s.live site = true ∧ (s.eng site e).cur = none
      ∧ s.fld (Reg.VE_STATUS_STATE site e) ≠ 6 ∧ (s.eng site e).queue = o :: l ∧ s.descAt site o.desc = some d ∧ s.vecOk site e o d = true
      ∧ s.clean site ∧ o.kind ≠ .vcmpx ∧ 0 < o.vl ∧ (opd d 0).kind = 2 ∧ k = (opd d 0).addr % 1024 ∧ s.land site k ≠ 2) ∧
    (∃ (s : State) (site : Site) (e : EngId) (o : Op) (l : List Op), s.alive = true ∧ s.live site = true ∧ (s.eng site e).cur = none
      ∧ s.fld (Reg.VE_STATUS_STATE site e) ≠ 6 ∧ (s.eng site e).queue = o :: l ∧ ((s.descAt site o.desc = none ∨ ∃ d, s.descAt site o.desc = some d
      ∧ s.vecOk site e o d = false)) ∧ s.clean site ∧ s.open_ site o.slot o.blk = true ∧ o.slot < 4 ∧ (s.slot site o.slot).blk.failed = false) ∧
    (∃ (s : State) (site : Site) (e : EngId) (r : VRun), s.alive = true ∧ s.live site = true ∧ (s.eng site e).cur = some r ∧ r.over = true
      ∧ s.clean site) ∧
    (∃ (s : State) (site : Site) (e : EngId), s.alive = true ∧ s.live site = true ∧ (s.eng site e).active = true ∧ (s.eng site e).cur = none
      ∧ (s.eng site e).idle < 256 ∧ s.flag (Reg.VE_CTL_DUMMY_EN site e) = true) ∧
    (∃ (s : State) (site : Site) (e : EngId), s.alive = true ∧ s.live site = true ∧ (s.eng site e).active = true ∧ (s.eng site e).cur = none
      ∧ (((s.eng site e).idle = 256 ∨ s.flag (Reg.VE_CTL_DUMMY_EN site e) = false))) :=
  ⟨⟨(desc ((at1f 1 2 0x13 [] []).modEng 1 0 fun x => { x with queue := [vop] }) 1 64 (1 + 0x1000 * 2 ^ 7 + 2 ^ 192 + 0x2000 * 2 ^ 199 + 0x200 * 2 ^ 320)),
     1, 0, vop, [], (1 + 0x1000 * 2 ^ 7 + 2 ^ 192 + 0x2000 * 2 ^ 199 + 0x200 * 2 ^ 320), by decide⟩,
   ⟨(desc ((at1f 1 2 0x13 [] []).modEng 1 0 fun x => { x with cur := some { op := vop, dv := (1 + 0x1000 * 2 ^ 7 + 2 ^ 192 + 0x2000 * 2 ^ 199 + 0x200 * 2 ^ 320) } }) 1 64 (1 + 0x1000 * 2 ^ 7 + 2 ^ 192 + 0x2000 * 2 ^ 199 + 0x200 * 2 ^ 320)),
     1, 0, { op := vop, dv := (1 + 0x1000 * 2 ^ 7 + 2 ^ 192 + 0x2000 * 2 ^ 199 + 0x200 * 2 ^ 320) }, by decide⟩,
   ⟨(desc ((at1f 1 2 0x13 [] [(Reg.LAND_NSLOT_NSLOT 1,
     4)]).modEng 1 0 fun x => { x with queue := [vop] }) 1 64 (2 + 3 * 2 ^ 7 + 4 * 2 ^ 30 + 2 ^ 192 + 0x2000 * 2 ^ 199 + 0x200 * 2 ^ 320)), 1, 0,
     vop, [], (2 + 3 * 2 ^ 7 + 4 * 2 ^ 30 + 2 ^ 192 + 0x2000 * 2 ^ 199 + 0x200 * 2 ^ 320), 3, by decide⟩,
   ⟨((at1f 1 2 0x13 [] []).modEng 1 0 fun x => { x with queue := [vopBad] }), 1, 0, vopBad, [], by decide⟩,
   ⟨((at1f 1 2 0x13 [] []).modEng 1 0 fun x => { x with cur := some { op := vop, dv := (1 + 0x1000 * 2 ^ 7 + 2 ^ 192 + 0x2000 * 2 ^ 199 + 0x200 * 2 ^ 320), last := true } }),
     1, 0, { op := vop, dv := (1 + 0x1000 * 2 ^ 7 + 2 ^ 192 + 0x2000 * 2 ^ 199 + 0x200 * 2 ^ 320), last := true }, by decide⟩,
   ⟨((at1f 1 2 0x13 [] [(Reg.VE_CTL_DUMMY_EN 1 0, 1)]).modEng 1 0 fun x => { x with active := true }), 1, 0, by decide⟩,
   ⟨((at1f 1 2 0x13 [] []).modEng 1 0 fun x => { x with active := true, idle := 256 }), 1, 0, by decide⟩⟩

theorem wit_StreamTransfersMoveData :
    (∃ (s : State) (site : Site) (d : CtxId) (a : Arm), s.alive = true ∧ s.live site = true ∧ s.testing site 7 = false ∧ s.turn site = some d.val
      ∧ s.ready site d = some a ∧ armKind a.desc = 0 ∧ s.classTurn 0 site = true ∧ s.clean site) ∧
    (∃ (s : State) (site : Site) (d : CtxId) (a : Arm), s.alive = true ∧ s.live site = true ∧ s.testing site 7 = false ∧ s.turn site = some d.val
      ∧ s.ready site d = some a ∧ armKind a.desc = 1 ∧ armThrough a.desc = false ∧ s.classTurn 1 site = true ∧ s.clean site
      ∧ ((∀ x ∈ (s.ctx site d).xfers, x.id ≠ (s.cl site).nextOp))) ∧
    (∃ (s : State) (site : Site) (d : CtxId) (x : Xfer) (mem n : Nat) (low high : List (BitVec 16)), s.alive = true ∧ s.live site = true
      ∧ s.clean site ∧ (s.ctx site d).xfers = [x] ∧ armKind x.desc = 0 ∧ armLand x.desc = false ∧ armXpose x.desc = false ∧ armDeal x.desc = false
      ∧ x.lines < armLines x.desc ∧ x.dead = false ∧ x.epoch = s.fld (Reg.STR_STATE_EPOCH site d)
      ∧ mem = bits x.desc 64 48 + x.idx * bits x.desc 128 32 + 128 * x.lines ∧ n = min 128 (armBytes x.desc - 128 * x.lines) ∧ mem + n ≤ s.memSize
      ∧ s.poison = [] ∧ ((∀ k, k < 2 → (s.loadTries mem n ⟨d, low, high⟩ k).2 = false))) ∧
    (∃ (s : State) (site : Site) (d : CtxId) (x : Xfer) (low high : List (BitVec 16)), s.alive = true ∧ s.live site = true
      ∧ (s.ctx site d).xfers = [x] ∧ armKind x.desc = 0 ∧ x.lines + 1 < armLines x.desc ∧ x.dead = true
      ∧ s.rd64 (Reg.WASTED_FETCH_BYTES site) + 128 < 2 ^ 64) ∧
    (∃ (s : State) (site : Site) (d : CtxId) (x : Xfer) (mem : Nat), s.alive = true ∧ s.live site = true ∧ (s.ctx site d).xfers = [x]
      ∧ (s.cl site).xline = [] ∧ armKind x.desc = 1 ∧ x.dead = false ∧ x.bad = false ∧ x.waits = false ∧ x.acked = false
      ∧ mem = bits x.desc 64 48 + x.idx * bits x.desc 128 32 ∧ x.data.length = armBytes x.desc ∧ mem + armBytes x.desc ≤ s.memSize ∧ s.poison = []) ∧
    (∃ (s : State) (site : Site) (d : CtxId) (x : Xfer), s.alive = true ∧ s.live site = true ∧ (s.ctx site d).xfers = [x] ∧ (s.cl site).xline = []
      ∧ armKind x.desc = 0 ∧ armLines x.desc ≤ x.lines ∧ x.dead = false ∧ x.bad = false ∧ x.waits = false) ∧
    (∃ (s : State) (site : Site) (d : CtxId) (a : Arm) (m : Marker) (l : List Marker), s.alive = true ∧ s.live site = true
      ∧ (s.ctx site d).stop = false ∧ (s.ctx site d).act = some a ∧ a.marks = m :: l ∧ m.thr ≤ s.refValue site m.ref
      ∧ s.slotFirst site m.ref = false) ∧
    (∃ (s : State) (site : Site) (o : Op) (l : List Op) (dst n : Nat), s.alive = true ∧ s.live site = true ∧ s.testing site 7 = false ∧ s.clean site
      ∧ (s.cl site).fills = o :: l ∧ o.kind = .fill ∧ bits o.desc 96 16 = 1 ∧ dst = bits o.desc 23 23 ∧ n = bits o.desc 64 23) ∧
    (∃ (s : State) (site : Site) (o : Op) (l : List Op) (dst n : Nat), s.alive = true ∧ s.live site = true ∧ s.testing site 7 = false ∧ s.clean site
      ∧ (s.cl site).fills = o :: l ∧ o.kind = .copy ∧ bits o.desc 96 16 = 1 ∧ dst = bits o.desc 23 23 ∧ n = bits o.desc 64 23) ∧
    (∃ (s : State) (site : Site) (o : Op) (l : List Op) (k : List (Nat × Nat)), s.alive = true ∧ s.live site = true ∧ s.testing site 8 = false
      ∧ s.clean site ∧ (s.cl site).xcopies = o :: l ∧ (s.cl site).xline = (64, o.id) :: k ∧ bits o.desc 96 16 = 0) :=
  ⟨⟨(({ at_ 6 [] with tile := { grants := [(0, 9), (1, 9), (2, 9), (3, 9)] } }).modCtx 1 5 fun x => { x with act := some armOf }), 1, 5, armOf,
     by decide⟩,
   ⟨(({ at_ 6 [] with tile := { grants := [(0, 9), (1, 9), (2, 9), (3, 9)] } }).modCtx 1 5 fun x => { x with act := some { armOf with desc := armR + 1, sure := true } }),
     1, 5, { armOf with desc := armR + 1, sure := true }, by decide⟩,
   ⟨((pput (at_ 6 []) 0x1000 [1, 2, 3]).modCtx 1 5 fun x => { x with xfers := [xferOf] }), 1, 5, xferOf, 0x1000, 128, [], [7], by decide⟩,
   ⟨(((at_ 6 [])).modCtx 1 5 fun x => { x with xfers := [{ xferOf with desc := armR + 384 * 2 ^ 16, dead := true }] }), 1, 5,
     { xferOf with desc := armR + 384 * 2 ^ 16, dead := true }, [], [5], by decide⟩,
   ⟨(((at_ 6 [])).modCtx 1 5 fun x => { x with xfers := [{ xferOf with desc := armR + 1, data := List.replicate 128 7 }] }), 1, 5,
     { xferOf with desc := armR + 1, data := List.replicate 128 7 }, 0x1000, by decide⟩,
   ⟨(((at_ 6 [])).modCtx 1 5 fun x => { x with xfers := [{ xferOf with lines := 1 }] }), 1, 5, { xferOf with lines := 1 }, by decide⟩,
   ⟨((at_ 6 [(Reg.SYNC_VAL_VALUE 1 3, 4)]).modCtx 1 5 fun x => { x with act := some { armOf with marks := [⟨3, 4, 2⟩] } }), 1, 5,
     { armOf with marks := [⟨3, 4, 2⟩] }, ⟨3, 4, 2⟩, [], by decide⟩,
   ⟨((at_ 6 []).modCl 1 fun c => { c with fills := [{ opOf .fill 0 0x0102 with desc := 64 * 2 ^ 64 + 2 ^ 96 + 0x100 * 2 ^ 23 }] }), 1,
     { opOf .fill 0 0x0102 with desc := 64 * 2 ^ 64 + 2 ^ 96 + 0x100 * 2 ^ 23 }, [], 0x100, 64, by decide⟩,
   ⟨((poke (at_ 6 []) 1 0x100 [1, 2,
     3]).modCl 1 fun c => { c with fills := [{ opOf .copy 0 0 with desc := 64 * 2 ^ 64 + 2 ^ 96 + 0x200 * 2 ^ 23 + 0x100 }] }), 1,
     { opOf .copy 0 0 with desc := 64 * 2 ^ 64 + 2 ^ 96 + 0x200 * 2 ^ 23 + 0x100 }, [], 0x200, 64, by decide⟩,
   ⟨((at_ 6 []).modCl 1 fun c => { c with xcopies := [{ opOf .copy 0 0 with id := 9, desc := 8 * 2 ^ 64 }], xline := [(64, 9)] }), 1,
     { opOf .copy 0 0 with id := 9, desc := 8 * 2 ^ 64 }, [], [], by decide⟩⟩

theorem wit_BanksAndStoresAnswerWrites :
    (∃ (s : State) (q : Requester) (site : Site) (v : Word), s.takesWrite q (Reg.BANK_OFF_REQ site) v.toNat ∧ s.live site = true) ∧
    (∃ (s : State) (q : Requester) (site : Site) (v : Word), s.takesWrite q (Reg.BANK_ON_REQ site) v.toNat ∧ s.live site = true) ∧
    (∃ (s : State) (site : Site) (b : BankId), s.alive = true ∧ s.live site = true ∧ bankIn site b = true ∧ s.fld (Reg.BANK_STATE_POWER site b) = 1
      ∧ s.fld (Reg.BANK_STATE_PENDING site b) = 0) ∧
    (∃ (s : State) (site : Site) (b : BankId), s.alive = true ∧ s.live site = true ∧ bankIn site b = true ∧ s.fld (Reg.BANK_STATE_POWER site b) = 1
      ∧ s.fld (Reg.BANK_STATE_PENDING site b) ≠ 0 ∧ 64 ≤ s.fld (Reg.BANK_STATE_WAITED site b)) ∧
    (∃ (s : State) (site : Site) (b : BankId), s.alive = true ∧ s.live site = true ∧ bankIn site b = true ∧ s.fld (Reg.BANK_STATE_POWER site b) = 3) ∧
    (∃ (s : State) (q : Requester) (site : Site) (v : Word), s.takesWrite q (Reg.LAND_CTL site) v.toNat ∧ s.live site = true ∧ v.getLsbD 0 = true) ∧
    (∃ (s : State) (q : Requester) (site : Site) (v : Word) (k : Nat), s.takesWrite q (Reg.VE_PSTORE_DATA site) v.toNat ∧ s.live site = true
      ∧ s.pstoreKey site = some k) ∧
    (∃ (s : State) (q : Requester) (site : Site), s.portOpen q = true ∧ s.live site = true) ∧
    (∃ (s : State) (q : Requester) (w : Width) (site : Site) (v : Option Word), s.portOpen q = true ∧ w ≠ .word) :=
  ⟨⟨(at_ 4 []), (.core 0), 1, 5, by decide⟩,
   ⟨(at_ 4 [(Reg.BANK_STATE_POWER 1 2, 2)]), (.core 0), 1, 5, by decide⟩,
   ⟨(at_ 4 [(Reg.BANK_STATE_POWER 1 2, 1)]), 1, 2, by decide⟩,
   ⟨(at_ 4 [(Reg.BANK_STATE_POWER 1 2, 1), (Reg.BANK_STATE_PENDING 1 2, 1), (Reg.BANK_STATE_WAITED 1 2, 64)]), 1, 2, by decide⟩,
   ⟨(poke (at_ 4 [(Reg.BANK_STATE_POWER 1 2, 3)]) 1 0x80100 [1, 2]), 1, 2, by decide⟩,
   ⟨(at_ 4 [(Reg.LAND_NSLOT_NSLOT 1, 4), (Reg.LAND_STATE_STATE 1 2, 2)]), (.core 0), 1, 1, by decide⟩,
   ⟨(at_ 4 []), (.core 0), 1, 77, 0, by decide⟩,
   ⟨(at_ 4 []), (.core 0), 1, by decide⟩,
   ⟨(at_ 4 []), (.core 0), .half, 1, (some 5), by decide⟩⟩

theorem wit_SignalsAndBarriersAdvance :
    (∃ (s : State) (m : GMsg) (w : Way) (site o : Nat), s.fw = true ∧ m.ty = 6 ∧ s.waits m = true ∧ s.origin m = some w ∧ s.toMe m.dst.toNat = true
      ∧ (w.num, m.vch.val) ∉ s.tile.mute ∧ bits m.dst.toNat 25 1 = 0 ∧ bits m.dst.toNat 0 4 = 9 ∧ site = msgSite m ∧ o = m.aux.toNat % 64 ∧ o < 48
      ∧ s.live site = true) ∧
    (∃ (s : State) (m : GMsg) (w : Way) (o : Nat), s.fw = true ∧ m.ty = 6 ∧ s.waits m = true ∧ s.origin m = some w ∧ s.toMe m.dst.toNat = true
      ∧ (w.num, m.vch.val) ∉ s.tile.mute ∧ bits m.dst.toNat 25 1 = 1 ∧ bits m.dst.toNat 0 10 = 1 ∧ bits m.aux.toNat 14 2 = 1 ∧ o = m.aux.toNat % 256) ∧
    (∃ (s : State) (b : BarId) (node : BarNode) (a : BArr), s.fw = true ∧ s.flag (Reg.BAR_CFG_EN b) = true ∧ s.tile.arrivals = [a] ∧ a.bar = b.val
      ∧ a.node = BarNode.key node ∧ a.gen < 2 ^ 16 ∧ s.counts b a.node a.who = true ∧ (s.node b a.node).gen = a.gen
      ∧ (s.node b a.node).inCur.length + 1 < s.expected b a.node) ∧
    (∃ (s : State) (b : BarId) (node : BarNode) (a : BArr), s.fw = true ∧ s.flag (Reg.BAR_CFG_EN b) = true ∧ s.tile.arrivals = [a] ∧ a.bar = b.val
      ∧ a.node = BarNode.key node ∧ a.gen < 2 ^ 16 ∧ s.counts b a.node a.who = true ∧ (a.gen + 2 ^ 16 - (s.node b a.node).gen) % 2 ^ 16 = 1
      ∧ (s.node b a.node).inCur.length < s.expected b a.node) ∧
    (∃ (s : State) (b : BarId) (k : Site) (a : BArr), s.fw = true ∧ s.flag (Reg.BAR_CFG_EN b) = true ∧ s.tile.arrivals = [a] ∧ a.bar = b.val
      ∧ a.node = k.val ∧ a.who < 4 ∧ a.gen < 2 ^ 16 ∧ 2 ≤ (a.gen + 2 ^ 16 - (s.node b k).gen) % 2 ^ 16
      ∧ (a.gen + 2 ^ 16 - (s.node b k).gen) % 2 ^ 16 < 2 ^ 15) ∧
    (∃ (s : State) (b : BarId) (k : Site) (a : BArr), s.fw = true ∧ s.flag (Reg.BAR_CFG_EN b) = true ∧ s.tile.arrivals = [a] ∧ a.bar = b.val
      ∧ a.node = k.val ∧ a.gen < 2 ^ 16 ∧ s.trafficDone k a.who a.blk = true ∧ s.nodeDone b k = true ∧ (s.node b k).gen = a.gen
      ∧ (s.node b k).sent = false ∧ (s.node b k).inCur.length + 1 = s.expected b k) ∧
    (∃ (s : State) (b : BarId) (gen : BitVec 16), s.fw = true ∧ s.flag (Reg.BAR_CFG_EN b) = true ∧ s.barKind b = 0 ∧ s.barSpan b = 0
      ∧ (s.node b nDie).gen = gen.toNat ∧ (s.node b nDie).sent = true) ∧
    (∃ (s : State) (b : BarId) (gen beat : BitVec 16) (m : GMsg), s.fw = true ∧ s.flag (Reg.BAR_CFG_EN b) = true ∧ s.barKind b = 1
      ∧ s.ctlWaits (fun m => cmSub m == cmRelease && cmBar m == b.val && cmGen m == gen.toNat && cmVal m == beat.toNat) = some m
      ∧ 2 ^ 15 ≤ s.passed beat.toNat) ∧
    (∃ (s : State) (b : BarId) (gen beat : BitVec 16) (m : GMsg), s.fw = true ∧ s.flag (Reg.BAR_CFG_EN b) = true ∧ s.barKind b = 1
      ∧ s.ctlWaits (fun m => cmSub m == cmRelease && cmBar m == b.val && cmGen m == gen.toNat && cmVal m == beat.toNat) = some m
      ∧ s.passed beat.toNat < 2 ^ 15 ∧ s.stepBar b = false ∧ (s.node b nDie).gen = gen.toNat) ∧
    (∃ (s : State) (b : BarId) (r : Rel), s.fw = true ∧ s.tile.rels = [r] ∧ r.bar = b.val ∧ s.passed r.beat = 0 ∧ s.stepBar b = false
      ∧ (s.node b nDie).gen = r.gen) :=
  ⟨⟨{ at_ 6 [] with inbox := [{ vch := 0, ty := 6, dst := 0x19#32, aux := 3 + 2 ^ 32, data := [] }] },
     { vch := 0, ty := 6, dst := 0x19#32, aux := 3 + 2 ^ 32, data := [] }, .agent, 1, 3, by decide⟩,
   ⟨{ at_ 6 [] with inbox := [{ vch := 0, ty := 6, dst := 0x2000001#32, aux := 7 + 2 ^ 14 + 2 ^ 32, data := [] }] },
     { vch := 0, ty := 6, dst := 0x2000001#32, aux := 7 + 2 ^ 14 + 2 ^ 32, data := [] }, .agent, 7, by decide⟩,
   ⟨{ at_ 6 [(Reg.BAR_CFG_EN 3, 1), (⟨Reg.BAR_PART 1 0, 0, 32⟩, 0x6000)] with tile := { nodes := [], arrivals := [{ bar := 3, node := 1, gen := 0, who := 2 }] } },
     3, (.cluster 1), { bar := 3, node := 1, gen := 0, who := 2 }, by decide⟩,
   ⟨{ at_ 6 [(Reg.BAR_CFG_EN 3, 1), (⟨Reg.BAR_PART 1 0, 0, 32⟩, 0x6000)] with tile := { nodes := [], arrivals := [{ bar := 3, node := 1, gen := 1, who := 2 }] } },
     3, (.cluster 1), { bar := 3, node := 1, gen := 1, who := 2 }, by decide⟩,
   ⟨{ at_ 6 [(Reg.BAR_CFG_EN 3, 1), (⟨Reg.BAR_PART 1 0, 0, 32⟩, 0x6000)] with tile := { nodes := [], arrivals := [{ bar := 3, node := 1, gen := 2, who := 2 }] } },
     3, 1, { bar := 3, node := 1, gen := 2, who := 2 }, by decide⟩,
   ⟨{ at_ 6 [(Reg.BAR_CFG_EN 3, 1), (⟨Reg.BAR_PART 1 0, 0, 32⟩, 0x4000)] with tile := { nodes := [], arrivals := [{ bar := 3, node := 1, gen := 0, who := 2 }] } },
     3, 1, { bar := 3, node := 1, gen := 0, who := 2 }, by decide⟩,
   ⟨{ at_ 6 [(Reg.BAR_CFG_EN 3, 1)] with tile := { nodes := [(3 * 128 + 72, { sent := true })], arrivals := [] } }, 3, 0, by decide⟩,
   ⟨{ at_ 6 [(Reg.BAR_CFG_EN 3, 1), (Reg.BAR_CFG_KIND 3, 1)] with inbox := [(cmsg 4 3 0 9 0)] }, 3, 0, 9, (cmsg 4 3 0 9 0), by decide⟩,
   ⟨{ at_ 6 [(Reg.BAR_CFG_EN 3, 1), (Reg.BAR_CFG_KIND 3, 1)] with inbox := [(cmsg 4 3 0 0 0)] }, 3, 0, 0, (cmsg 4 3 0 0 0), by decide⟩,
   ⟨{ at_ 6 [(Reg.BAR_CFG_EN 3, 1), (Reg.BAR_CFG_KIND 3, 1), (⟨Reg.BEAT_COUNT, 0, 32⟩, 9)] with tile := { rels := [{ bar := 3, gen := 0, beat := 10 }] } },
     3, { bar := 3, gen := 0, beat := 10 }, by decide⟩⟩

theorem wit_WatchdogsReport :
    (∃ (s : State) (site : Site), s.inBeat = true ∧ s.live site = true ∧ s.fld (Reg.CL_WDOG_BEATS site) ≤ (s.cl site).wdog
      ∧ ((∃ p ∈ (s.cl site).slots, p.2.holdBar ≠ []))) ∧
    (∃ (s : State), s.alive = true ∧ ((s.ts = tsRunning ∨ s.ts = tsRecovering)) ∧ s.fld Reg.TILE_WDOG_BEATS ≤ s.tile.wdog) :=
  ⟨⟨(({ inBeat1 [(Reg.CL_WDOG_BEATS 1, 3)] with pending := [] }.modSlot 1 2 fun x => { x with holdBar := [(3, 0)] }).modCl 1 fun c => { c with wdog := 3 }),
     1, by decide⟩,
   ⟨{ at_ 6 [(Reg.TILE_WDOG_BEATS, 3)] with tile := { wdog := 3 } }, by decide⟩⟩

theorem wit_BucketsSealAndConvert :
    (∃ (s : State) (g : Fin 16) (i d : Nat), s.fw = true ∧ s.sealOpen g = true ∧ s.sealMet g = true ∧ i = s.fld (Reg.REDUCE_GST_NEXT g)
      ∧ d = s.redDesc g i ∧ descOk (s.redArrival g) d = true ∧ s.fld (Reg.REDUCE_GRP2_NBUCKET g) ≤ 4096) ∧
    (∃ (s : State) (g : Fin 16) (i d : Nat), s.fw = true ∧ s.sealOpen g = true ∧ s.sealMet g = true ∧ i = s.fld (Reg.REDUCE_GST_NEXT g)
      ∧ d = s.redDesc g i ∧ descOk (s.redArrival g) d = false) ∧
    (∃ (s : State) (g : Fin 16) (i : Nat) (b : Bucket) (d : Nat), s.fw = true ∧ i < 4096 ∧ s.tile.buckets = [(g.val * 4096 + i, b)]
      ∧ b.converting = true ∧ s.classTurn 0 64 = true ∧ b.want ≤ s.grantsLeft 0 ∧ d = s.redDesc g i) ∧
    (∃ (s : State) (g : Fin 16) (i : Nat) (b : Bucket), s.fw = true ∧ i < 4096 ∧ s.tile.buckets = [(g.val * 4096 + i, b)] ∧ b.converting = true
      ∧ s.classTurn 0 64 = true ∧ s.grantsLeft 0 < b.want) :=
  ⟨⟨(pput ({ red 33 0 0 [(Reg.TOBJ_VAL_VALUE 7, 1)] with tile := { grps := [(3, { sealing := true })] } }) 0x1000 (leBytes 64 redD)), 3, 0, redD,
     by decide⟩,
   ⟨(pput ({ red 33 0 0 [(Reg.TOBJ_VAL_VALUE 7, 1)] with tile := { grps := [(3, { sealing := true })] } }) 0x1000 (leBytes 64 (redD + 5))), 3, 0,
     (redD + 5), by decide⟩,
   ⟨(pput { red 33 0 0 [] with tile := { buckets := [(3 * 4096 + 2, { converting := true, want := 2 })], grants := [(0, 5)] } } 0x1080 (leBytes 64 redD)),
     3, 2, { converting := true, want := 2 }, redD, by decide⟩,
   ⟨{ red 33 0 0 [] with tile := { buckets := [(3 * 4096 + 2, { converting := true, want := 2 })], grants := [(0, 1)] } }, 3, 2,
     { converting := true, want := 2 }, by decide⟩⟩

theorem wit_SealsAreDeferred :
    (∃ (s : State) (g : Fin 16), (s.bucket g (s.fld (Reg.REDUCE_GST_NEXT g))).mine = true) ∧
    (∃ (s : State) (i : FlightId) (f : Flight) (g k : Nat), s.startsCmd i 0x41 f ∧ g = f.p 0 4 ∧ k = s.fld (Reg.REDUCE_GST_NEXT g) ∧ f.p 16 12 = k
      ∧ (s.bucket g k).mine = true) ∧
    (∃ (s : State) (g : Fin 16) (f : Flight) (k : Nat), s.fw = true ∧ s.sealOpen g = true ∧ s.flights = [f] ∧ f.opcode = 0x41 ∧ f.phase = .running
      ∧ f.p 0 4 = g.val ∧ k = s.fld (Reg.REDUCE_GST_NEXT g) ∧ f.p 16 12 = k ∧ descOk (s.redArrival g) (s.redDesc g k) = true) ∧
    (∃ (s : State) (g : Fin 16) (k : Nat), s.fw = true ∧ s.sealOpen g = true ∧ s.sealMet g = true ∧ s.flights = []
      ∧ k = s.fld (Reg.REDUCE_GST_NEXT g) ∧ descOk (s.redArrival g) (s.redDesc g k) = true) :=
  ⟨⟨{ red 33 0 0 [] with tile := { buckets := [(3 * 4096, { mine := true })] } }, 3, by decide⟩,
   ⟨{ (pput ({ red 33 0 0 [(Reg.TOBJ_VAL_VALUE 7, 1)] with tile := { grps := [(3, { sealing := true })] }, flights := [fl 0x41 3] }) 0x1000 (leBytes 64 redD)) with tile := { grps := [(3, { sealing := true })], buckets := [(3 * 4096, { mine := true })] } },
     i1, (fl 0x41 3), 3, 0, by decide⟩,
   ⟨(pput ({ red 33 0 0 [] with tile := { grps := [(3, { sealing := true })] }, flights := [flOn 0x41 3] }) 0x1000 (leBytes 64 redD)), 3,
     (flOn 0x41 3), 0, by decide⟩,
   ⟨(pput ({ red 33 0 0 [(Reg.TOBJ_VAL_VALUE 7, 1)] with tile := { grps := [(3, { sealing := true })] } }) 0x1000 (leBytes 64 redD)), 3, 0,
     by decide⟩⟩

theorem wit_NodesAddAndForward :
    (∃ (s s1 : State) (i : RedIn) (m : GMsg) (g k p u : Nat), s.redTakes i m rkUp s1 ∧ g = m.vch.val ∧ k = tagBucket m
      ∧ (s.redMask g).testBit i = true ∧ (s.bucket g k).closed = false ∧ p ∈ s.redInputs g ∧ p ≠ i.val
      ∧ ((∀ l ∈ Store.get [] (s.bucket g k).lines (tagLine m), l.inp ≠ p)) ∧ u = (if i.val < 4
      ∧ (s.edge i).ingress.contains m then msgUnits m else 0)) ∧
    (∃ (s s1 : State) (i : RedIn) (m : GMsg) (g k u : Nat) (ls : List RLine), s.redTakes i m rkUp s1 ∧ g = m.vch.val ∧ k = tagBucket m
      ∧ (s.redMask g).testBit i = true ∧ (s.bucket g k).closed = false ∧ u = (if i.val < 4 ∧ (s.edge i).ingress.contains m then msgUnits m else 0)
      ∧ ls = Store.get [] (s.bucket g k).lines (tagLine m) ++ [lineOf i u m] ∧ ((∀ p ∈ s.redInputs g, ∃ l ∈ ls, l.inp = p)) ∧ ((∀ l ∈ ls,
      residue l.words = l.res)) ∧ s.tile.upsets = [] ∧ (addExact [] ls).good = true ∧ s.redArrival g = false ∧ s.redRoot g = false ∧ s.redOut g < 4
      ∧ s.takesChannel (s.redOut g) g) ∧
    (∃ (s s1 : State) (i : RedIn) (m : GMsg) (g k u : Nat) (up : List Int) (ls : List RLine), s.redTakes i m rkUp s1 ∧ g = m.vch.val
      ∧ k = tagBucket m ∧ (s.redMask g).testBit i = true ∧ (s.bucket g k).closed = false ∧ u = (if i.val < 4
      ∧ (s.edge i).ingress.contains m then msgUnits m else 0) ∧ ls = Store.get [] (s.bucket g k).lines (tagLine m) ++ [lineOf i u m]
      ∧ ((∀ p ∈ s.redInputs g, ∃ l ∈ ls, l.inp = p)) ∧ ((∀ l ∈ ls, residue l.words = l.res)) ∧ s.tile.upsets = [up] ∧ (addExact up ls).good = false
      ∧ (addExact [] ls).good = true ∧ s.redArrival g = false ∧ s.redRoot g = false ∧ s.redOut g < 4 ∧ s.takesChannel (s.redOut g) g) ∧
    (∃ (s s1 : State) (i : RedIn) (m : GMsg) (g k u : Nat) (ls : List RLine), s.redTakes i m rkUp s1 ∧ g = m.vch.val ∧ k = tagBucket m
      ∧ (s.redMask g).testBit i = true ∧ (s.bucket g k).closed = false ∧ u = (if i.val < 4 ∧ (s.edge i).ingress.contains m then msgUnits m else 0)
      ∧ ls = Store.get [] (s.bucket g k).lines (tagLine m) ++ [lineOf i u m] ∧ ((∀ p ∈ s.redInputs g, ∃ l ∈ ls, l.inp = p)) ∧ ((∃ l ∈ ls,
      residue l.words ≠ l.res))) ∧
    (∃ (s s1 : State) (i : RedIn) (m : GMsg) (g k p : Nat), s.redTakes i m rkUpEnd s1 ∧ g = m.vch.val ∧ k = tagBucket m
      ∧ (s.redMask g).testBit i = true ∧ (s.bucket g k).closed = false ∧ residueOk m ∧ s.redRoot g = false ∧ p ∈ s.redInputs g ∧ p ≠ i.val
      ∧ ((∀ q ∈ (s.bucket g k).trailers, q.1 ≠ p))) ∧
    (∃ (s s1 : State) (i : RedIn) (m : GMsg) (g k : Nat), s.redTakes i m rkUpEnd s1 ∧ g = m.vch.val ∧ k = tagBucket m
      ∧ (s.redMask g).testBit i = true ∧ (s.bucket g k).closed = false ∧ residueOk m ∧ s.redRoot g = false ∧ s.redOut g < 4
      ∧ s.takesChannel (s.redOut g) g ∧ ((∀ p ∈ s.redInputs g, p = i.val ∨ ∃ q ∈ (s.bucket g k).trailers, q.1 = p))) ∧
    (∃ (s : State) (g : Fin 16) (i n : Nat) (b : Bucket), s.fw = true ∧ s.redOn g = true ∧ s.redRoot g = true ∧ i < 4096
      ∧ s.tile.buckets = [(g.val * 4096 + i, b)] ∧ b.closed = false ∧ b.since = some n ∧ s.fld (Reg.REDUCE_GRP1_DEADLINE g) ≤ n
      ∧ s.trailersIn g i = false) :=
  ⟨⟨(red 33 1 0 []), (red 33 1 0 []), 0, (redMsg 0 4), 3, 2, 5, 0, by decide⟩,
   ⟨{ (red 33 1 0 []) with tile := { buckets := [(3 * 4096 + 2, { lines := [(4, [{ inp := 5, words := List.replicate 8 7, nan := 0, sat := false, res := 56 }])] })] } },
     { (red 33 1 0 []) with tile := { buckets := [(3 * 4096 + 2, { lines := [(4, [{ inp := 5, words := List.replicate 8 7, nan := 0, sat := false, res := 56 }])] })] } },
     0, (redMsg 0 4), 3, 2, 0, [{ inp := 5, words := List.replicate 8 7, nan := 0, sat := false, res := 56 }, lineOf 0 0 (redMsg 0 4)], by decide⟩,
   ⟨{ (red 33 1 0 []) with tile := { buckets := [(3 * 4096 + 2, { lines := [(4, [{ inp := 5, words := List.replicate 8 7, nan := 0, sat := false, res := 56 }])] })], upsets := [[1]] } },
     { (red 33 1 0 []) with tile := { buckets := [(3 * 4096 + 2, { lines := [(4, [{ inp := 5, words := List.replicate 8 7, nan := 0, sat := false, res := 56 }])] })], upsets := [[1]] } },
     0, (redMsg 0 4), 3, 2, 0, [1], [{ inp := 5, words := List.replicate 8 7, nan := 0, sat := false, res := 56 }, lineOf 0 0 (redMsg 0 4)],
     by decide⟩,
   ⟨{ (red 33 1 0 []) with tile := { buckets := [(3 * 4096 + 2, { lines := [(4, [{ inp := 5, words := List.replicate 8 7, nan := 0, sat := false, res := 55 }])] })] } },
     { (red 33 1 0 []) with tile := { buckets := [(3 * 4096 + 2, { lines := [(4, [{ inp := 5, words := List.replicate 8 7, nan := 0, sat := false, res := 55 }])] })] } },
     0, (redMsg 0 4), 3, 2, 0, [{ inp := 5, words := List.replicate 8 7, nan := 0, sat := false, res := 55 }, lineOf 0 0 (redMsg 0 4)], by decide⟩,
   ⟨(red 33 1 0 []), (red 33 1 0 []), 0, (redMsg 1 0), 3, 2, 5, by decide⟩,
   ⟨{ red 33 1 0 [] with tile := { buckets := [(3 * 4096 + 2, { trailers := [(5, 0)] })] } },
     { red 33 1 0 [] with tile := { buckets := [(3 * 4096 + 2, { trailers := [(5, 0)] })] } }, 0, (redMsg 1 0), 3, 2, by decide⟩,
   ⟨{ red 33 0 1 [] with tile := { buckets := [(3 * 4096 + 2, { since := some 100000 })] } }, 3, 2, 100000, { since := some 100000 }, by decide⟩⟩

theorem wit_ResultsComeDown :
    (∃ (s s1 : State) (m : GMsg), s.fw = true ∧ m.ty = 8 ∧ tagKind m = rkDown ∧ s.redRoot m.vch.val = false ∧ s.redStale m = false
      ∧ s.redLocal m.vch.val = false ∧ s.downTake m = some s1 ∧ residueOk m) ∧
    (∃ (s s1 : State) (m : GMsg) (d a n : Nat), s.fw = true ∧ m.ty = 8 ∧ tagKind m = rkDown ∧ s.redRoot m.vch.val = false ∧ s.redStale m = false
      ∧ s.redLocal m.vch.val = true ∧ d = s.redDesc m.vch.val (tagBucket m) ∧ descOk (s.redArrival m.vch.val) d = true ∧ s.grantsLeft 1 ≠ 0
      ∧ s.downTake m = some s1 ∧ residueOk m ∧ m.data.length = 64 ∧ a = bits d 64 48 + 64 * tagLine m
      ∧ n = min 64 (dElems d * dOutSize d - 64 * tagLine m) ∧ a + n ≤ s.memSize) ∧
    (∃ (s s1 : State) (m : GMsg) (g i w : Nat), s.fw = true ∧ m.ty = 8 ∧ tagKind m = rkDownEnd ∧ g = m.vch.val ∧ i = tagBucket m
      ∧ w = (payload m).headD 0 ∧ s.downTake m = some s1 ∧ s.redStale m = false ∧ s.redLocal g = true ∧ residueOk m ∧ bits w 48 1 = 0
      ∧ bits w 47 1 = 0 ∧ (s.bucket g i).marked = false) ∧
    (∃ (s s1 : State) (m : GMsg) (g i : Nat), s.fw = true ∧ m.ty = 8 ∧ tagKind m = rkDownEnd ∧ g = m.vch.val ∧ i = tagBucket m
      ∧ s.downTake m = some s1 ∧ s.redStale m = false ∧ s.redLocal g = true ∧ residueOk m ∧ bits ((payload m).headD 0) 48 1 = 1
      ∧ ((s.ts = tsRunning ∨ s.ts = tsRecovering))) ∧
    (∃ (s s1 : State) (m : GMsg) (g i w : Nat), s.fw = true ∧ m.ty = 8 ∧ tagKind m = rkDownEnd ∧ g = m.vch.val ∧ i = tagBucket m
      ∧ w = (payload m).headD 0 ∧ s.downTake m = some s1 ∧ s.redStale m = false ∧ s.redLocal g = true ∧ residueOk m ∧ bits w 48 1 = 0
      ∧ bits w 47 1 = 1 ∧ (s.bucket g i).missing = 0 ∧ s.flag Reg.ERR_CFG_STEP_EN = true) :=
  ⟨⟨(red 1 1 0 []), (red 1 1 0 []), (redMsg 2 0), by decide⟩,
   ⟨(pput { red 33 1 0 [] with tile := { grants := [(1, 5)] } } 0x1080 (leBytes 64 redD)),
     (pput { red 33 1 0 [] with tile := { grants := [(1, 5)] } } 0x1080 (leBytes 64 redD)), (redMsg 2 0), redD, 0x5000, 64, by decide⟩,
   ⟨(pput { red 33 1 0 [] with tile := { grants := [(1, 5)] } } 0x1080 (leBytes 64 redD)),
     (pput { red 33 1 0 [] with tile := { grants := [(1, 5)] } } 0x1080 (leBytes 64 redD)), (redMsg 3 0), 3, 2, 0, by decide⟩,
   ⟨(pput { red 33 1 0 [] with tile := { grants := [(1, 5)] } } 0x1080 (leBytes 64 redD)),
     (pput { red 33 1 0 [] with tile := { grants := [(1, 5)] } } 0x1080 (leBytes 64 redD)),
     { redMsg 3 0 with data := leBytes 8 (2 ^ 48) ++ leBytes 8 0x0404 ++ List.replicate 48 0, aux := (redMsg 3 0).aux + 9 }, 3, 2, by decide⟩,
   ⟨(pput { red 33 1 0 [(Reg.ERR_CFG_STEP_EN, 1)] with tile := { grants := [(1, 5)] } } 0x1080 (leBytes 64 redD)),
     (pput { red 33 1 0 [(Reg.ERR_CFG_STEP_EN, 1)] with tile := { grants := [(1, 5)] } } 0x1080 (leBytes 64 redD)),
     { redMsg 3 0 with data := leBytes 8 (2 ^ 47) ++ List.replicate 56 0, aux := (redMsg 3 0).aux + 128 }, 3, 2, (2 ^ 47), by decide⟩⟩

theorem wit_StepRepeats :
    (∃ (s : State) (step : Word) (attempt : Fin 4) (gen : BitVec 16) (m : GMsg), s.fw = true ∧ s.flag Reg.ERR_CFG_STEP_EN = true
      ∧ s.holdsRoot s.stepBarrier = true
      ∧ s.ctlWaits (fun m => cmSub m == cmRequest && cmBar m == s.stepBarrier + attempt.val * 64 && cmGen m == gen.toNat && cmVal m == step.toNat) = some m
      ∧ (s.node s.stepBarrier nRoot).gen = gen.toNat ∧ (s.node s.stepBarrier nRoot).sent = false ∧ s.tile.rep.granted = none
      ∧ s.fld Reg.ERR_STEP_ATTEMPT ≤ attempt.val) ∧
    (∃ (s : State) (beat : BitVec 16) (attempt : Fin 4) (m : GMsg), s.fw = true ∧ s.recovers = true
      ∧ s.ctlWaits (fun m => cmSub m == cmRepeat && cmVal m == beat.toNat + attempt.val * 2 ^ 16) = some m) ∧
    (∃ (s : State) (beat attempt : Nat), s.fw = true ∧ s.recovers = true ∧ s.ts ≠ tsPaused ∧ s.tile.rep.named = some (beat, attempt) ∧ attempt < 4
      ∧ s.passed beat < 2 ^ 15) ∧
    (∃ (s : State) (p : Snap), s.fw = true ∧ s.recovers = true ∧ s.tile.rep.rewound = true ∧ s.tile.rep.ready = false ∧ s.unitsIdle = true
      ∧ s.swapPending = false ∧ s.tile.errs = [] ∧ s.tile.snap = some p ∧ p.regs.Pairwise (fun a b => a.1 < b.1) ∧ p.slots = []) ∧
    (∃ (s : State) (tile : Fin 8) (m : GMsg) (l : List Nat), s.fw = true ∧ s.flag Reg.ERR_CFG_STEP_EN = true ∧ s.holdsRoot s.stepBarrier = true
      ∧ s.ctlWaits (fun m => cmSub m == cmRestart && cmBar m == s.stepBarrier && cmFrom m % 8 == tile.val) = some m ∧ s.tile.rep.arrived = l
      ∧ cmFrom m ∉ l) ∧
    (∃ (s : State) (m : GMsg), s.fw = true ∧ s.recovers = true ∧ s.ctlWaits (fun m => cmSub m == cmAbandon) = some m) :=
  ⟨⟨{ (at_ 6 [(Reg.ERR_CFG_STEP_EN, 1), (Reg.BAR_ROOT_SYS_ROOT, 0x02000001), (Reg.BAR_ROOT_PKG_MASTER, 0x02000001), (Reg.ERR_CFG_REPEAT_MAX, 3), (Reg.BAR_CFG_KIND 0, 1)]) with inbox := [(cmsg 5 64 0 0 0)] },
     0, 1, 0, (cmsg 5 64 0 0 0), by decide⟩,
   ⟨{ (at_ 6 [(Reg.ERR_CFG_STEP_EN, 1)]) with inbox := [(cmsg 6 0 0 (5 + 2 ^ 16) 0)] }, 5, 1, (cmsg 6 0 0 (5 + 2 ^ 16) 0), by decide⟩,
   ⟨{ at_ 6 [(⟨Reg.BEAT_COUNT, 0, 32⟩, 9), (Reg.ERR_CFG_STEP_EN, 1)] with tile := { rep := { named := some (10, 1) } } }, 10, 1, by decide⟩,
   ⟨{ at_ 6 [(Reg.ERR_CFG_STEP_EN, 1)] with tile := { rep := { rewound := true }, snap := some { regs := [(Reg.TILE_WDOG, 77)], slots := [], nodes := [] } } },
     { regs := [(Reg.TILE_WDOG, 77)], slots := [], nodes := [] }, by decide⟩,
   ⟨{ (at_ 6 [(Reg.ERR_CFG_STEP_EN, 1), (Reg.BAR_ROOT_SYS_ROOT, 0x02000001), (Reg.BAR_ROOT_PKG_MASTER, 0x02000001), (Reg.ERR_CFG_REPEAT_MAX, 3), (Reg.BAR_CFG_KIND 0, 1)]) with inbox := [(cmsg 8 0 0 0 2)] },
     2, (cmsg 8 0 0 0 2), [], by decide⟩,
   ⟨{ (at_ 6 [(Reg.ERR_CFG_STEP_EN, 1)]) with inbox := [(cmsg 7 0 0 0 0)] }, (cmsg 7 0 0 0 0), by decide⟩⟩

theorem wit_TestsAndSwaps :
    (∃ (s : State) (u : TestUnit) (e : PErr) (c : Site), s.awake = true ∧ s.recovers = true ∧ s.flights = [] ∧ s.mon.test = none ∧ s.mon.input = []
      ∧ s.tile.errs = [e] ∧ e.unit = u ∧ e.ready = true ∧ e.site = some c.val ∧ e.level = 1 ∧ e.blk ≠ 0 ∧ e.cls ≠ 0x0C ∧ e.slot < 4
      ∧ s.slotState c e.slot = slFault ∧ s.clean c) ∧
    (∃ (s : State) (u : TestUnit) (r : TestEnd) (e : PErr), s.awake = true ∧ s.recovers = true ∧ s.mon.input = [] ∧ s.tile.errs = [e] ∧ e.unit = u
      ∧ e.ready = true ∧ e.site = none ∧ r ≠ .pass) ∧
    (∃ (s : State) (a : Fin 4) (e : PErr) (c : Site) (accOk : Bool), s.failsArray a e c ∧ s.flag Reg.ERR_CFG_STEP_EN = false) ∧
    (∃ (s : State) (a : Fin 4) (e : PErr) (c : Site), s.failsArray a e c ∧ s.flag Reg.ERR_CFG_STEP_EN = true ∧ s.fld (Reg.CL_RETIRED_UNITS c) = 0
      ∧ s.fld (Reg.CL_REDIRECT_MAP c) = 0xE4 ∧ (s.fld (Reg.CL_REDIRECT_ACC_OK c)).testBit a = true) ∧
    (∃ (s : State) (a : Fin 4) (e : PErr) (c : Site), s.failsArray a e c ∧ s.flag Reg.ERR_CFG_STEP_EN = true) ∧
    (∃ (s : State) (site : Site) (spare : Nat), s.fw = true ∧ s.recovers = true ∧ s.tile.swapping = true ∧ s.live site = true
      ∧ s.flag (Reg.CL_RETIRED_SWAP_PENDING site) = true ∧ ((∀ k, k < site.val → s.live k = true → s.flag (Reg.CL_RETIRED_SWAP_PENDING k) = false))
      ∧ s.canSwap site = true ∧ spare = site / 8 * 8 + s.fld (Reg.REGION_MAP_OUT_COL (site / 8)) ∧ spare ≠ site.val) ∧
    (∃ (s : State) (site : Site), s.fw = true ∧ s.recovers = true ∧ s.tile.swapping = true ∧ s.live site = true
      ∧ s.flag (Reg.CL_RETIRED_SWAP_PENDING site) = true ∧ ((∀ k, k < site.val → s.live k = true → s.flag (Reg.CL_RETIRED_SWAP_PENDING k) = false))
      ∧ s.canSwap site = false) ∧
    (∃ (s : State) (i : FlightId) (f : Flight) (site spare : Nat), s.startsCmd i 0x52 f ∧ site = f.p 0 6
      ∧ spare = site / 8 * 8 + s.fld (Reg.REGION_MAP_OUT_COL (site / 8)) ∧ spare ≠ site) :=
  ⟨⟨(withErr (at_ 6 [(Reg.SLOT_STATUS_STATE 1 2, 7)]) (errOf (some 1))), (.unit 1 0), (errOf (some 1)), 1, by decide⟩,
   ⟨(withErr (at_ 6 []) (errOf none)), (.unit 1 0), (.fail false), (errOf none), by decide⟩,
   ⟨(withErr (at_ 6 [(Reg.SLOT_STATUS_STATE 1 2, 7), (Reg.ERR_CFG_STEP_EN, 0), (Reg.REGION_MAP_NO_SPARE 0,
     0)]) { errOf (some 1) with unit := .unit 1 3 }), 2, { errOf (some 1) with unit := .unit 1 3 }, 1, true, by decide⟩,
   ⟨(withErr (at_ 6 [(Reg.SLOT_STATUS_STATE 1 2, 7), (Reg.ERR_CFG_STEP_EN, 1), (Reg.REGION_MAP_NO_SPARE 0,
     0)]) { errOf (some 1) with unit := .unit 1 3 }), 2, { errOf (some 1) with unit := .unit 1 3 }, 1, by decide⟩,
   ⟨(withErr (at_ 6 [(Reg.SLOT_STATUS_STATE 1 2, 7), (Reg.ERR_CFG_STEP_EN, 1), (Reg.REGION_MAP_NO_SPARE 0,
     0)]) { errOf (some 1) with unit := .unit 1 3 }), 2, { errOf (some 1) with unit := .unit 1 3 }, 1, by decide⟩,
   ⟨{ at_ 6 [(Reg.CL_RETIRED_SWAP_PENDING 1, 1), (Reg.REGION_MAP_NO_SPARE 0, 0)] with tile := { swapping := true } }, 1, 0, by decide⟩,
   ⟨{ at_ 6 [(Reg.CL_RETIRED_SWAP_PENDING 1, 1), (Reg.REGION_MAP_NO_SPARE 0, 1)] with tile := { swapping := true } }, 1, by decide⟩,
   ⟨(cmd 4 [(Reg.REGION_MAP_NO_SPARE 0, 0)] (fl 0x52 1)), i1, (fl 0x52 1), 1, 0, by decide⟩⟩

theorem wit_QueuesFetchPackets :
    (∃ (s : State) (v : DWord) (q : Nat), s.awake = true ∧ s.bellAtOnce v ∧ v.toNat < 2 ^ 32 ∧ q = bits v.toNat 0 13 ∧ bits v.toNat 14 2 = 0
      ∧ s.fld (Reg.QUEUE_STATE_STATE q) < 2) ∧
    (∃ (s : State) (v : DWord) (q : Nat), s.awake = true ∧ s.bellAtOnce v ∧ v.toNat < 2 ^ 32 ∧ q = bits v.toNat 0 13 ∧ bits v.toNat 13 3 = 1
      ∧ ((s.fld (Reg.QUEUE_STATE_STATE q) = 2 ∨ s.fld (Reg.QUEUE_STATE_STATE q) = 3)) ∧ s.cqEntries q ≤ bits v.toNat 16 16) ∧
    (∃ (s : State) (v : DWord) (q : Nat), s.awake = true ∧ s.bellAtOnce v ∧ v.toNat < 2 ^ 32 ∧ q = bits v.toNat 0 13 ∧ bits v.toNat 13 3 = 0
      ∧ s.fld (Reg.QUEUE_STATE_STATE q) = 2) ∧
    (∃ (s : State) (r : Requester) (v : Word) (q : Nat), s.takesWrite r Reg.QDB v.toNat ∧ q = bits v.toNat 0 13 ∧ bits v.toNat 13 3 = 0
      ∧ s.fld (Reg.QUEUE_STATE_STATE q) = 2) ∧
    (∃ (s : State) (q w : Nat), s.packetAt q w ∧ s.ts ≤ tsFailed ∧ bits w 16 16 = s.fld (Reg.QUEUE_SEQ_NEXT q) ∧ ((bits w 0 8 = 0 ∨ bits w 0 8 = 1))
      ∧ bits w 9 7 = 0 ∧ bits w 64 64 = 0 ∧ s.fld (Reg.QUEUE_CTL_LOG2_SQ q) ≤ 16) ∧
    (∃ (s : State) (q w : Nat), s.packetAt q w ∧ bits w 16 16 = s.fld (Reg.QUEUE_SEQ_NEXT q) ∧ legalStates (bits w 0 8) = none ∧ bits w 9 7 = 0
      ∧ bits w 70 58 = 0 ∧ bits w 64 6 ≤ 48 ∧ s.fld (Reg.QUEUE_CTL_LOG2_SQ q) ≤ 16 ∧ s.replyAt q + 32 ≤ s.memSize) ∧
    (∃ (s : State) (q w : Nat), s.packetAt q w ∧ bits w 16 16 ≠ s.fld (Reg.QUEUE_SEQ_NEXT q) ∧ s.replyAt q + 32 ≤ s.memSize) :=
  ⟨⟨{ cmd 4 [(Reg.QUEUE_STATE_STATE 1, 0)] (fl 0 0) with flights := [] }, 0x1, 1, by decide⟩,
   ⟨{ cmd 4 [] (fl 0 0) with flights := [] }, 0x1002001, 1, by decide⟩,
   ⟨{ cmd 4 [] (fl 0 0) with flights := [] }, 0x50001, 1, by decide⟩,
   ⟨({ cmd 4 [] (fl 0 0) with flights := [] }), (.core 0), 0x50001, 1, by decide⟩,
   ⟨(pput { cmd 4 [(Reg.SQ_PTR_TAIL 1, 1), (Reg.QUEUE_STATE_OUTST 1, 0)] (fl 0 0) with flights := [] } 0x4000 (leBytes 64 (0 + 0 * 2 ^ 16))), 1,
     (0 + 0 * 2 ^ 16), by decide⟩,
   ⟨(pput { cmd 4 [(Reg.SQ_PTR_TAIL 1, 1), (Reg.QUEUE_STATE_OUTST 1, 0)] (fl 0 0) with flights := [] } 0x4000 (leBytes 64 (127 + 0 * 2 ^ 16))), 1,
     (127 + 0 * 2 ^ 16), by decide⟩,
   ⟨(pput { cmd 4 [(Reg.SQ_PTR_TAIL 1, 1), (Reg.QUEUE_STATE_OUTST 1, 0)] (fl 0 0) with flights := [] } 0x4000 (leBytes 64 (0 + 9 * 2 ^ 16))), 1,
     (0 + 9 * 2 ^ 16), by decide⟩⟩

theorem wit_EnablesRunChecks :
    (∃ (s : State) (r : Requester) (q : QueueId) (v : Word), s.takesWrite r (Reg.QUEUE_CTL q) (v ||| 1#32).toNat
      ∧ s.fld (Reg.QUEUE_STATE_STATE q) = 0) ∧
    (∃ (s : State) (r : Requester) (q : QueueId) (v : Word), s.takesWrite r (Reg.QUEUE_CTL q) (v &&& ~~~1#32).toNat
      ∧ ((s.fld (Reg.QUEUE_STATE_STATE q) = 2 ∨ s.fld (Reg.QUEUE_STATE_STATE q) = 4))) ∧
    (∃ (s : State) (r : Requester) (q : QueueId) (v : Word), s.takesWrite r (Reg.QUEUE_CTL q) (v &&& ~~~1#32).toNat
      ∧ s.fld (Reg.QUEUE_STATE_STATE q) = 1 ∧ s.checks = [{ what := .queue q }]) ∧
    (∃ (s : State) (r : Requester) (v : Word), s.takesWrite r Reg.TILE_CTL (v ||| 1#32).toNat ∧ s.flag Reg.TILE_CTL_JOB_EN = false
      ∧ ((∀ c ∈ s.checks, c.what ≠ .job))) ∧
    (∃ (s : State) (r : Requester) (e : Edge) (v : Word), s.takesWrite r (Reg.LINK_CTL e) (v ||| 1#32).toNat ∧ s.flag (Reg.LINK_CTL_EN e) = false
      ∧ s.checks = [] ∧ s.linkPre e = 0) ∧
    (∃ (s : State) (r : Requester) (e : Edge) (v : Word), s.takesWrite r (Reg.LINK_CTL e) (v &&& ~~~1#32).toNat ∧ s.flag (Reg.LINK_CTL_EN e) = true) ∧
    (∃ (s : State) (r : Requester) (v : Word), s.takesWrite r Reg.REDUCE_CTL (v ||| 1#32).toNat ∧ s.flag Reg.REDUCE_CTL_EN = false
      ∧ ((∀ c ∈ s.checks, c.what ≠ .reduce))) ∧
    (∃ (s : State) (k : BitVec 5) (mode : Bool) (delay : BitVec 16) (q : QueueId), s.awake = true ∧ s.checks = [{ what := .queue q }]
      ∧ s.queueCheck q = 0) ∧
    (∃ (s : State) (k : BitVec 5) (mode : Bool) (delay : BitVec 16) (q : QueueId), s.awake = true ∧ s.checks = [{ what := .queue q }]
      ∧ s.queueCheck q ≠ 0) ∧
    (∃ (s : State) (k : BitVec 5) (mode : Bool) (delay : BitVec 16) (e : Edge) (was : Nat), s.awake = true
      ∧ s.checks = [{ what := .link e, was := was }] ∧ was < 8) ∧
    (∃ (s : State) (k : BitVec 5) (mode : Bool) (delay : BitVec 16), s.awake = true ∧ s.checks = [{ what := .reduce }]) ∧
    (∃ (s : State) (k : BitVec 5) (mode : Bool) (delay : BitVec 16), s.awake = true ∧ s.checks = [{ what := .job }]) :=
  ⟨⟨(at_ 4 []), (.core 0), 1, 0x100, by decide⟩,
   ⟨(at_ 4 [(Reg.QUEUE_STATE_STATE 1, 2), (Reg.QUEUE_CTL_EN 1, 1)]), (.core 0), 1, 1, by decide⟩,
   ⟨{ at_ 4 [(Reg.QUEUE_STATE_STATE 1, 1), (Reg.QUEUE_CTL_EN 1, 1)] with checks := [{ what := .queue 1 }] }, (.core 0), 1, 1, by decide⟩,
   ⟨(at_ 4 []), (.core 0), 0, by decide⟩,
   ⟨(at_ 4 []), (.core 0), 1, 0, by decide⟩,
   ⟨(at_ 4 [(Reg.LINK_CTL_EN 1, 1), (Reg.LINK_STATUS_STATE 1, 2)]), (.core 0), 1, 0x1000, by decide⟩,
   ⟨(at_ 4 []), (.core 0), 0, by decide⟩,
   ⟨{ at_ 4 [(Reg.QUEUE_CTL_LIMIT 1, 8), (Reg.QUEUE_CTL_LOG2_SQ 1, 6), (Reg.QUEUE_CTL_LOG2_CQ 1, 6), (Reg.SQ_BASE_LO_ADDR 1, 4), (Reg.CQ_BASE_LO_ADDR 1, 8), (Reg.QUEUE_STATE_STATE 1, 1)] with checks := [{ what := .queue 1 }] },
     1, true, 5, 1, by decide⟩,
   ⟨{ at_ 4 [(Reg.QUEUE_STATE_STATE 1, 1)] with checks := [{ what := .queue 1 }] }, 1, true, 5, 1, by decide⟩,
   ⟨{ at_ 4 [(Reg.LINK_STATUS_STATE 1, 6), (Reg.LINK_CTL_EN 1, 1)] with checks := [{ what := .link 1, was := 0 }] }, 1, true, 5, 1, 0, by decide⟩,
   ⟨{ at_ 4 [(Reg.REDUCE_CTL_EN, 1)] with checks := [{ what := .reduce }] }, 1, true, 5, by decide⟩,
   ⟨{ at_ 4 [] with checks := [{ what := .job }] }, 1, false, 5, by decide⟩⟩

theorem wit_UnoccupiedOffsets :
    (∃ (s : State) (q : Requester) (o : Nat) (v : Word), o % 4 = 0 ∧ s.freeOffset o ∧ s.monResume = s) ∧
    (∃ (s : State) (i : FlightId) (f : Flight), s.startsCmd i 0x02 f ∧ f.p 32 3 = 1 ∧ f.p 0 32 % 4 = 0 ∧ s.freeOffset (f.p 0 32)) ∧
    (∃ (s : State) (dr : BitVec 66), s.alive = true ∧ s.unlocked = true ∧ dr.getLsbD 64 = false ∧ (dr.extractLsb' 32 32).toNat % 4 = 0
      ∧ s.freeOffset (dr.extractLsb' 32 32).toNat) :=
  ⟨⟨(at_ 6 []), (.core 0), 0x1FFF0, 5, by decide⟩,
   ⟨(cmd 4 [] (fl 0x02 (0x1FFF0 + 2 ^ 32))), i1, (fl 0x02 (0x1FFF0 + 2 ^ 32)), by decide⟩,
   ⟨(open_ 4 []), 0x1FFF000000000#66, by decide⟩⟩

theorem wit_RegisterWrites :
    (∃ (s : State) (q : Requester) (o : Nat) (v : Word), (s.portOpen q = false ∨ (o % 4 = 0 ∧ (s.writeRefusal o v.toNat).1 ≠ stOk))
      ∧ s.monResume = s) ∧
    (∃ (s : State) (q : Requester) (w : Width) (o : Nat) (v : Word), s.portOpen q = false ∧ s.monResume = s) ∧
    (∃ (s : State) (q : Requester) (w : Width) (o : Nat) (v : Word), s.portOpen q = true ∧ ((w ≠ .word ∨ o % 4 ≠ 0))) ∧
    (∃ (s : State) (q : Requester) (v : Word), s.takesWrite q Reg.TILE_WDOG v.toNat) ∧
    (∃ (s : State) (q : Requester) (v : Word), s.takesWrite q Reg.BAR_ROOT v.toNat) ∧
    (∃ (s : State) (q : Requester) (site : Site) (a : Nat) (v : Word), s.portOpen q = true ∧ s.live site = true ∧ s.clean site ∧ a % 4 = 0
      ∧ a < sliceSize site) :=
  ⟨⟨(at_ 6 []), (.core 0), Reg.TILE_WDOG, 5, by decide⟩,
   ⟨(at_ 1 []), (.core 0), .word, 0x10000, 5, by decide⟩,
   ⟨(at_ 4 []), (.core 0), .half, 0x10002, 5, by decide⟩,
   ⟨(at_ 4 []), (.core 0), 5, by decide⟩,
   ⟨(at_ 4 []), (.core 0), 5, by decide⟩,
   ⟨(at_ 4 []), (.core 0), 1, 64, 5, by decide⟩⟩

theorem wit_HousekeepingCommands :
    (∃ (s : State) (i : FlightId) (f : Flight), s.startsCmd i 0x00 f) ∧
    (∃ (s : State) (i : FlightId) (f : Flight), s.startsCmd i 0x01 f ∧ ((∀ g ∈ s.flights, g.queue = f.queue → g = f))) ∧
    (∃ (s : State) (i : FlightId) (f : Flight), s.startsCmd i 0x01 f ∧ ((∃ g ∈ s.flights, g.queue = f.queue ∧ g ≠ f))) ∧
    (∃ (s : State) (i : FlightId) (f : Flight) (r : RegInfo), s.startsCmd i 0x02 f ∧ f.p 32 3 = 1 ∧ f.p 0 32 % 4 = 0 ∧ s.windowAt (f.p 0 32) = none
      ∧ s.debugWord (f.p 0 32) = none ∧ regInfo (f.p 0 32) = some r ∧ r.acc.rc = 0 ∧ r.pair = false ∧ s.absent (f.p 0 32) = false
      ∧ pstoreSite (f.p 0 32) = none) ∧
    (∃ (s : State) (i : FlightId) (f : Flight) (o : Nat) (v : Word), s.startsCmd i 0x03 f ∧ f.writes = [(o, v)]
      ∧ (s.writeRefusal o v.toNat).1 ≠ stOk) ∧
    (∃ (s : State) (i : FlightId) (f : Flight) (v : Word), s.startsCmd i 0x03 f ∧ f.writes = [(Reg.TILE_WDOG, v)]
      ∧ (s.writeRefusal Reg.TILE_WDOG v.toNat).1 = stOk ∧ bits v.toNat 0 24 ≠ 0 ∧ s.checks = [] ∧ s.pwr.move = none) ∧
    (∃ (s : State) (i : FlightId) (f : Flight) (v : Word), s.startsCmd i 0x03 f ∧ f.writes = [(Reg.TILE_CTL, v)]
      ∧ (s.writeRefusal Reg.TILE_CTL v.toNat).1 = stOk ∧ v.getLsbD 0 = true ∧ s.flag Reg.TILE_CTL_JOB_EN = false ∧ s.checks = [] ∧ s.pwr.move = none) :=
  ⟨⟨(cmd 4 [] (fl 0 (0))), i1, (fl 0 (0)), by decide⟩,
   ⟨(cmd 4 [] (fl 1 (0))), i1, (fl 1 (0)), by decide⟩,
   ⟨{ cmd 4 [] (fl 1 0) with flights := [fl 1 0, { fl 0 0 with seq := 1 }] }, i1, (fl 1 0), by decide⟩,
   ⟨(cmd 4 [(Reg.TILE_WDOG_BEATS, 5)] (fl 2 (Reg.TILE_WDOG + 2 ^ 32))), i1, (fl 2 (Reg.TILE_WDOG + 2 ^ 32)), ((regInfo Reg.TILE_WDOG).getD ⟨.tile,
     false, 0, ⟨0, 0, 0, 0, 0⟩⟩), by decide⟩,
   ⟨(cmd 6 [] (fl 3 (Reg.TILE_WDOG + 2 ^ 32 + 7 * 2 ^ 64))), i1, (fl 3 (Reg.TILE_WDOG + 2 ^ 32 + 7 * 2 ^ 64)), Reg.TILE_WDOG, 7, by decide⟩,
   ⟨(cmd 4 [] (fl 3 (Reg.TILE_WDOG + 2 ^ 32 + 7 * 2 ^ 64))), i1, (fl 3 (Reg.TILE_WDOG + 2 ^ 32 + 7 * 2 ^ 64)), 7, by decide⟩,
   ⟨(cmd 4 [] (fl 3 (Reg.TILE_CTL + 2 ^ 32 + 2 ^ 64))), i1, (fl 3 (Reg.TILE_CTL + 2 ^ 32 + 2 ^ 64)), 1, by decide⟩⟩

theorem wit_DataCommands :
    (∃ (s : State) (i : FlightId) (f : Flight), s.startsCmd i 0x20 f) ∧
    (∃ (s : State) (i : FlightId) (f : Flight), s.startsCmd i 0x21 f) ∧
    (∃ (s : State) (i : FlightId) (f : Flight), s.startsCmd i 0x22 f) ∧
    (∃ (s : State) (i : FlightId) (f : Flight) (src dst n r : Nat), s.runsCmd i [0x20, 0x21, 0x22] f ∧ f.opcode = 0x20 ∧ awSpace (f.p 0 64) = 0
      ∧ awSpace (f.p 64 64) = 0 ∧ src = awAddr (f.p 0 64) ∧ dst = awAddr (f.p 64 64) ∧ n = f.p 128 32 ∧ r = s.replyAt f.queue ∧ s.poison = []
      ∧ f.p 182 1 = 0 ∧ dst + n ≤ s.memSize ∧ ((r + 32 ≤ dst ∨ dst + n ≤ r)) ∧ s.dataServed f) ∧
    (∃ (s : State) (i : FlightId) (f : Flight), s.runsCmd i [0x20, 0x21, 0x22] f ∧ s.dataWaits f = false ∧ ¬ s.dataServed f) ∧
    (∃ (s : State) (i : FlightId) (f : Flight) (dst n r : Nat), s.runsCmd i [0x20, 0x21, 0x22] f ∧ f.opcode = 0x21 ∧ awSpace (f.p 64 64) = 0
      ∧ dst = awAddr (f.p 64 64) ∧ n = f.p 128 32 ∧ r = s.replyAt f.queue ∧ f.p 182 1 = 0 ∧ dst + n ≤ s.memSize ∧ ((r + 32 ≤ dst ∨ dst + n ≤ r))
      ∧ s.dataServed f) ∧
    (∃ (s : State) (i : FlightId) (f : Flight) (a : Nat), s.runsCmd i [0x20, 0x21, 0x22] f ∧ f.opcode = 0x20 ∧ awSpace (f.p 0 64) = 0
      ∧ awSpace (f.p 64 64) = 0 ∧ s.poisonAt (awAddr (f.p 0 64)) (f.p 128 32) = some a ∧ s.dataServed f) ∧
    (∃ (s : State) (i : FlightId) (f : Flight), s.startsCmd i 0x23 f) :=
  ⟨⟨(cmd 4 [] (fl 0x20 (0x10000 + 0x20000 * 2 ^ 64 + 64 * 2 ^ 128))), i1, (fl 0x20 (0x10000 + 0x20000 * 2 ^ 64 + 64 * 2 ^ 128)), by decide⟩,
   ⟨(cmd 4 [] (fl 0x21 (0x10000 + 0x20000 * 2 ^ 64 + 64 * 2 ^ 128))), i1, (fl 0x21 (0x10000 + 0x20000 * 2 ^ 64 + 64 * 2 ^ 128)), by decide⟩,
   ⟨(cmd 4 [] (fl 0x22 (0x10000 + 0x20000 * 2 ^ 64 + 64 * 2 ^ 128))), i1, (fl 0x22 (0x10000 + 0x20000 * 2 ^ 64 + 64 * 2 ^ 128)), by decide⟩,
   ⟨(pput (cmd 4 [] (flOn 0x20 (0x10000 + 0x20000 * 2 ^ 64 + 64 * 2 ^ 128))) 0x10000 [1, 2, 3]), i1,
     (flOn 0x20 (0x10000 + 0x20000 * 2 ^ 64 + 64 * 2 ^ 128)), 0x10000, 0x20000, 64, 0x8000, by decide⟩,
   ⟨(cmd 6 [] (flOn 0x20 (0x10000 + 0x20000 * 2 ^ 64 + 64 * 2 ^ 128))), i1, (flOn 0x20 (0x10000 + 0x20000 * 2 ^ 64 + 64 * 2 ^ 128)), by decide⟩,
   ⟨(cmd 4 [] (flOn 0x21 (0x1122334455667788 + 0x20000 * 2 ^ 64 + 64 * 2 ^ 128))), i1,
     (flOn 0x21 (0x1122334455667788 + 0x20000 * 2 ^ 64 + 64 * 2 ^ 128)), 0x20000, 64, 0x8000, by decide⟩,
   ⟨{ cmd 4 [] (flOn 0x20 (0x10000 + 0x20000 * 2 ^ 64 + 64 * 2 ^ 128)) with poison := [0x400] }, i1,
     (flOn 0x20 (0x10000 + 0x20000 * 2 ^ 64 + 64 * 2 ^ 128)), 0x10000, by decide⟩,
   ⟨((cmd 6 [] (fl 0x23 (1 * 2 ^ 64 + 32))).modCtx 1 5 fun x => { x with act := some armOf }), i1, (fl 0x23 (1 * 2 ^ 64 + 32)), by decide⟩⟩

theorem wit_SyncCommands :
    (∃ (s : State) (i : FlightId) (f : Flight) (o : Nat), s.startsCmd i 0x30 f ∧ bits (f.p 0 16) 14 2 = 1 ∧ o = f.p 0 16 % 256) ∧
    (∃ (s : State) (i : FlightId) (f : Flight) (site o : Nat), s.startsCmd i 0x30 f ∧ bits (f.p 0 16) 14 2 = 0 ∧ site = f.p 16 6 ∧ o = f.p 0 16 % 64
      ∧ o < 48) ∧
    (∃ (s : State) (i : FlightId) (f : Flight), s.startsCmd i 0x31 f) ∧
    (∃ (s : State) (i : FlightId) (f : Flight) (o thr v : Nat), s.runsCmd i [0x31] f ∧ bits (f.p 0 16) 14 2 = 1 ∧ o = f.p 0 16 % 256
      ∧ thr = f.p 32 24 ∧ v = s.fld (Reg.TOBJ_VAL_VALUE o) ∧ thr ≤ v ∧ ((∀ g ∈ s.flights, g.opcode = 0x31 → g = f)) ∧ s.coreFirst f = false) ∧
    (∃ (s : State) (i : FlightId) (f : Flight), s.runsCmd i [0x31] f) ∧
    (∃ (s : State) (i : FlightId) (f : Flight), s.startsCmd i 0x32 f) :=
  ⟨⟨(cmd 6 [(Reg.TOBJ_VAL_VALUE 7, 4)] (fl 0x30 (0x4007 + 5 * 2 ^ 32))), i1, (fl 0x30 (0x4007 + 5 * 2 ^ 32)), 7, by decide⟩,
   ⟨(cmd 6 [(Reg.SYNC_VAL_VALUE 1 3, 4)] (fl 0x30 (3 + 1 * 2 ^ 16 + 5 * 2 ^ 32))), i1, (fl 0x30 (3 + 1 * 2 ^ 16 + 5 * 2 ^ 32)), 1, 3, by decide⟩,
   ⟨(cmd 6 [] (fl 0x31 (0x4007 + 5 * 2 ^ 32))), i1, (fl 0x31 (0x4007 + 5 * 2 ^ 32)), by decide⟩,
   ⟨(cmd 6 [(Reg.TOBJ_VAL_VALUE 7, 9)] (flOn 0x31 (0x4007 + 5 * 2 ^ 32 + 2 ^ 56))), i1, (flOn 0x31 (0x4007 + 5 * 2 ^ 32 + 2 ^ 56)), 7, 5, 9,
     by decide⟩,
   ⟨(cmd 6 [] (flOn 0x31 (0x4007 + 5 * 2 ^ 32))), i1, (flOn 0x31 (0x4007 + 5 * 2 ^ 32)), by decide⟩,
   ⟨(cmd 6 [(Reg.TOBJ_VAL_VALUE 7, 9)] (fl 0x32 (0x4007))), i1, (fl 0x32 (0x4007)), by decide⟩⟩

theorem wit_ReductionCommands :
    (∃ (s : State) (i : FlightId) (f : Flight) (g : Nat), s.startsCmd i 0x40 f ∧ g = f.p 0 4 ∧ 1 ≤ g ∧ g ≤ 12 ∧ s.firstRefused f.groupWords = none) ∧
    (∃ (s : State) (i : FlightId) (f : Flight) (o st r : Nat), s.startsCmd i 0x40 f ∧ s.firstRefused f.groupWords = some (o, st, r)) ∧
    (∃ (s : State) (i : FlightId) (f : Flight) (g k : Nat), s.startsCmd i 0x41 f ∧ g = f.p 0 4 ∧ k = s.fld (Reg.REDUCE_GST_NEXT g) ∧ f.p 16 12 = k
      ∧ s.sealOpen g = true ∧ descOk (s.redArrival g) (s.redDesc g k) = true) ∧
    (∃ (s : State) (i : FlightId) (f : Flight) (g k : Nat), s.startsCmd i 0x41 f ∧ g = f.p 0 4 ∧ k = s.fld (Reg.REDUCE_GST_NEXT g) ∧ f.p 16 12 = k
      ∧ s.sealOpen g = false) :=
  ⟨⟨(cmd 4 [] (fl 0x40 (3 + 0x471 * 2 ^ 32 + 0x50002 * 2 ^ 64 + 0x4000 * 2 ^ 96 + 0x1000 * 2 ^ 128))), i1,
     (fl 0x40 (3 + 0x471 * 2 ^ 32 + 0x50002 * 2 ^ 64 + 0x4000 * 2 ^ 96 + 0x1000 * 2 ^ 128)), 3, by decide⟩,
   ⟨{ cmd 4 [] (fl 0x40 (3 + 0x471 * 2 ^ 32 + 0x50002 * 2 ^ 64 + 0x4000 * 2 ^ 96 + 0x1000 * 2 ^ 128)) with checks := [{ what := .reduce }] }, i1,
     (fl 0x40 (3 + 0x471 * 2 ^ 32 + 0x50002 * 2 ^ 64 + 0x4000 * 2 ^ 96 + 0x1000 * 2 ^ 128)), (Reg.REDUCE_GRP0 3), stRefusedState, 0x0110, by decide⟩,
   ⟨(pput ({ red 33 0 0 [(Reg.TOBJ_VAL_VALUE 7, 1)] with tile := { grps := [(3, { sealing := true })] }, flights := [fl 0x41 3] }) 0x1000 (leBytes 64 redD)),
     i1, (fl 0x41 3), 3, 0, by decide⟩,
   ⟨{ (pput ({ red 33 0 0 [] with tile := { grps := [(3, { sealing := true })] }, flights := [fl 0x41 3] }) 0x1000 (leBytes 64 redD)) with tile := {} },
     i1, (fl 0x41 3), 3, 0, by decide⟩⟩

theorem wit_HealthAndSecurityCommands :
    (∃ (s : State) (i : FlightId) (f : Flight) (a r : Nat), s.startsCmd i 0x50 f ∧ f.p 58 11 = 1 ∧ a = f.p 0 48 ∧ r = s.replyAt f.queue
      ∧ a + 32 ≤ s.memSize ∧ ((r + 32 ≤ a ∨ a + 32 ≤ r))) ∧
    (∃ (s : State) (i : FlightId) (f : Flight) (c : Site) (n : Fin 16), s.startsCmd i 0x51 f ∧ f.unitTested = some (.unit c n) ∧ 1 ≤ n.val
      ∧ n.val ≤ 4) ∧
    (∃ (s : State) (i : FlightId) (f : Flight), s.startsCmd i 0x60 f) ∧
    (∃ (s : State) (i : FlightId) (f : Flight), s.startsCmd i 0x61 f) ∧
    (∃ (s : State) (i : FlightId) (f : Flight) (a r : Nat), s.startsCmd i 0x70 f ∧ a = f.p 0 48 ∧ r = s.replyAt f.queue ∧ a + 320 ≤ s.memSize
      ∧ ((r + 32 ≤ a ∨ a + 320 ≤ r))) ∧
    (∃ (s : State) (i : FlightId) (f : Flight), s.startsCmd i 0x71 f) ∧
    (∃ (s : State) (i : FlightId) (f : Flight), s.startsCmd i 0x72 f ∧ f.p 0 2 = 0) ∧
    (∃ (s : State) (i : FlightId) (f : Flight), s.startsCmd i 0x72 f ∧ f.p 0 2 = 2) ∧
    (∃ (s : State) (i : FlightId) (f : Flight), s.startsCmd i 0x72 f ∧ f.p 0 2 = 1 ∧ s.boot.challenge = none) ∧
    (∃ (s : State) (q : Requester) (v : Word), s.takesWrite q Reg.DBG_STATE v.toNat) :=
  ⟨⟨(cmd 4 [] (fl 0x50 (0x20000 + 2 ^ 58))), i1, (fl 0x50 (0x20000 + 2 ^ 58)), 0x20000, 0x8000, by decide⟩,
   ⟨(cmd 4 [] (fl 0x51 (1 + 1 * 2 ^ 6))), i1, (fl 0x51 (1 + 1 * 2 ^ 6)), 1, 1, by decide⟩,
   ⟨(cmd 4 [(Reg.PWR_CAP_CAP, 9)] (fl 0x60 (100))), i1, (fl 0x60 (100)), by decide⟩,
   ⟨(cmd 4 [] (fl 0x61 (2))), i1, (fl 0x61 (2)), by decide⟩,
   ⟨(cmd 4 [] (fl 0x70 (0x20000 + 77 * 2 ^ 64))), i1, (fl 0x70 (0x20000 + 77 * 2 ^ 64)), 0x20000, 0x8000, by decide⟩,
   ⟨(cmd 4 [] (fl 0x71 (0))), i1, (fl 0x71 (0)), by decide⟩,
   ⟨(cmd 4 [] (fl 0x72 (0))), i1, (fl 0x72 (0)), by decide⟩,
   ⟨(cmd 4 [] (fl 0x72 (2))), i1, (fl 0x72 (2)), by decide⟩,
   ⟨(cmd 4 [] (fl 0x72 (1))), i1, (fl 0x72 (1)), by decide⟩,
   ⟨(at_ 4 []), (.core 0), 4, by decide⟩⟩

theorem wit_JobsLoadAndStart :
    (∃ (s : State) (i : FlightId) (f : Flight) (d : Nat), s.startsCmd i 0x10 f ∧ s.imageCheck f = .error d) ∧
    (∃ (s : State) (i : FlightId) (f : Flight) (l : List Section), s.startsCmd i 0x10 f ∧ s.imageCheck f = .ok l ∧ s.swapPending = false
      ∧ s.fld Reg.PWR_REGION_DOWN = 0) ∧
    (∃ (s : State) (f : Flight) (r : State), s.fw = true ∧ s.pwr.regionsUp = [] ∧ s.runningOp 0x10 = some f
      ∧ s.loadWords (s.job.image.flatMap Section.words) = (r, (s.job.image.flatMap Section.words).length)) ∧
    (∃ (s : State) (f : Flight), s.fw = true ∧ s.runningOp 0x10 = some f ∧ f.queue < 8192) ∧
    (∃ (s : State) (i : FlightId) (f : Flight), s.startsCmd i 0x11 f ∧ s.ts = tsJobLoaded) ∧
    (∃ (s : State) (tile : Fin 8) (tiles : Byte) (m : GMsg), s.fw = true ∧ s.flag Reg.BEAT_CFG_MASTER = true ∧ s.reportWaits tile tiles = some m
      ∧ tile.val ≠ s.fld Reg.TILE_ID_TILE_NUM ∧ ((∀ r ∈ s.job.ready, r.1 ≠ s.fld Reg.TILE_ID_TILE_NUM))) ∧
    (∃ (s : State) (tile : Fin 8) (tiles : Byte) (m : GMsg), s.fw = true ∧ s.flag Reg.BEAT_CFG_MASTER = false ∧ (s.runningOp 0x11).isSome = true
      ∧ s.mismatchWaits = none ∧ s.reportWaits tile tiles = some m ∧ tiles.toNat = s.job.tiles) ∧
    (∃ (s : State) (tile : Fin 8) (tiles : Byte) (f : Flight) (m : GMsg), s.fw = true ∧ s.flag Reg.BEAT_CFG_MASTER = false ∧ s.flights = [f]
      ∧ f.opcode = 0x11 ∧ f.phase = .running ∧ f.queue < 8192 ∧ ((s.mismatchWaits = some m ∨ (s.mismatchWaits = none
      ∧ s.reportWaits tile tiles = some m ∧ tiles.toNat ≠ s.job.tiles)))) ∧
    (∃ (s : State) (f : Flight), s.fw = true ∧ s.job.starting = false ∧ s.flights = [f] ∧ f.opcode = 0x11 ∧ f.phase = .running ∧ f.queue < 8192) :=
  ⟨⟨(cmd 4 [] (fl 0x10 (0x20000))), i1, (fl 0x10 (0x20000)), 0, by decide⟩,
   ⟨(pput { cmd 4 [] (fl 0x10 0x20000) with job := { image := [] } } 0x20000 (leBytes 64 (0x314A5A42 + 2 ^ 32) ++ leBytes 16 (Reg.SYNC_TMO 1 + 4 * 2 ^ 32 + 0x21000 * 2 ^ 64))),
     i1, (fl 0x10 0x20000), [{ dest := Reg.SYNC_TMO 1, bytes := 4, src := 0x21000, fixed := false }], by decide⟩,
   ⟨(pput { cmd 4 [] (flOn 0x10 0x20000) with job := { image := [{ dest := Reg.SYNC_TMO 1, bytes := 4, src := 0x21000, fixed := false }] } } 0x20000 (leBytes 64 (0x314A5A42 + 2 ^ 32) ++ leBytes 16 (Reg.SYNC_TMO 1 + 4 * 2 ^ 32 + 0x21000 * 2 ^ 64))),
     (flOn 0x10 0x20000),
     (((pput { cmd 4 [] (flOn 0x10 0x20000) with job := { image := [{ dest := Reg.SYNC_TMO 1, bytes := 4, src := 0x21000, fixed := false }] } } 0x20000 (leBytes 64 (0x314A5A42 + 2 ^ 32) ++ leBytes 16 (Reg.SYNC_TMO 1 + 4 * 2 ^ 32 + 0x21000 * 2 ^ 64)))).loadWords [(Reg.SYNC_TMO 1,
     0x21000)]).1, by decide⟩,
   ⟨(cmd 4 [] (flOn 0x10 0x20000)), (flOn 0x10 0x20000), by decide⟩,
   ⟨(cmd 5 [(Reg.TILE_CTL_JOB_EN, 1), (Reg.SLOT_CFG_EN 1 2, 1), (Reg.SLOT_CFG_ENTRIES 1 2, 1)] (fl 0x11 3)), i1, (fl 0x11 3), by decide⟩,
   ⟨{ cmd 5 [(Reg.BEAT_CFG_MASTER, 1)] (flOn 0x11 3) with job := { tiles := 3 }, inbox := [(cmsg 9 0 0 3 2)] }, 2, 3, (cmsg 9 0 0 3 2), by decide⟩,
   ⟨{ cmd 5 [] (flOn 0x11 3) with job := { tiles := 3 }, inbox := [(cmsg 9 0 0 3 2)] }, 2, 3, (cmsg 9 0 0 3 2), by decide⟩,
   ⟨{ cmd 5 [] (flOn 0x11 3) with job := { tiles := 3 }, inbox := [(cmsg 9 0 0 5 2)] }, 2, 5, (flOn 0x11 3), (cmsg 9 0 0 5 2), by decide⟩,
   ⟨{ cmd 5 [] (flOn 0x11 3) with job := { tiles := 3 }, inbox := [] }, (flOn 0x11 3), by decide⟩⟩

theorem wit_PausesStopsAndSteps :
    (∃ (s : State) (i : FlightId) (f : Flight), s.startsCmd i 0x12 f) ∧
    (∃ (s : State) (f : Flight), s.fw = true ∧ s.ts = tsRunning ∧ s.job.pausing = true ∧ s.quiet = true ∧ s.flights = [f] ∧ f.opcode = 0x12
      ∧ f.phase = .running) ∧
    (∃ (s : State) (i : FlightId) (f : Flight), s.startsCmd i 0x13 f) ∧
    (∃ (s : State) (f : Flight), s.fw = true ∧ s.unitsIdle = true ∧ s.flights = [f] ∧ f.opcode = 0x13 ∧ f.phase = .running ∧ f.queue < 8192) ∧
    (∃ (s : State) (f : Flight), s.fw = true ∧ s.flights = [f] ∧ f.opcode = 0x13 ∧ f.phase = .running) ∧
    (∃ (s : State) (i : FlightId) (f : Flight), s.startsCmd i 0x14 f) ∧
    (∃ (s : State) (i : FlightId) (f : Flight), s.startsCmd i 0x15 f) ∧
    (∃ (s : State) (i : FlightId) (f : Flight), s.runsCmd i [0x15] f ∧ s.abandoned = none ∧ s.allDone = true ∧ s.attempts = 0) ∧
    (∃ (s : State) (i : FlightId) (f : Flight), s.runsCmd i [0x15] f ∧ f.p 0 16 ≤ f.beats) :=
  ⟨⟨(cmd 6 [] (fl 0x12 (0))), i1, (fl 0x12 (0)), by decide⟩,
   ⟨{ cmd 6 [(⟨Reg.BEAT_COUNT, 0, 32⟩, 9)] (flOn 0x12 0) with job := { pausing := true, pauseRel := true } }, (flOn 0x12 0), by decide⟩,
   ⟨(cmd 6 [] (fl 0x13 (0))), i1, (fl 0x13 (0)), by decide⟩,
   ⟨(cmd 6 [] (flOn 0x13 0)), (flOn 0x13 0), by decide⟩,
   ⟨(cmd 6 [] (flOn 0x13 0)), (flOn 0x13 0), by decide⟩,
   ⟨(cmd 6 [] (fl 0x14 (5))), i1, (fl 0x14 (5)), by decide⟩,
   ⟨(cmd 6 [(Reg.TILE_STATE_STEP_OPEN, 1)] (fl 0x15 (0))), i1, (fl 0x15 (0)), by decide⟩,
   ⟨(cmd 6 [(Reg.TILE_STATE_STEP_OPEN, 1)] (flOn 0x15 (0))), i1, (flOn 0x15 (0)), by decide⟩,
   ⟨(cmd 6 [(Reg.TILE_STATE_STEP_OPEN, 1)] (flOn 0x15 (0))), i1, (flOn 0x15 (0)), by decide⟩⟩

theorem wit_EdgesReceiveAndTrain :
    (∃ (s : State) (e : Edge) (f : Flit), s.alive = true ∧ s.edgeUp e = true ∧ flitOk f = false) ∧
    (∃ (s : State) (e : Edge) (f : Flit), s.alive = true ∧ s.edgeUp e = true ∧ flitOk f = true ∧ Flit.num f 0 2 % 4096 ≠ (s.edge e).rxSeq) ∧
    (∃ (s : State) (e : Edge) (f : Flit) (seq ack : Nat), s.alive = true ∧ s.edgeUp e = true ∧ flitOk f = true ∧ seq = Flit.num f 0 2 % 4096
      ∧ seq = (s.edge e).rxSeq ∧ Flit.num f 0 2 / 4096 ≠ 1 ∧ Flit.num f 4 4 % 4 ≠ 3 ∧ ack = Flit.num f 2 2 % 4096 ∧ (s.edge e).leaving = false) ∧
    (∃ (s : State) (e : Edge) (lane : Fin 34) (why : LaneFail), s.alive = true ∧ s.edgeUp e = true ∧ s.laneOn e lane = true
      ∧ s.laneBad e lane why = true ∧ (s.edge e).plans = []) ∧
    (∃ (s : State) (e : Edge) (lane : Fin 34) (why : LaneFail), s.alive = true ∧ s.edgeUp e = true ∧ s.laneOn e lane = true
      ∧ s.laneBad e lane why = false) ∧
    (∃ (s : State) (e : Edge) (p : LanePlan), p.logical < 32 ∧ s.laneOn e p.logical = true ∧ p.spare = none ∧ 1 ≤ s.fld (Reg.LINK_STATUS_LANES e)) ∧
    (∃ (s : State) (e : Edge) (lane : Fin 34), s.alive = true ∧ s.edgeUp e = true ∧ s.laneOn e lane = false) ∧
    (∃ (s : State) (e : Edge) (n : Nat), s.alive = true ∧ s.fld (Reg.LINK_STATUS_STATE e) = 1 ∧ n = (s.edge e).train.step ∧ n ≠ 0 ∧ ((∀ c ∈ s.checks,
      c.what ≠ .link e))) ∧
    (∃ (s : State) (e : Edge) (n : Nat), s.alive = true ∧ s.fld (Reg.LINK_STATUS_STATE e) = 1 ∧ n = (s.edge e).train.step
      ∧ ((n = 1 ∨ n = 2 ∨ n = 4 ∨ n = 5 ∨ n = 8))) ∧
    (∃ (s : State) (e : Edge) (rt : BitVec 13), s.alive = true ∧ s.fld (Reg.LINK_STATUS_STATE e) = 1 ∧ (s.edge e).train.step = 6
      ∧ s.takesChannel e 0) ∧
    (∃ (s : State) (e : Edge) (m : GMsg), s.alive = true ∧ m.ty = 9 ∧ ((s.edgeUp e = true ∨ s.fld (Reg.LINK_STATUS_STATE e) = 1)) ∧ m.data = []
      ∧ s.takesChannel e 0) ∧
    (∃ (s : State) (e : Edge) (m : GMsg), s.alive = true ∧ m.ty = 9 ∧ s.fld (Reg.LINK_STATUS_STATE e) = 1 ∧ (s.edge e).train.step = 7
      ∧ m.data.length = 64 ∧ descriptorOk (leNat m.data) = true ∧ bits (leNat m.data) 20 4 = 1 ∧ 16 ≤ s.fld (Reg.LINK_STATUS_LANES e)
      ∧ 16 ≤ bits (leNat m.data) 32 6) ∧
    (∃ (s : State) (e : Edge), s.alive = true ∧ s.fld (Reg.LINK_STATUS_STATE e) = 1 ∧ (s.edge e).train.step = 7) :=
  ⟨⟨(edgeUp1 []), 1, ({ flit [] with words := [some 0, none, some 0, some 0] }), by decide⟩,
   ⟨(edgeUp1 []), 1, (flit [5]), by decide +kernel⟩,
   ⟨(edgeUp1 []), 1, (flit []), 0, 0, by decide +kernel⟩,
   ⟨((edgeUp1 []).modEdge 1 fun x => { x with refused := [(3, 16)] }), 1, 3, .refusals, by decide⟩,
   ⟨(edgeUp1 [(Reg.LINK_CTL_LANE_ERR_MAX 1, 16)]), 1, 3, .errors, by decide⟩,
   ⟨(edgeUp1 []), 1, { seq := 64, logical := 3, spare := none, own := true }, by decide⟩,
   ⟨(edgeUp1 []), 1, 33, by decide⟩,
   ⟨(trainAt 4 []), 1, 4, by decide⟩,
   ⟨(trainAt 8 [(Reg.LINK_STATUS_LANES 1, 32)]), 1, 8, by decide⟩,
   ⟨(trainAt 6 []), 1, 100, by decide⟩,
   ⟨(edgeUp1 []), 1, (msg 9 0 0 []), by decide⟩,
   ⟨(trainAt 7 [(Reg.LINK_STATUS_LANES 1, 20)]), 1, (msg 9 0 0 (leBytes 64 peerD)), by decide⟩,
   ⟨(trainAt 7 []), 1, by decide⟩⟩

theorem wit_ForwardsProbesAndLoops :
    (∃ (s : State) (e : Edge) (m : GMsg) (a n : Nat), s.awake = true ∧ m.ty = 1 ∧ s.toMe m.dst.toNat = true ∧ bits m.dst.toNat 25 1 = 1
      ∧ 0x18 ≤ bits m.dst.toNat 0 10 ∧ bits m.dst.toNat 0 10 < 0x20 ∧ s.nextOn e m ∧ (((s.edge e).peer = true → s.peerBit e 48 = true))
      ∧ a = bits m.aux.toNat 0 48 ∧ n = m.data.length ∧ s.forwardOk (memPieces a n) = true ∧ a + n ≤ s.memSize) ∧
    (∃ (s : State) (e : Edge) (m : GMsg) (a n : Nat), s.awake = true ∧ m.ty = 2 ∧ s.toMe m.dst.toNat = true ∧ bits m.dst.toNat 25 1 = 1
      ∧ 0x18 ≤ bits m.dst.toNat 0 10 ∧ bits m.dst.toNat 0 10 < 0x20 ∧ s.nextOn e m ∧ (((s.edge e).peer = true → s.peerBit e 48 = true))
      ∧ a = bits m.aux.toNat 0 48 ∧ n = bits m.aux.toNat 48 13 + 1 ∧ n ≤ 1024 ∧ s.forwardOk (memPieces a n) = true ∧ a + n ≤ s.memSize) ∧
    (∃ (s : State) (e : Edge) (m : GMsg), s.awake = true ∧ ((m.ty = 1 ∨ m.ty = 2)) ∧ (s.edge e).peer = true ∧ s.peerBit e 48 = false) ∧
    (∃ (s : State) (m : GMsg) (site d mem : Nat) (x : Xfer), s.awake = true ∧ m.ty = 4 ∧ site = bits m.aux.toNat 0 6 ∧ d = bits m.aux.toNat 6 6
      ∧ bits m.aux.toNat 16 1 = 0 ∧ s.live site = true ∧ s.firstOfChannel m = true ∧ s.poison = [] ∧ (s.ctx site d).xfers = [x]
      ∧ ackNames (bits m.aux.toNat 12 4) x = true ∧ x.dead = false ∧ mem = bits x.desc 64 48 + x.idx * bits x.desc 128 32
      ∧ x.data.length = armBytes x.desc ∧ mem + armBytes x.desc ≤ s.memSize) ∧
    (∃ (s : State) (m : GMsg) (k : Nat), s.awake = true ∧ s.toMe m.dst.toNat = false ∧ m.ty ≠ 8 ∧ m.ty ≠ 9 ∧ s.firstOfChannel m = true
      ∧ s.route m.dst.toNat = .edge k ∧ s.takesChannel k m.vch) ∧
    (∃ (s : State) (m : GMsg), s.awake = true ∧ s.toMe m.dst.toNat = false ∧ m.ty ≠ 8 ∧ m.ty ≠ 9 ∧ s.firstOfChannel m = true
      ∧ s.route m.dst.toNat = .vport) ∧
    (∃ (s : State) (m : GMsg), s.awake = true ∧ s.toMe m.dst.toNat = false ∧ m.ty ≠ 8 ∧ m.ty ≠ 9 ∧ s.firstOfChannel m = true
      ∧ s.route m.dst.toNat = .self) ∧
    (∃ (s : State) (m : GMsg), s.awake = true ∧ s.toMe m.dst.toNat = false ∧ m.ty ≠ 8 ∧ m.ty ≠ 9 ∧ s.firstOfChannel m = true
      ∧ s.route m.dst.toNat = .none) ∧
    (∃ (s : State) (q : Requester) (v : Word) (k : Nat), s.takesWrite q Reg.LINK_BEAT v.toNat ∧ k = bits v.toNat 0 3) ∧
    (∃ (s : State) (latency : BitVec 24) (k : Nat), s.fw = true ∧ s.flag Reg.BEAT_CFG_MASTER = false ∧ k = s.fld Reg.LINK_BEAT_UP ∧ k < 4) ∧
    (∃ (s : State) (q : Requester) (e : Edge) (v : Word), s.takesWrite q (Reg.LINK_LOOP e) (v ||| 4#32).toNat
      ∧ ((bits v.toNat 0 2 = 1 ∨ bits v.toNat 0 2 = 2))) ∧
    (∃ (s : State) (q : Requester) (p : VPort) (v : Word), s.takesWrite q (Reg.VPORT_LOOP p) (v ||| 4#32).toNat
      ∧ ((bits v.toNat 0 2 = 1 ∨ bits v.toNat 0 2 = 2))) ∧
    (∃ (s : State) (e : Edge) (failed : BitVec 34), s.alive = true ∧ (s.edge e).loop = true) ∧
    (∃ (s : State) (p : VPort) (failed : BitVec 34), s.alive = true ∧ s.fld (Reg.VPORT_STATUS_STATE p) = 2) :=
  ⟨⟨(({ (at_ 6 []) with tile := { grants := [(0, 50), (1, 50), (2, 50), (3, 50)] } }).modEdge 1 fun x => { x with ingress := [(msg 1 0x2000019 0x5000 [1, 2, 3])] }),
     1, (msg 1 0x2000019 0x5000 [1, 2, 3]), 0x5000, 3, by decide⟩,
   ⟨(({ (at_ 6 []) with tile := { grants := [(0, 50), (1, 50), (2, 50), (3, 50)] } }).modEdge 1 fun x => { x with ingress := [(msg 2 0x2000019 (0x5000 + 63 * 2 ^ 48) [])] }),
     1, (msg 2 0x2000019 (0x5000 + 63 * 2 ^ 48) []), 0x5000, 64, by decide⟩,
   ⟨((edgeUp1 []).modEdge 1 fun x => { x with peer := true }), 1, (msg 1 0x2000019 0x5000 [1]), by decide⟩,
   ⟨(({ at_ 6 [] with inbox := [msg 4 0 (1 + 5 * 64) []] }).modCtx 1 5 (fun x => { x with xfers := [{ xferOf with desc := armR + 1, lines := 1, data := List.replicate 128 7 }] })),
     (msg 4 0 (1 + 5 * 64) []), 1, 5, 0x1000, { xferOf with desc := armR + 1, lines := 1, data := List.replicate 128 7 }, by decide⟩,
   ⟨{ at_ 6 [(⟨Reg.LINK_ROUTE, 0, 32⟩, 0x20)] with inbox := [msg 1 0x2000419 0x5000 [1]] }, (msg 1 0x2000419 0x5000 [1]), 2, by decide⟩,
   ⟨{ at_ 6 [(⟨Reg.LINK_ROUTE, 0, 32⟩, 0x40)] with inbox := [msg 1 0x2000419 0x5000 [1]] }, (msg 1 0x2000419 0x5000 [1]), by decide⟩,
   ⟨{ at_ 6 [(⟨Reg.LINK_ROUTE, 0, 32⟩, 0x50)] with inbox := [msg 1 0x2000419 0x5000 [1]] }, (msg 1 0x2000419 0x5000 [1]), by decide⟩,
   ⟨{ at_ 6 [(⟨Reg.LINK_ROUTE, 0, 32⟩, 0x70)] with inbox := [msg 1 0x2000419 0x5000 [1]] }, (msg 1 0x2000419 0x5000 [1]), by decide⟩,
   ⟨(at_ 4 []), (.core 0), 7, 7, by decide⟩,
   ⟨(at_ 6 [(Reg.LINK_BEAT_UP, 1), (Reg.LINK_STATUS_HOP_LAT 1, 9)]), 100, 1, by decide⟩,
   ⟨(at_ 4 []), (.core 0), 1, 1, by decide⟩,
   ⟨(at_ 4 []), (.core 0), 1, 1, by decide⟩,
   ⟨((at_ 4 []).modEdge 1 fun x => { x with loop := true }), 1, 5, by decide⟩,
   ⟨(at_ 4 [(Reg.VPORT_STATUS_STATE 1, 2)]), 1, 5, by decide⟩⟩

theorem wit_MonitorAnswers :
    (∃ (s : State) (i : Instr) (a b : Option Nat) (w : Word) (r : Nat) (sig : List Byte) (c : Option Site) (k n u : Nat), s.awake = true
      ∧ s.mon.busy = true ∧ i ∈ [.monitorState, .monitorLog a b, .monitorBoot w, .monitorBaud r, .monitorUnlock, .monitorUnlockSignature sig,
      .monitorLock, .monitorPeek k n, .monitorPoke k w, .monitorSync c n, .monitorSelftest k n u, .monitorLineError sig] ∧ s.lineRefused i = false) ∧
    (∃ (s : State) (i : Instr) (a b : Option Nat) (w : Word) (r : Nat) (sig : List Byte) (c : Option Site) (k n u : Nat), s.awake = true
      ∧ s.mon.busy = true ∧ i ∈ [.monitorState, .monitorLog a b, .monitorBoot w, .monitorBaud r, .monitorUnlock, .monitorUnlockSignature sig,
      .monitorLock, .monitorPeek k n, .monitorPoke k w, .monitorSync c n, .monitorSelftest k n u, .monitorLineError sig] ∧ s.lineRefused i = true) ∧
    (∃ (s : State), s.monitorOn = true) ∧
    (∃ (s : State), s.monitorOn = true) ∧
    (∃ (s : State) (f n : Nat), s.monitorOn = true ∧ ((n = 0 ∨ 1024 < n ∨ 1024 ≤ f))) ∧
    (∃ (s : State) (offset : Word), s.monitorOn = true ∧ s.ts = tsMonitor) ∧
    (∃ (s : State) (offset : Word), s.monitorOn = true ∧ s.ts ≠ tsMonitor) ∧
    (∃ (s : State) (rate : Nat), s.monitorOn = true ∧ rate ∈ baudRates) ∧
    (∃ (s : State) (rate : Nat), s.monitorOn = true ∧ rate ∉ baudRates) ∧
    (∃ (s : State) (r : Nat), s.awake = true ∧ s.mon.baudPend = some r ∧ r ∈ baudRates) ∧
    (∃ (s : State), s.monitorOn = true ∧ s.monitorLegal 0x72 = true) ∧
    (∃ (s : State) (sig c : List Byte), s.monitorOn = true ∧ s.monitorLegal 0x72 = true ∧ sig.length = 96 ∧ s.boot.challenge = some c) ∧
    (∃ (s : State), s.monitorOn = true) ∧
    (∃ (s : State) (o : Nat) (r : RegInfo), s.monitorOn = true ∧ s.plainReg o r ∧ s.unlocked = true) ∧
    (∃ (s : State) (o : Nat) (r : RegInfo), s.monitorOn = true ∧ s.plainReg o r ∧ s.unlocked = false ∧ peekOpen o 1 = false) ∧
    (∃ (s : State) (v : Word), s.monitorOn = true ∧ s.unlocked = true ∧ (s.writeRefusal Reg.TILE_WDOG v.toNat).1 = stOk ∧ bits v.toNat 0 24 ≠ 0) ∧
    (∃ (s : State) (v : Word) (o : Nat), s.monitorOn = true ∧ o < 2 ^ 32 ∧ s.unlocked = false) ∧
    (∃ (s : State) (n : Nat), s.monitorOn = true ∧ s.unlocked = true ∧ n < 256) ∧
    (∃ (s : State) (c : Site) (u : Nat), s.monitorOn = true ∧ s.unlocked = true ∧ s.monitorLegal 0x51 = true ∧ s.live c = true ∧ unitAt c u = true
      ∧ 1 ≤ u ∧ u ≤ 4) ∧
    (∃ (s : State) (o : Nat) (v : Word), s.monitorOn = true ∧ s.unlocked = true ∧ o < 2 ^ 32 ∧ o % 4 = 0 ∧ (s.writeRefusal o v.toNat).1 = stOk
      ∧ (s.ctlPut .monitor o v (some monStarter)).pokeRuns = true) ∧
    (∃ (s : State) (line : List Byte), s.monitorOn = true ∧ overlong line = true) ∧
    (∃ (s : State) (line : List Byte), s.monitorOn = true ∧ overlong line = false ∧ tokens (lineChars line) = []) ∧
    (∃ (s : State) (line : List Byte), s.monitorOn = true ∧ overlong line = false ∧ tokens (lineChars line) ≠ []
      ∧ lineCommand (lineChars line) = none) ∧
    (∃ (s : State) (line : List Byte) (c : Instr), s.monitorOn = true ∧ overlong line = false ∧ lineCommand (lineChars line) = some c) :=
  ⟨⟨{ at_ 4 [] with mon := { test := some (.unit 1 1) } }, .monitorState, none, none, 0, 0, [], none, 0, 0, 0, by decide⟩,
   ⟨{ at_ 4 [] with mon := { test := some (.unit 1 1) } }, (.monitorLineError (List.replicate 300 65)), none, none, 0, 0, (List.replicate 300 65),
     none, 0, 0, 0, by decide⟩,
   ⟨(at_ 4 []), by decide⟩,
   ⟨(at_ 4 []), by decide⟩,
   ⟨(at_ 4 []), 0, 0, by decide⟩,
   ⟨(at_ 3 []), 5, by decide⟩,
   ⟨(at_ 4 []), 5, by decide⟩,
   ⟨(at_ 4 []), 460800, by decide⟩,
   ⟨(at_ 4 []), 9600, by decide⟩,
   ⟨{ at_ 4 [] with mon := { baudPend := some 460800 } }, 460800, by decide⟩,
   ⟨(at_ 4 []), by decide⟩,
   ⟨{ at_ 4 [] with boot := { challenge := some (List.replicate 16 1) } }, (List.replicate 96 2), (List.replicate 16 1), by decide⟩,
   ⟨(at_ 4 []), by decide⟩,
   ⟨(open_ 4 []), Reg.TILE_WDOG, ((regInfo Reg.TILE_WDOG).getD ⟨.tile, false, 0, ⟨0, 0, 0, 0, 0⟩⟩), by decide⟩,
   ⟨(locked 4 []), Reg.TILE_WDOG, ((regInfo Reg.TILE_WDOG).getD ⟨.tile, false, 0, ⟨0, 0, 0, 0, 0⟩⟩), by decide⟩,
   ⟨(open_ 4 []), 5, by decide⟩,
   ⟨(locked 4 []), 5, 0x30030, by decide⟩,
   ⟨(open_ 4 []), 3, by decide⟩,
   ⟨(open_ 4 []), 1, 2, by decide⟩,
   ⟨(open_ 4 []), Reg.PWR_OP, 3, by decide⟩,
   ⟨(at_ 4 []), (List.replicate 130 65), by decide⟩,
   ⟨(at_ 4 []), [32, 32], by decide⟩,
   ⟨(at_ 4 []), [112, 101, 101, 107, 32, 120], by decide⟩,
   ⟨(at_ 4 []), [115, 116, 97, 116, 101], .monitorState, by decide⟩⟩

theorem wit_JtagInstructions :
    (∃ (s : State) (scanIn pads : BitVec 15), s.ts ≠ tsOff) ∧
    (∃ (s : State) (scanIn pads : BitVec 15), s.ts ≠ tsOff ∧ s.dev.testMode = true) ∧
    (∃ (s : State) (scanIn pads : BitVec 15), s.ts ≠ tsOff) ∧
    (∃ (s : State), s.ts ≠ tsOff) ∧
    (∃ (s : State), s.ts ≠ tsOff) ∧
    (∃ (s : State), s.ts ≠ tsOff) ∧
    (∃ (s : State) (x : JBypass), s.ts ≠ tsOff ∧ ((x.code = 0xFF ∨ (5 ≤ x.code.toNat ∧ x.code.toNat ≠ 0x20)))) ∧
    (∃ (s : State), s.ts ≠ tsOff) ∧
    (∃ (s : State) (dr : BitVec 66), s.alive = true ∧ s.unlocked = false) ∧
    (∃ (s : State) (dr : BitVec 66) (r : RegInfo), s.alive = true ∧ s.unlocked = true ∧ dr.getLsbD 64 = false
      ∧ s.plainReg (dr.extractLsb' 32 32).toNat r) ∧
    (∃ (s : State) (dr : BitVec 66), s.alive = true ∧ s.unlocked = true ∧ dr.getLsbD 64 = true ∧ (dr.extractLsb' 32 32).toNat = Reg.TILE_WDOG
      ∧ s.mon.input = [] ∧ bits (dr.extractLsb' 0 32).toNat 0 24 ≠ 0 ∧ (s.writeRefusal Reg.TILE_WDOG (dr.extractLsb' 0 32).toNat).1 = stOk) :=
  ⟨⟨(at_ 4 []), 5, 6, by decide⟩,
   ⟨{ at_ 4 [] with dev := { State.reset.dev with testMode := true } }, 5, 6, by decide⟩,
   ⟨(at_ 4 []), 5, 6, by decide⟩,
   ⟨(at_ 4 []), by decide⟩,
   ⟨(at_ 4 []), by decide⟩,
   ⟨(at_ 4 []), by decide⟩,
   ⟨(at_ 4 []), { code := 9, tdi := true }, by decide⟩,
   ⟨(at_ 4 []), by decide⟩,
   ⟨(locked 4 []), 5, by decide⟩,
   ⟨(open_ 4 []), (BitVec.ofNat 66 (Reg.TILE_WDOG * 2 ^ 32)), ((regInfo Reg.TILE_WDOG).getD ⟨.tile, false, 0, ⟨0, 0, 0, 0, 0⟩⟩), by decide⟩,
   ⟨(open_ 4 []), (BitVec.ofNat 66 (2 ^ 64 + Reg.TILE_WDOG * 2 ^ 32 + 7)), by decide⟩⟩

theorem wit_OffAndAonAreLeft :
    (∃ (c : Instr) (s : State), s.ts = tsOff ∧ ((∀ st, c ≠ .vddAonRise st))) ∧
    (∃ (c : Instr) (s : State), s.ts = tsAon ∧ ((∀ f, c ≠ .resetRelease f)) ∧ c ≠ .selfRelease ∧ c ≠ .vddAonFall) ∧
    (∃ (s : State) (f : Frame), s.ts = tsAon ∧ (¬ (s.hears f ∧ f.payload = [] ∧ (f.src = 0x00 ∨ f.src = 0x08)))) ∧
    (∃ (s : State) (f : Frame), s.ts = tsAon ∧ s.hears f ∧ f.payload = [] ∧ ((f.src = 0x00 ∨ f.src = 0x08))) ∧
    (∃ (s : State) (f : Frame), s.ts ≠ tsAon ∧ s.hears f ∧ f.payload = [] ∧ ((f.src = 0x00 ∨ f.src = 0x08))) ∧
    (∃ (s : State) (f : Frame), s.hears f ∧ f.payload = [] ∧ ((f.src = 0x00 ∨ f.src = 0x08))) :=
  ⟨⟨(.trip 309 28), (at_ 0 []), ⟨by decide, by simp⟩⟩,
   ⟨(.trip 309 28), (at_ 1 []), ⟨by decide, by simp, by decide, by decide⟩⟩,
   ⟨(heard 1 []), { fr [] with src := 5 }, by decide⟩,
   ⟨(heard 1 []), (fr []), by decide⟩,
   ⟨(heard 6 []), (fr []), by decide⟩,
   ⟨(heard 2 []), { fr [] with src := 0 }, by decide⟩⟩

end Sys2Proof.Tests
end

section
/-! Accesses to offsets that no register occupies (R9), and what the completion of a host command writes (R294, R298). -/

namespace Sys2Proof.Machine

/-! ## The reply of a command -/

@[simp] theorem leBytes_length (n v : Nat) : (leBytes n v).length = n := by
  induction n generalizing v with
  | zero => rfl
  | succ n ih => simp [leBytes, ih]

/-- The registers that the completion of a command may change (R294, R298, R299, R301): its queue's state and completion-ring
pointer, and the count of commands in flight. -/
def completionRegs (q o : Nat) : Prop := o = Reg.QUEUE_STATE q ∨ o = Reg.CQ_PTR q ∨ o = Reg.Q_INFLIGHT

namespace State

variable (s : State)

theorem rd_queueError_other {q o : Nat} (r : Nat) (h : o ≠ Reg.QUEUE_STATE q) : (s.queueError q r).rd o = s.rd o := by
  unfold State.queueError
  dsimp only
  split
  · rw [rd_setFld_other _ _ h, rd_setFld_other _ _ h]
  · rw [rd_setFld_other _ _ h]

theorem rd_drainEnd_other {q o : Nat} (h : o ≠ Reg.QUEUE_STATE q) : (s.drainEnd q).rd o = s.rd o := by
  unfold State.drainEnd
  split
  · rw [rd_setFld_other _ _ h]
  · rfl

/-- The completion ring's TAIL after one reply (R298). -/
def nextTail (q : Nat) : Nat := (s.fld (Reg.CQ_PTR_TAIL q) + 1) % s.cqEntries q

/-- Bytes written to package memory and a new TAIL, with the ring's phase where TAIL wraps to 0: what else the state holds stays.
Address and bytes are variables here, since the kernel would compute with a reply's own. -/
theorem pkgWrite_setTail_eq (q a t : Nat) (l : List Byte) (x : QSt) :
    let u := (s.pkgWrite a l).setFld (Reg.CQ_PTR_TAIL q) t
    (if t = 0 then { u with queues := Store.put u.queues q x } else u) =
      { s with
        regs := (s.setFld (Reg.CQ_PTR_TAIL q) t).regs
        pkgMem := (s.pkgWrite a l).pkgMem
        poison := (s.pkgWrite a l).poison
        queues := if t = 0 then Store.put s.queues q x else s.queues } := by
  dsimp only
  split <;> rfl

/-- What a reply changes: the bytes at TAIL, TAIL itself, and the phase where TAIL wraps (R298). -/
theorem writeReply_eq (q tag st r seq head job d : Nat) :
    s.writeReply q tag st r seq head job d =
      let u := s.pkgWrite (s.replyAt q) (leBytes 32 (replyBits tag st r seq q head job d (s.qst q).phase))
      { s with
        regs := (s.setFld (Reg.CQ_PTR_TAIL q) (s.nextTail q)).regs
        pkgMem := u.pkgMem
        poison := u.poison
        queues := if s.nextTail q = 0 then Store.put s.queues q { phase := !(s.qst q).phase } else s.queues } :=
  pkgWrite_setTail_eq s q (s.replyAt q) (s.nextTail q) _ _

theorem rd_writeReply_other {q o : Nat} (tag st r seq head job d : Nat) (h : o ≠ Reg.CQ_PTR q) :
    (s.writeReply q tag st r seq head job d).rd o = s.rd o := by
  obtain ⟨-, hdev, -⟩ := (writeReply_only s q tag st r seq head job d).outside
  have hregs := congrArg State.regs (s.writeReply_eq q tag st r seq head job d)
  rw [rd_eq, hdev, hregs]
  exact rd_setFld_other s (f := Reg.CQ_PTR_TAIL q) (s.nextTail q) h

theorem writeReply_pkgMem (q tag st r seq head job d : Nat) :
    (s.writeReply q tag st r seq head job d).pkgMem =
      (s.pkgWrite (s.replyAt q) (leBytes 32 (replyBits tag st r seq q head job d (s.qst q).phase))).pkgMem := by
  rw [writeReply_eq]

theorem writeReply_flights (q tag st r seq head job d : Nat) :
    (s.writeReply q tag st r seq head job d).flights = s.flights := by
  rw [writeReply_eq]

/-- The state after a command's reply, with the command taken from those in flight and the counts lowered: what `complete`
reaches before HALT_ON_ERR and the end of draining, which change registers alone. -/
def unjoin (f : Flight) (st r d : Nat) : State :=
  let s1 := s.writeReply f.queue f.tag st r f.seq f.head f.jobId d
  let s2 := { s1 with flights := s1.flights.filter fun g => !f.same g }
  let s3 := s2.setFld (Reg.QUEUE_STATE_OUTST f.queue) (s2.fld (Reg.QUEUE_STATE_OUTST f.queue) - 1)
  s3.setFld Reg.Q_INFLIGHT_COUNT (s3.fld Reg.Q_INFLIGHT_COUNT - 1)

theorem complete_eq (f : Flight) (st r d : Nat) :
    s.complete f st r d =
      (if f.halt && haltsOn st then (s.unjoin f st r d).queueError f.queue r else s.unjoin f st r d).drainEnd f.queue := rfl

theorem complete_onlyRegs (f : Flight) (st r d : Nat) : OnlyRegs (s.unjoin f st r d) (s.complete f st r d) := by
  rw [complete_eq]
  refine OnlyRegs.trans ?_ (drainEnd_only _ _)
  split
  · exact queueError_only _ _ _
  · exact OnlyRegs.rfl' _

/-- A completed command's reply is what is written to package memory (R298). -/
theorem complete_pkgMem (f : Flight) (st r d : Nat) :
    (s.complete f st r d).pkgMem =
      (s.pkgWrite (s.replyAt f.queue)
        (leBytes 32 (replyBits f.tag st r f.seq f.queue f.head f.jobId d (s.qst f.queue).phase))).pkgMem := by
  obtain ⟨_, _, hmem, _⟩ := (complete_onlyRegs s f st r d).outside
  rw [hmem]
  exact writeReply_pkgMem s _ _ _ _ _ _ _ _

theorem complete_flights (f : Flight) (st r d : Nat) :
    (s.complete f st r d).flights = s.flights.filter fun g => !f.same g := by
  obtain ⟨_, _, _, _, _, _, hfl, _⟩ := (complete_onlyRegs s f st r d).outside
  rw [hfl, ← writeReply_flights s f.queue f.tag st r f.seq f.head f.jobId d]
  rfl

/-- A completed command has left, and its reply can be read at the completion ring's TAIL of before (R294, R298). -/
theorem replied_complete (f : Flight) (st r d : Nat) : s.replied (s.complete f st r d) f st r d := by
  refine ⟨fun g hg => ?_, fun hfit => ?_⟩
  · rw [complete_flights] at hg
    simpa using (List.mem_filter.mp hg).2
  · have hread := pkgRead_pkgWrite s (a := s.replyAt f.queue)
      (l := leBytes 32 (replyBits f.tag st r f.seq f.queue f.head f.jobId d (s.qst f.queue).phase)) (by simpa using hfit)
    rw [leBytes_length] at hread
    unfold State.pkgRead at hread ⊢
    rw [complete_pkgMem, hread]

/-- Every other register reads as before the completion. -/
theorem sameRegs_complete (f : Flight) (st r d : Nat) : s.sameRegs (s.complete f st r d) (completionRegs f.queue) := by
  intro o ho
  obtain ⟨hst, hcq, hin⟩ : o ≠ Reg.QUEUE_STATE f.queue ∧ o ≠ Reg.CQ_PTR f.queue ∧ o ≠ Reg.Q_INFLIGHT := by
    simpa [completionRegs] using ho
  have hun : (s.unjoin f st r d).rd o = s.rd o := by
    unfold unjoin
    dsimp only
    rw [rd_setFld_other _ _ hin, rd_setFld_other _ _ hst]
    exact rd_writeReply_other s _ _ _ _ _ _ _ hcq
  rw [complete_eq, rd_drainEnd_other _ hst]
  split
  · rw [rd_queueError_other _ _ hst, hun]
  · exact hun

/-! ## Offsets that no register occupies -/

variable {s} {o : Nat}

theorem ctlPut_of_freeOffset (q : Requester) (v : Word) (st : Option (Nat × Nat)) (h : s.freeOffset o) :
    s.ctlPut q o v st = s := by
  obtain ⟨hw, -, hr⟩ := h
  simp only [State.ctlPut, hw, hr]

/-- A write changes nothing whether its port is closed, its offset locked, or the write performed (R9, R35). -/
theorem ctlWrite_of_freeOffset (q : Requester) (v : Word) (ha : o % 4 = 0) (h : s.freeOffset o) : s.ctlWrite q o v = s := by
  have hput := ctlPut_of_freeOffset q v none h
  unfold State.ctlWrite
  split
  · rfl
  · rw [if_neg (not_not_intro ha), hput, ite_self]

theorem ctlRead_of_freeOffset (q : Requester) (ha : o % 4 = 0) (h : s.freeOffset o) : s.ctlRead q o = (0, s) := by
  obtain ⟨hw, hd, hr⟩ := h
  simp [State.ctlRead, ha, hw, hd, hr]

theorem readWords_one_of_freeOffset (q : Requester) (ha : o % 4 = 0) (h : s.freeOffset o) : s.readWords q o 1 = (0, s) := by
  simp [State.readWords, ctlRead_of_freeOffset q ha h]

/-- Which offsets are free does not depend on the test access port. -/
theorem freeOffset_jtag (j : Jtag) (h : s.freeOffset o) : ({ s with jtag := j } : State).freeOffset o := h

theorem cmd_of_startsCmd {i : FlightId} {op : Nat} {f : Flight} (act : Flight → State) (h : s.startsCmd i op f) :
    s.cmd i op act = act f := by
  obtain ⟨hfw, hf, -⟩ := h
  simp only [State.cmd, hfw, hf, if_true]

theorem tapOn_of_alive (h : s.alive = true) : s.tapOn = true := by
  unfold State.alive at h
  simp only [Bool.and_eq_true] at h
  obtain ⟨⟨⟨hts, -⟩, -⟩, -⟩ := h
  exact hts

end State

/-! ## The instructions -/

theorem exec_registerWrite_of_freeOffset {s : State} {o : Nat} (q : Requester) (v : Word) (ha : o % 4 = 0)
    (h : s.freeOffset o) : exec (.registerWrite ⟨q, .word⟩ o v) s = .next s.monResume := by
  change execRegisterWrite ⟨q, .word⟩ o v s = _
  simp only [execRegisterWrite, State.inWidth, State.portWrite, State.ctlWrite_of_freeOffset q v ha h, if_true]

theorem exec_regRead_of_freeOffset {s : State} {i : FlightId} {f : Flight} (hf : s.startsCmd i 0x02 f) (h1 : f.p 32 3 = 1)
    (ha : f.p 0 32 % 4 = 0) (h : s.freeOffset (f.p 0 32)) : exec (.regRead i) s = .next (s.complete f stOk 0 0) := by
  change execRegRead i s = _
  unfold execRegRead
  rw [State.cmd_of_startsCmd _ hf, h1, State.readWords_one_of_freeOffset .host ha h]

/-- A read through the open test access port shifts the last result out and captures 0 as the next. -/
theorem exec_dbgAccess_of_freeOffset {s : State} {dr : BitVec 66} (hal : s.alive = true) (hun : s.unlocked = true)
    (hrd : dr.getLsbD 64 = false) (ha : (dr.extractLsb' 32 32).toNat % 4 = 0) (h : s.freeOffset (dr.extractLsb' 32 32).toNat) :
    exec (.dbgAccess dr) s = .next { s with jtag := { s.jtag with
      ir := 0x20, tdo := scanBits 8 1 ++ scanBits 66 s.captureDbg, data := 0, done := true, err := false } } := by
  change execDbgAccess dr s = _
  have hport : s.portOpen .jtag = true := hal
  have hread := State.ctlRead_of_freeOffset .jtag ha
    (State.freeOffset_jtag ((s.irScan 0x20).drScan 66 s.captureDbg).jtag h)
  unfold execDbgAccess
  simp only [State.tapOn_of_alive hal, hport, hun, hrd, Bool.not_true, Bool.false_eq_true, if_false]
  exact congrArg (fun r : Word × State => Host.Outcome.next
    { r.2 with jtag := { r.2.jtag with data := r.1, done := true, err := false } }) hread

/-- Settles O43: the port's reads and writes at a free offset, through each instruction that makes them. -/
theorem unoccupiedOffsets : Obligations.UnoccupiedOffsets := by
  unfold Obligations.UnoccupiedOffsets
  refine ⟨fun s q o v ha h hm => ?_, fun s i f hf h1 ha h => ?_, fun s dr hal hun hrd ha h => ?_⟩
  · rw [exec_registerWrite_of_freeOffset q v ha h, hm]
  · obtain ⟨-, -, hcl, htile, -⟩ := (complete_only s f stOk 0 0).outside
    exact ⟨_, exec_regRead_of_freeOffset hf h1 ha h, s.replied_complete f stOk 0 0, hcl, htile, s.sameRegs_complete f stOk 0 0⟩
  · exact exec_dbgAccess_of_freeOffset hal hun hrd ha h

end Sys2Proof.Machine
end

section
/-! A seal of the reduction engine (R247 to R251): what it does to its bucket, to the commands that wait for it and to the clusters;
and its deferral while the bucket's place is in use (R249). -/

namespace Sys2Proof.Machine

namespace State

variable (s : State)

/-! ## The parts of a seal -/

theorem logEvent_clusters (c r a d : Nat) : (s.logEvent c r a d).clusters = s.clusters := by
  obtain ⟨-, -, -, -, hcl, -⟩ := (logEvent_only s c r a d).outside
  exact hcl

/-- A change of a tile object touches no cluster, whether it is clamped and logged or not (R238). -/
theorem tobjAdd_clusters (o : Nat) (inc : Int) (src beat : Nat) : (s.tobjAdd o inc src beat).clusters = s.clusters := by
  unfold State.tobjAdd State.tobjSum
  dsimp only
  split
  · exact logEvent_clusters _ _ _ _ _
  · split
    · exact logEvent_clusters _ _ _ _ _
    · rfl

theorem tobjAdd_flights (o : Nat) (inc : Int) (src beat : Nat) : (s.tobjAdd o inc src beat).flights = s.flights := by
  obtain ⟨-, -, -, -, hfl, -⟩ := (tobjAdd_only s o inc src beat).outside
  exact hfl

theorem pkgWrite_flights (a : Nat) (l : List Byte) : (s.pkgWrite a l).flights = s.flights := rfl

theorem pkgWrite_clusters (a : Nat) (l : List Byte) : (s.pkgWrite a l).clusters = s.clusters := rfl

theorem redWrite_flights (g i : Nat) (fs : List (Nat × Nat × Nat)) : (s.redWrite g i fs).flights = s.flights :=
  pkgWrite_flights s _ _

theorem redWrite_clusters (g i : Nat) (fs : List (Nat × Nat × Nat)) : (s.redWrite g i fs).clusters = s.clusters :=
  pkgWrite_clusters s _ _

@[simp] theorem bucket_modBucket_same (g i : Nat) (f : Bucket → Bucket) : (s.modBucket g i f).bucket g i = f (s.bucket g i) :=
  Store.get_upd_same _ _ _ _

theorem modBucket_flights (g i : Nat) (f : Bucket → Bucket) : (s.modBucket g i f).flights = s.flights := rfl

theorem modBucket_clusters (g i : Nat) (f : Bucket → Bucket) : (s.modBucket g i f).clusters = s.clusters := rfl

/-- What a seal does after its bucket is written, before the replies: NEXT moves on, sealing ends at the last bucket, and INFLIGHT is
counted anew (R247). -/
def passNext (g n : Nat) (last : Bool) : State :=
  let t := s.setFld (Reg.REDUCE_GST_NEXT g) n
  (if last then t.modGrp g fun x => { x with sealing := false } else t).showRed g

theorem passNext_leaves (g n : Nat) (last : Bool) :
    (s.passNext g n last).flights = s.flights ∧ (s.passNext g n last).clusters = s.clusters
      ∧ (s.passNext g n last).tile.buckets = s.tile.buckets := by
  cases last <;> exact ⟨rfl, rfl, rfl⟩

/-! ## The replies at a seal -/

theorem sealReplies_only (g i : Nat) : OnlyHost s (s.sealReplies g i) :=
  OnlyHost.foldl _ (fun _ _ => complete_only _ _ _ _ _) _ _

/-- Completions one after another, each with a DETAIL read from the state that it meets, take their commands and no other. -/
theorem foldl_complete_flights (st r : Nat) (d : State → Nat) (l : List Flight) :
    (l.foldl (fun u f => u.complete f st r (d u)) s).flights = s.flights.filter fun x => l.all fun f => !f.same x := by
  induction l generalizing s with
  | nil => simp
  | cons f l ih => simp [ih, complete_flights, List.filter_filter, Bool.and_comm]

/-- The commands that waited for the seal have completed, and the others are as before (R327). -/
theorem sealReplies_flights (g i : Nat) :
    (s.sealReplies g i).flights = s.flights.filter fun x => (s.flights.filter (sealNames g i)).all fun f => !f.same x :=
  foldl_complete_flights s stOk 0 (fun u => bits (s.redDesc g i) 320 9 + bits (s.redDesc g i) 329 5 * 2 ^ 9
    + u.fld (Reg.REDUCE_GST_ATTEMPT g) * 2 ^ 14 + (u.rd Reg.TILE_STEP).toNat * 2 ^ 16) _

/-! ## The seal of a bucket whose descriptor passes its check -/

/-- A seal takes its threshold from the seal object where that has reached it (R247). -/
def takeSeal (g d : Nat) : State :=
  if s.sealMet g then s.tobjAdd (bits d 176 8) (-((bits d 192 24 : Nat) : Int)) (s.agentAddr 2) s.beatLow else s

theorem takeSeal_leaves (g d : Nat) : (s.takeSeal g d).flights = s.flights ∧ (s.takeSeal g d).clusters = s.clusters := by
  unfold takeSeal
  split
  · exact ⟨tobjAdd_flights s _ _ _ _, tobjAdd_clusters s _ _ _ _⟩
  · exact ⟨rfl, rfl⟩

/-- Such a seal takes the threshold, writes the descriptor, changes the bucket, passes to the next one and replies (R247 to R252). -/
theorem doSeal_eq {g k : Nat} (hk : k = s.fld (Reg.REDUCE_GST_NEXT g)) (hd : descOk (s.redArrival g) (s.redDesc g k) = true) :
    ∃ fs want since n last, s.doSeal g =
      (((((s.takeSeal g (s.redDesc g k)).redWrite g k fs).modBucket g k fun b =>
        { b with mine := true, converting := true, want := want, since := since }).passNext g n last).sealReplies g k) := by
  subst hk
  simp only [State.doSeal, takeSeal, passNext, if_pos hd]
  exact ⟨_, _, _, _, _, rfl⟩

/-- A sealed bucket is this tile's own and converts; the commands that waited for it have left; no cluster has changed (R247, R252,
R327). -/
theorem doSeal_seals {g k : Nat} (hk : k = s.fld (Reg.REDUCE_GST_NEXT g)) (hd : descOk (s.redArrival g) (s.redDesc g k) = true) :
    (s.doSeal g).flights = (s.flights.filter fun x => (s.flights.filter (sealNames g k)).all fun f => !f.same x)
      ∧ ((s.doSeal g).bucket g k).mine = true ∧ ((s.doSeal g).bucket g k).converting = true ∧ (s.doSeal g).clusters = s.clusters := by
  obtain ⟨fs, want, since, n, last, heq⟩ := doSeal_eq s hk hd
  obtain ⟨htf, htc⟩ := takeSeal_leaves s g (s.redDesc g k)
  rw [heq]
  generalize hu : ((s.takeSeal g (s.redDesc g k)).redWrite g k fs).modBucket g k _ = u
  have huf : u.flights = s.flights := by rw [← hu, modBucket_flights, redWrite_flights, htf]
  have huc : u.clusters = s.clusters := by rw [← hu, modBucket_clusters, redWrite_clusters, htc]
  obtain ⟨hpf, hpc, hpb⟩ := passNext_leaves u g n last
  obtain ⟨-, -, hrc, hrt, -⟩ := (sealReplies_only (u.passNext g n last) g k).outside
  have hb : (((u.passNext g n last).sealReplies g k).bucket g k) = u.bucket g k := by
    unfold State.bucket
    rw [hrt, hpb]
  rw [sealReplies_flights, hb, hrc, hpf, hpc, huf, huc, ← hu, bucket_modBucket_same]
  simp

/-! ## The deferral -/

/-- No bucket is sealed in a place that is still in use (R249). -/
theorem sealOpen_of_mine {g : Nat} (h : (s.bucket g (s.fld (Reg.REDUCE_GST_NEXT g))).mine = true) : s.sealOpen g = false := by
  simp [State.sealOpen, h]

variable {s}

theorem mem_flights_of_fetched? {i : FlightId} {op : Nat} {f : Flight} (h : s.fetched? i op = some f) : f ∈ s.flights :=
  List.mem_of_find?_eq_some (Option.filter_eq_some_iff.mp h).1

theorem runsOn_runOn {f : Flight} (h : f ∈ s.flights) : (s.runOn f).runsOn f := by
  refine List.mem_map.mpr ⟨f, h, if_pos ?_⟩
  simp [Flight.same]

end State

/-! ## The instructions -/

theorem exec_bucketSeal_of_mine {s : State} {g : Fin 16} (h : (s.bucket g (s.fld (Reg.REDUCE_GST_NEXT g))).mine = true) :
    exec (.bucketSeal g) s = .next s := by
  change execBucketSeal g s = _
  simp [execBucketSeal, State.sealOpen_of_mine s h]

/-- A REDUCE_BUCKET whose bucket's place is in use waits (R249, R327). -/
theorem exec_reduceBucket_of_mine {s : State} {i : FlightId} {f : Flight} (hf : s.startsCmd i 0x41 f)
    (hk : f.p 16 12 = s.fld (Reg.REDUCE_GST_NEXT (f.p 0 4)))
    (h : (s.bucket (f.p 0 4) (s.fld (Reg.REDUCE_GST_NEXT (f.p 0 4)))).mine = true) :
    exec (.reduceBucket i) s = .next (s.runOn f) := by
  change execReduceBucket i s = _
  unfold execReduceBucket
  rw [State.cmd_of_startsCmd _ hf]
  simp [hk, State.sealOpen_of_mine s h]

/-- The deferred seal is done by either of its triggers: the seal object, or a REDUCE_BUCKET that waits (R249). -/
theorem exec_deferredSeal_of_trigger {s : State} {g : Fin 16} (hfw : s.fw = true) (ho : s.sealOpen g = true)
    (ht : s.sealMet g = true ∨ s.flights.any (sealNames g (s.fld (Reg.REDUCE_GST_NEXT g))) = true) :
    exec (.deferredSeal g) s = .next (s.doSeal g) := by
  change execDeferredSeal g s = _
  simp only [execDeferredSeal, hfw, ho, Bool.true_and, Bool.or_eq_true, ht, if_true]

/-- Settles O36: `sealOpen` excludes a bucket whose place is in use, and a seal takes every command that waited for it. -/
theorem sealsAreDeferred : Obligations.SealsAreDeferred := by
  unfold Obligations.SealsAreDeferred
  refine ⟨fun s g h => exec_bucketSeal_of_mine h, ?_, ?_, ?_⟩
  · rintro s i f g k hf rfl rfl hk hm
    have ⟨_, hfetched, _⟩ := hf
    have hrun := State.runsOn_runOn (State.mem_flights_of_fetched? hfetched)
    exact ⟨_, exec_reduceBucket_of_mine hf hk hm, hrun, rfl, rfl, rfl, fun _ => rfl, rfl⟩
  · intro s g f k hfw ho hfl hop hph hg hk hfk hd
    have hnames : sealNames g k f = true := by simp [sealNames, hop, hph, hg, hfk]
    obtain ⟨hleft, hseal⟩ := State.doSeal_seals s hk hd
    refine ⟨_, exec_deferredSeal_of_trigger hfw ho (.inr ?_), hleft.trans ?_, hseal⟩
    · simp [← hk, hfl, hnames]
    · simp [hfl, hnames, Flight.same]
  · intro s g k hfw ho hmet hfl hk hd
    obtain ⟨hleft, hseal⟩ := State.doSeal_seals s hk hd
    exact ⟨_, exec_deferredSeal_of_trigger hfw ho (.inl hmet), hleft.trans (by simp [hfl]), hseal⟩

end Sys2Proof.Machine
end

section
/-! A PKG_CONFIG that meets a move of the operating point in FW_READY (R361, R413, R429): the move gives way, and the REG_WRITE recorded as
its starter completes after the memory configuration is set. No premise bounds that REG_WRITE's queue number, and past the 8192 queues of
the tile `qBlk` runs on over other registers. -/

namespace Sys2Proof.Machine

/-- No queue of the tile has this number: `QUEUE_STATE` computed from it is the offset of `MEM_CFG`, and OUTST covers the upper bits of
NSTACK and the lower ones of STACK_LOG2. -/
def strayQueue : Nat := 156800

/-- A running REG_WRITE recorded for `strayQueue`. -/
def strayWrite : Flight :=
  { queue := strayQueue, seq := 0, opcode := 0x03, tag := 0, jobId := 0, halt := false, head := 0, param := 0, phase := .running }

/-- FW_READY, in a move to point 1 that `strayWrite` started. -/
def strayMove : State :=
  { State.reset.setFld Reg.TILE_STATE_STATE tsFwReady with
    pwr := { move := some { target := 1, former := 0, rails := [], back := false, starter := some (strayWrite.queue, strayWrite.seq) } }
    flights := [strayWrite] }

/-- A broadcast PKG_CONFIG: point 0, 4 stacks of 2^34 bytes, memory rate 256, LIMIT 8, PRIO 0 (R413). -/
def configFrame : Frame := { dst := 0xFF, src := 0x00, payload := [0, 4, 34, 0, 1, 8, 0, 0] }

/-- The premises of the PKG_CONFIG clause, with the value that it promises for NSTACK. -/
theorem strayMove_takes_configFrame : strayMove.hears configFrame ∧ configFrame.payload.length = 8
    ∧ strayMove.configOk configFrame.payload = true ∧ strayMove.fwReady = true ∧ (configFrame.payload.getD 1 0).toNat % 32 = 4 := by
  decide

/-- NSTACK in the state that a command answers. -/
def nstackAfter : Host.Outcome State Fault Refusal → Option Nat
  | .next t => some (t.fld Reg.MEM_CFG_NSTACK)
  | _ => none

/-- `MEM_CFG` takes 4 stacks of 2^34 bytes, whose bits 3 to 9 read 8; the completion counts them down to 7, as OUTST of `strayQueue`. -/
theorem nstackAfter_pkgConfig_strayMove : nstackAfter (exec (.pkgConfig configFrame) strayMove) = some 28 := by
  decide +kernel

/-- Refutes O12, in its last clause: over all states, a move's starter may carry a queue number that no queue has, and its completion
writes into the `MEM_CFG` that PKG_CONFIG has just set. No run reaches such a state, since a command's queue is a `QueueId`. -/
theorem not_packageFramesSetTimeAndValues : ¬ Obligations.PackageFramesSetTimeAndValues := by
  unfold Obligations.PackageFramesSetTimeAndValues
  rintro ⟨-, -, -, -, hconfig⟩
  obtain ⟨hhears, hlen, hok, hready, hfour⟩ := strayMove_takes_configFrame
  obtain ⟨t, ht, -, -, -, -, huse, -⟩ := hconfig strayMove configFrame hhears hlen hok
  obtain ⟨hnstack, -⟩ := huse hready
  have hrun : nstackAfter (.next t) = some 28 := ht ▸ nstackAfter_pkgConfig_strayMove
  rw [nstackAfter, hnstack.trans hfour] at hrun
  contradiction

end Sys2Proof.Machine
end

section
/-! What every operation of the tile keeps: the commands that wait, the straps and fuses, and the canonical forms of package memory, of the
register store and of the slices. -/

namespace Sys2Proof.Machine

/-- From `s` to `t` the waiting commands, the straps and the fuses stay, and no canonical form is lost. -/
structure State.Keeps (s t : State) : Prop where
  pendingEq : t.pending = s.pending
  devEq : t.dev = s.dev
  memOk : s.memOk → t.memOk
  regsWf : s.regsWf → t.regsWf
  slicesOk : s.slicesOk → t.slicesOk

namespace State.Keeps

variable {s₀ s t : State}

theorem refl (s : State) : s.Keeps s := ⟨rfl, rfl, id, id, id⟩

theorem trans (h : s₀.Keeps s) (k : s.Keeps t) : s₀.Keeps t :=
  ⟨k.pendingEq.trans h.pendingEq, k.devEq.trans h.devEq, k.memOk ∘ h.memOk, k.regsWf ∘ h.regsWf, k.slicesOk ∘ h.slicesOk⟩

theorem ite {c : Prop} [Decidable c] (hs : s₀.Keeps s) (ht : s₀.Keeps t) : s₀.Keeps (if c then s else t) := by
  split <;> assumption

theorem iteFst {α : Type} {c : Prop} [Decidable c] {p q : State × α} (hp : s₀.Keeps p.1) (hq : s₀.Keeps q.1) :
    s₀.Keeps (if c then p else q).1 := by
  split <;> assumption

theorem iteSnd {α : Type} {c : Prop} [Decidable c] {p q : α × State} (hp : s₀.Keeps p.2) (hq : s₀.Keeps q.2) :
    s₀.Keeps (if c then p else q).2 := by
  split <;> assumption

theorem foldl {β : Type} {f : State → β → State} {l : List β} (h : s₀.Keeps s) (hf : ∀ s x, s₀.Keeps s → s₀.Keeps (f s x)) :
    s₀.Keeps (l.foldl f s) := by
  induction l generalizing s with
  | nil => exact h
  | cons x l ih => exact ih (hf s x h)

theorem option {α : Type} {o : Option α} {f : α → State} (hf : ∀ a, s₀.Keeps (f a)) (h : s₀.Keeps s) :
    s₀.Keeps ((o.map f).getD s) := by
  cases o with
  | none => exact h
  | some a => exact hf a

theorem foldlFst {α β : Type} {f : State × α → β → State × α} {l : List β} {p : State × α} (h : s₀.Keeps p.1)
    (hf : ∀ p x, s₀.Keeps p.1 → s₀.Keeps (f p x).1) : s₀.Keeps (l.foldl f p).1 := by
  induction l generalizing p with
  | nil => exact h
  | cons x l ih => exact ih (hf p x h)

theorem foldlSnd {α β : Type} {f : α × State → β → α × State} {l : List β} {p : α × State} (h : s₀.Keeps p.2)
    (hf : ∀ p x, s₀.Keeps p.2 → s₀.Keeps (f p x).2) : s₀.Keeps (l.foldl f p).2 := by
  induction l generalizing p with
  | nil => exact h
  | cons x l ih => exact ih (hf p x h)

theorem getD {o : Option State} (ho : ∀ u, o = some u → s₀.Keeps u) (h : s₀.Keeps s) : s₀.Keeps (o.getD s) := by
  cases o with
  | none => exact h
  | some u => exact ho u rfl

/-- The fields that hold neither a command that waits nor a canonical form may take any value. -/
theorem update {rh wh po ti pw ck be sb bo mo jt jo fl se qu ch ed ib vo fr} (h : s₀.Keeps s) :
    s₀.Keeps { s with
      rdHold := rh, wrHold := wh, poison := po, tile := ti, pwr := pw, clk := ck, beat := be, sb := sb, boot := bo, mon := mo, jtag := jt
      job := jo, flights := fl, served := se, queues := qu, checks := ch, edges := ed, inbox := ib, vpOut := vo, free := fr } :=
  h.trans ⟨rfl, rfl, id, id, id⟩

/-! ## Registers -/

theorem wr {o : Nat} {v : Word} (h : s₀.Keeps s) : s₀.Keeps (s.wr o v) := h.trans ⟨rfl, rfl, id, regsWf_wr s o v, id⟩

theorem resetWhere {p : Nat → Bool} (h : s₀.Keeps s) : s₀.Keeps (s.resetWhere p) :=
  h.trans ⟨rfl, rfl, id, regsWf_resetWhere s p, id⟩

theorem wrWide {o n v : Nat} (h : s₀.Keeps s) : s₀.Keeps (s.wrWide o n v) := by
  induction n generalizing s o v with
  | zero => exact h
  | succ n ih => exact ih h.wr

/-! ## Memories -/

theorem pkgWrite {a : Nat} {l : List Byte} (h : s₀.Keeps s) : s₀.Keeps (s.pkgWrite a l) :=
  h.trans ⟨rfl, rfl, memOk_pkgWrite s a l, id, id⟩

/-- A change of the clusters that keeps every slice canonical. -/
theorem clusters {cs : Store Cluster} (h : s₀.Keeps s) (hc : s.slicesOk → ∀ p ∈ cs, memWf p.2.slice = true) :
    s₀.Keeps { s with clusters := cs } :=
  h.trans ⟨rfl, rfl, id, id, hc⟩

/-- A change of every cluster that leaves its slice. -/
theorem mapClusters {f : Cluster → Cluster} (h : s₀.Keeps s) (hf : ∀ c : Cluster, (f c).slice = c.slice := by intro; rfl) :
    s₀.Keeps { s with clusters := s.clusters.map fun p : Nat × Cluster => (p.1, f p.2) } :=
  h.clusters fun hs p hp => by
    obtain ⟨q, hq, rfl⟩ := List.mem_map.mp hp
    exact (hf q.2).symm ▸ hs q hq

/-- The clusters that are left keep their slices. -/
theorem filterClusters {p : Nat × Cluster → Bool} (h : s₀.Keeps s) : s₀.Keeps { s with clusters := s.clusters.filter p } :=
  h.clusters fun hs q hq => hs q (List.mem_filter.mp hq).1

/-- A change of a cluster that keeps its slice canonical. -/
theorem modClOf {site : Nat} {f : Cluster → Cluster} (h : s₀.Keeps s)
    (hf : ∀ c : Cluster, memWf c.slice = true → memWf (f c).slice = true) : s₀.Keeps (s.modCl site f) :=
  h.trans ⟨rfl, rfl, id, id, fun hs => slicesOk_modCl s site f hs hf⟩

theorem setCl {site : Nat} {c : Cluster} (h : s₀.Keeps s) (hc : s.slicesOk → memWf c.slice = true) : s₀.Keeps (s.setCl site c) :=
  h.trans ⟨rfl, rfl, id, id, fun hs => slicesOk_modCl s site (fun _ => c) hs fun _ _ => hc hs⟩

/-- A change of a cluster that leaves its slice. -/
theorem modCl {site : Nat} {f : Cluster → Cluster} (h : s₀.Keeps s) (hf : ∀ c : Cluster, (f c).slice = c.slice := by intro; rfl) :
    s₀.Keeps (s.modCl site f) :=
  h.modClOf fun c hc => (hf c).symm ▸ hc

end State.Keeps

/-- A command answers a next state, up to which the waiting commands, the straps, the fuses and the canonical forms are kept. -/
def State.Kept (s : State) (o : Host.Outcome State Fault Refusal) : Prop := ∃ t, o = .next t ∧ s.Keeps t

namespace State.Kept

variable {s t : State} {o p : Host.Outcome State Fault Refusal}

theorem next (h : s.Keeps t) : s.Kept (.next t) := ⟨t, rfl, h⟩

theorem ite {c : Prop} [Decidable c] (ho : s.Kept o) (hp : s.Kept p) : s.Kept (if c then o else p) := by
  split <;> assumption

end State.Kept

end Sys2Proof.Machine
end

section
/-! What is kept (`State.Keeps`), operation by operation: the registers, the memories, replies, resets, power and checks. Each proof follows its definition: the state's way
through the operations that the definition applies, in their order. -/

namespace Sys2Proof.Machine

open Host (Cell)

-- One theorem at a time: theorems checked side by side reserve a stack each, and together more memory than a check may take.
set_option Elab.async false

namespace State

variable {s₀ s t : State}

/-! ## Registers -/

theorem Keeps.setFld {f : Fld} {v : Nat} (h : s₀.Keeps s) : s₀.Keeps (s.setFld f v) := h.wr

theorem Keeps.setFlag {f : Fld} {b : Bool} (h : s₀.Keeps s) : s₀.Keeps (s.setFlag f b) := h.setFld

theorem Keeps.wr64 {o v : Nat} (h : s₀.Keeps s) : s₀.Keeps (s.wr64 o v) := h.wr.wr

theorem Keeps.setFld64 {o lo w v : Nat} (h : s₀.Keeps s) : s₀.Keeps (s.setFld64 o lo w v) := h.wr64

theorem Keeps.wrString {o n v : Nat} (h : s₀.Keeps s) : s₀.Keeps (s.wrString o n v) := h.foldl fun _ _ h => h.wr

theorem Keeps.count {f : Fld} {n : Nat} (h : s₀.Keeps s) : s₀.Keeps (s.count f n) := h.setFld

theorem Keeps.count64 {o n : Nat} (h : s₀.Keeps s) : s₀.Keeps (s.count64 o n) := h.wr64

theorem Keeps.setBits {o m : Nat} (h : s₀.Keeps s) : s₀.Keeps (s.setBits o m) := h.wr

theorem Keeps.mapRegs {p : Nat → Bool} {f : Word → Word} (h : s₀.Keeps s) : s₀.Keeps (s.mapRegs p f) := h.foldl fun _ _ h => h.wr

theorem Keeps.enter {t' : Nat} (h : s₀.Keeps s) : s₀.Keeps (s.enter t') := h.setFld.setFld.setFlag

/-! ## Memories, messages and frames to send -/

theorem Keeps.pkgPoison {a n : Nat} (h : s₀.Keeps s) : s₀.Keeps (s.pkgPoison a n) := h.update

theorem Keeps.log {e : Entry} (h : s₀.Keeps s) : s₀.Keeps (s.log e) := .count (.setFld (.setFld (.setFld (.ite h.wrWide.setFlag h.wrWide))))

theorem Keeps.logEvent {cls reason source detail : Nat} (h : s₀.Keeps s) : s₀.Keeps (s.logEvent cls reason source detail) := h.log

theorem Keeps.sbQueue {f : TxFrame} (h : s₀.Keeps s) : s₀.Keeps (s.sbQueue f) := .ite h (.ite h.count h.update)

theorem Keeps.alert {cause : Nat} (h : s₀.Keeps s) : s₀.Keeps (s.alert cause) := h.sbQueue

theorem Keeps.modEdge {e : Nat} {f : EdgeSt → EdgeSt} (h : s₀.Keeps s) : s₀.Keeps (s.modEdge e f) := h.update

theorem Keeps.takeSym {e : Nat} {p : Word → Bool} (h : s₀.Keeps s) : s₀.Keeps (s.takeSym e p) := .ite h.modEdge h

theorem Keeps.edgeSend {e : Nat} {m : GMsg} (h : s₀.Keeps s) : s₀.Keeps (s.edgeSend e m) := .ite h.count.logEvent h.modEdge

theorem Keeps.edgeSendOf {e : Nat} {m : NMsg} (h : s₀.Keeps s) : s₀.Keeps (s.edgeSendOf e m) := by
  unfold State.edgeSendOf
  extract_lets
  split
  · exact .ite h.edgeSend h.edgeSend.modEdge
  · exact h.edgeSend

theorem Keeps.deliverHere {m : GMsg} (h : s₀.Keeps s) : s₀.Keeps (s.deliverHere m) := .ite h.logEvent h.update

theorem Keeps.noRoute {m : GMsg} (h : s₀.Keeps s) : s₀.Keeps (s.noRoute m) := .ite h.logEvent h.logEvent

theorem Keeps.send {m : GMsg} (h : s₀.Keeps s) : s₀.Keeps (s.send m) := by
  unfold State.send
  split
  · exact h.deliverHere
  · exact h.update
  · exact h.noRoute
  · exact h.edgeSend

theorem Keeps.showRemap (h : s₀.Keeps s) : s₀.Keeps s.showRemap := h.foldl fun _ _ h => h.setFld

/-! ## Replies and the monitor's lines -/

theorem Keeps.print {l : List String} (h : s₀.Keeps s) : s₀.Keeps (s.print l) := h.update

theorem Keeps.sayEnd {x : String} (h : s₀.Keeps s) : s₀.Keeps (s.sayEnd x) := h.print.update

theorem Keeps.sayOk (h : s₀.Keeps s) : s₀.Keeps s.sayOk := h.sayEnd

theorem Keeps.sayErr {reason : Nat} (h : s₀.Keeps s) : s₀.Keeps (s.sayErr reason) := h.sayEnd

theorem Keeps.queueError {q reason : Nat} (h : s₀.Keeps s) : s₀.Keeps (s.queueError q reason) := .ite h.setFld.setFld h.setFld

theorem Keeps.doorbellError {q reason : Nat} (h : s₀.Keeps s) : s₀.Keeps (s.doorbellError q reason) := h.setFld.setFld

theorem Keeps.writeReply {q tag status reason seq head jobId detail : Nat} (h : s₀.Keeps s) : s₀.Keeps (s.writeReply q tag status reason
    seq head jobId detail) :=
  .ite h.pkgWrite.setFld.update h.pkgWrite.setFld

theorem Keeps.drainEnd {q : Nat} (h : s₀.Keeps s) : s₀.Keeps (s.drainEnd q) := .ite h.setFld h

theorem Keeps.setFlight {f : Flight} (h : s₀.Keeps s) : s₀.Keeps (s.setFlight f) := h.update

theorem Keeps.complete {f : Flight} {status reason detail : Nat} (h : s₀.Keeps s) : s₀.Keeps (s.complete f status reason detail) :=
  .drainEnd (.ite h.writeReply.update.setFld.setFld.queueError h.writeReply.update.setFld.setFld)

theorem Keeps.completeWhere {p : Flight → Bool} {status reason : Nat} (h : s₀.Keeps s) : s₀.Keeps (s.completeWhere p status reason) :=
  h.foldl fun _ _ h => h.complete

theorem Keeps.sendBootStatus (h : s₀.Keeps s) : s₀.Keeps s.sendBootStatus := .ite h.sbQueue h.sbQueue.sbQueue

theorem Keeps.enterFailed {reason : Nat} (h : s₀.Keeps s) : s₀.Keeps (s.enterFailed reason) :=
  h.enter.setFld.setFlag.update.completeWhere.sendBootStatus

theorem Keeps.fail {reason : Nat} (h : s₀.Keeps s) : s₀.Keeps (s.fail reason) := .ite h h.enterFailed

/-! ## Resets -/

theorem Keeps.showRetired (h : s₀.Keeps s) : s₀.Keeps s.showRetired := h.foldl (fun _ _ h => h.foldl (fun _ _ h => .ite h.setFld h))

theorem Keeps.jobReset (h : s₀.Keeps s) : s₀.Keeps s.jobReset := by
  unfold State.jobReset
  exact h.resetWhere.mapRegs.mapClusters.update.showRetired

theorem Keeps.dropTile (h : s₀.Keeps s) : s₀.Keeps s.dropTile := by
  unfold State.dropTile
  exact h.mapClusters.update

theorem Keeps.tileReset (h : s₀.Keeps s) : s₀.Keeps s.tileReset :=
  .showRetired (.setFlag (.ite h.resetWhere.dropTile.setFlag h.resetWhere.dropTile))

theorem Keeps.dropMesh (h : s₀.Keeps s) : s₀.Keeps s.dropMesh := by
  unfold State.dropMesh
  exact h.clusters (cs := []) fun _ => by simp

theorem Keeps.off (h : s₀.Keeps s) : s₀.Keeps s.off := by
  unfold State.off
  exact .setFld (h.trans ⟨rfl, rfl, id, fun _ => ⟨List.Pairwise.nil, by simp⟩, fun _ => by simp [State.slicesOk]⟩)

/-! ## Power -/

theorem Keeps.regSend {ty rail payload : Nat} (h : s₀.Keeps s) : s₀.Keeps (s.regSend ty rail payload) := h.update

theorem Keeps.moveRequest (h : s₀.Keeps s) : s₀.Keeps s.moveRequest := by
  unfold State.moveRequest
  split
  · exact h.update.regSend
  · exact h

theorem Keeps.checkEnded {who : Option (Nat × Nat)} {detail : Nat} (h : s₀.Keeps s) : s₀.Keeps (s.checkEnded who detail) := by
  unfold State.checkEnded
  split
  · exact h
  · refine .ite (.ite h.update.sayOk h) ?_
    split
    · exact h
    · exact .ite h.complete h.setFlight

theorem Keeps.opStart {target : Nat} {starter : Option (Nat × Nat)} (h : s₀.Keeps s) : s₀.Keeps (s.opStart target starter) := by
  unfold State.opStart
  dsimp only
  refine .moveRequest (.update (.setFlag (.setFld ?_)))
  split
  · exact h.checkEnded
  · exact h

theorem Keeps.moveEnd {m : Move} (h : s₀.Keeps s) : s₀.Keeps (s.moveEnd m) := h.setFld.setFlag.update.checkEnded

theorem Keeps.bootRetryLater {reason : Nat} (h : s₀.Keeps s) : s₀.Keeps (s.bootRetryLater reason) := h.setFld.update

theorem Keeps.moveAck {rail : Nat} (h : s₀.Keeps s) : s₀.Keeps (s.moveAck rail) := by
  unfold State.moveAck
  split
  · split
    · exact .ite h (.ite h.moveEnd h.update.moveRequest)
    · exact h.moveEnd
  · exact h

theorem Keeps.moveNack (h : s₀.Keeps s) : s₀.Keeps s.moveNack := by
  unfold State.moveNack
  split
  · exact .ite h.setFld.moveEnd (.ite h.setFld.moveEnd h.setFld.update.moveRequest)
  · exact h

theorem Keeps.wakeRails (h : s₀.Keeps s) : s₀.Keeps s.wakeRails := by
  unfold State.wakeRails
  exact h.update.moveRequest

theorem Keeps.wakeBy {n : Nat} (h : s₀.Keeps s) : s₀.Keeps (s.wakeBy n) :=
  .ite h.setFld.setFld.setFld.setFld (.ite h.setFld.setFld.wakeRails.update h)

theorem Keeps.cmpFire {n : Nat} (h : s₀.Keeps s) : s₀.Keeps (s.cmpFire n) :=
  .ite (.ite (.alert (.ite h.setFlag.wakeBy h.setFlag)) (.ite h.setFlag.wakeBy h.setFlag)) h

theorem Keeps.cmpSee {n : Nat} (h : s₀.Keeps s) : s₀.Keeps (s.cmpSee n) := .ite h (.ite h.setFlag.cmpFire h.setFlag)

theorem Keeps.setTime {v : Nat} (h : s₀.Keeps s) : s₀.Keeps (s.setTime v) := h.wr64.cmpSee

theorem Keeps.setTemp {temp region : Nat} (h : s₀.Keeps s) : s₀.Keeps (s.setTemp temp region) := h.setFld.setFld.cmpSee

theorem Kept.comparatorFire {n : Fin 4} {reading : BitVec 10} (h : s₀.Keeps s) : s₀.Kept (execComparatorFire n reading s) :=
  .next (.ite h (.ite h.setTemp (.ite h.update.cmpSee h.cmpSee)))

theorem Keeps.tick (h : s₀.Keeps s) : s₀.Keeps s.tick :=
  .ite h (.ite (.ite h.count64.cmpSee (.update (.ite h.count64.cmpSee h.count64.cmpSee.count64))) h.count64.cmpSee.update)

theorem Keeps.childAsks {e n : Nat} (h : s₀.Keeps s) : s₀.Keeps (s.childAsks e n) := h.update

theorem Keeps.forwardStretch {always : Bool} (h : s₀.Keeps s) : s₀.Keeps (s.forwardStretch always) :=
  .ite h (.ite h.update.modEdge h.update)

theorem Keeps.addEnergy {p : Nat} (h : s₀.Keeps s) : s₀.Keeps (s.addEnergy p) := h.count64.update

theorem Keeps.throttle {fast : Nat × Nat} (h : s₀.Keeps s) : s₀.Keeps (s.throttle fast) :=
  .ite (.ite h.update.setFlag h.update) (.ite h.update.setFlag.setFlag.setFld.alert h.update)

theorem Keeps.sample (h : s₀.Keeps s) : s₀.Keeps s.sample := by
  unfold State.sample
  dsimp only
  refine .ite (.addEnergy (.ite h.update.setFld.setFld.setFlag.setFld h.update.setFld.setFld.setFlag)) (.forwardStretch (.throttle ?_))
  split
  · exact .update (.setFld (.addEnergy (.ite h.update.setFld.setFld.setFlag.setFld h.update.setFld.setFld.setFlag)))
  · exact .addEnergy (.ite h.update.setFld.setFld.setFlag.setFld h.update.setFld.setFld.setFlag)

theorem Kept.limiterSample {temp : Byte} {r : Region} (h : s₀.Keeps s) : s₀.Kept (execLimiterSample temp r s) :=
  .next (.ite h (.ite h.setTemp.sample h.setTemp))

theorem Kept.stretchRequest {e : Edge} {n : Fin 16} (h : s₀.Keeps s) : s₀.Kept (execStretchRequest e n s) :=
  .next (.ite h.takeSym.childAsks.forwardStretch h)

theorem Kept.telem {head : Byte} {payload : BitVec 24} {crc : Byte} (h : s₀.Keeps s) : s₀.Kept (execTelem head payload crc s) :=
  .next (.ite h.update h)

theorem Kept.droopTrip {d : DroopRead} (h : s₀.Keeps s) : s₀.Kept (execDroopTrip d s) := .next (.ite h.setBits.update h)

theorem Kept.droopRecover (h : s₀.Keeps s) : s₀.Kept (execDroopRecover s) := .next (.ite h.update h)

theorem Keeps.thermTrip {temp : Nat} (h : s₀.Keeps s) : s₀.Keeps (s.thermTrip temp) :=
  h.tileReset.dropMesh.update.setTemp.setFlag.setFld.alert

theorem Kept.thermalTrip {r : Region} {temp : Byte} (h : s₀.Keeps s) : s₀.Kept (execThermalTrip r temp s) :=
  .next (.ite h h.setFld.thermTrip)

theorem Kept.trip {w : Word} {crc : Byte} (h : s₀.Keeps s) : s₀.Kept (execTrip w crc s) := .next (.ite h h.thermTrip)

/-- A region that loses its power takes its clusters with it (R371). -/
theorem Keeps.dropRegion {p : Nat × Cluster → Bool} {pw : Pwr} (h : s₀.Keeps s) :
    s₀.Keeps { s with clusters := s.clusters.filter p, pwr := pw } :=
  h.filterClusters.update

theorem Keeps.regionOff {r : Nat} (h : s₀.Keeps s) : s₀.Keeps (s.regionOff r) := by
  unfold State.regionOff
  exact h.setFld.dropRegion

theorem Keeps.regionOn {r : Nat} (h : s₀.Keeps s) : s₀.Keeps (s.regionOn r) := by
  unfold State.regionOn
  exact h.resetWhere.dropRegion.setFld.showRetired

theorem Keeps.regionWrite {v : Nat} (h : s₀.Keeps s) : s₀.Keeps (s.regionWrite v) :=
  h.setFld.foldl (fun _ _ h => .ite (.ite h.update h.regionOff) (.ite h.update h))

theorem Kept.regionPowerUpDone {r : Region} (h : s₀.Keeps s) : s₀.Kept (execRegionPowerUpDone r s) := .next (.ite h.regionOn h)

theorem Keeps.restoreRw {o : Nat} {v : Word} (h : s₀.Keeps s) : s₀.Keeps (s.restoreRw o v) := by
  unfold State.restoreRw
  split
  · exact h.wr
  · exact h

theorem Keeps.fallAsleep (h : s₀.Keeps s) : s₀.Keeps s.fallAsleep :=
  (((((h.foldl (fun _ _ h => h.wr)).showRemap).foldl (fun _ _ h => h.setFld)).dropMesh).update).setFld

theorem Keeps.wakeFields (h : s₀.Keeps s) : s₀.Keeps s.wakeFields := by
  unfold State.wakeFields
  exact ((((h.resetWhere.foldl (fun _ _ h => .ite h.restoreRw h.wr)).foldl (fun _ _ h => h.modCl)).update).showRetired).showRemap

theorem Keeps.wakeEnd (h : s₀.Keeps s) : s₀.Keeps s.wakeEnd := h.update.setFld.setFld

theorem Kept.sleepEntryDone (h : s₀.Keeps s) : s₀.Kept (execSleepEntryDone s) := by
  unfold execSleepEntryDone
  refine .next (.ite ?_ h)
  split
  · exact h.wakeBy
  · exact h.fallAsleep

theorem Kept.vddAonFall (h : s₀.Keeps s) : s₀.Kept (execVddAonFall s) := by
  unfold execVddAonFall
  exact .next h.off

theorem Kept.refclkLoss (h : s₀.Keeps s) : s₀.Kept (execRefclkLoss s) := .next h.update

theorem Kept.refclkReturn (h : s₀.Keeps s) : s₀.Kept (execRefclkReturn s) := .next h.update

/-! ## Consistency checks -/

theorem Keeps.showChecking {w : Enable} {on : Bool} (h : s₀.Keeps s) : s₀.Keeps (s.showChecking w on) := by
  unfold State.showChecking
  split
  · exact .ite h.setFld h
  · exact h.setFlag
  · exact h.setFlag
  · exact h.setFlag

theorem Keeps.trainAgain {e : Nat} (h : s₀.Keeps s) : s₀.Keeps (s.trainAgain e) := h.setFld.modEdge

theorem Keeps.trainStart {e : Nat} (h : s₀.Keeps s) : s₀.Keeps (s.trainStart e) := h.setFld.modEdge

theorem Keeps.checkBegin (h : s₀.Keeps s) : s₀.Keeps s.checkBegin := by
  unfold State.checkBegin
  split
  · exact .ite h.trainStart h
  · exact h

theorem Keeps.checkStart {w : Enable} {starter : Option (Nat × Nat)} (h : s₀.Keeps s) : s₀.Keeps (s.checkStart w starter) :=
  .ite h.showChecking.update.checkBegin h.showChecking.update

theorem Keeps.setChkReason {reason source index : Nat} (h : s₀.Keeps s) : s₀.Keeps (s.setChkReason reason source index) := h.wr

theorem Keeps.checkPass {w : Enable} (h : s₀.Keeps s) : s₀.Keeps (s.checkPass w) := by
  unfold State.checkPass
  split
  · exact h.setFld.wr.wr.setFld.setFlag.update
  · exact h.setFlag
  · exact h.setFlag
  · exact h.setFlag

theorem Keeps.checkRefuse {c : Check} {reason : Nat} (h : s₀.Keeps s) : s₀.Keeps (s.checkRefuse c reason) := by
  unfold State.checkRefuse
  split
  · exact h.setFld.setFld
  · exact h
  · exact h.setFld
  · exact h

theorem Keeps.checkEnd {k : Nat} {mode : Bool} {delay : Nat} (h : s₀.Keeps s) : s₀.Keeps (s.checkEnd k mode delay) := by
  unfold State.checkEnd
  split
  · exact h
  · split
    · exact h
    · exact .checkBegin (.checkEnded (.setChkReason (.ite h.showChecking.update.checkPass h.showChecking.update.checkRefuse)))

theorem Keeps.queueEnable {q : Nat} {starter : Option (Nat × Nat)} (h : s₀.Keeps s) : s₀.Keeps (s.queueEnable q starter) :=
  .ite h.checkStart h

theorem Keeps.queueDisable {q : Nat} (h : s₀.Keeps s) : s₀.Keeps (s.queueDisable q) :=
  .ite (.ite ((h.update.setFld.setFld.setChkReason.foldl (fun _ _ h => h.checkEnded)).checkBegin)
    (h.update.setFld.setFld.setChkReason.foldl (fun _ _ h => h.checkEnded))) (.ite h.setFlag.setFld.drainEnd h)

end State

end Sys2Proof.Machine
end

section
/-! What is kept (`State.Keeps`), operation by operation: the clusters: control cores, arrays and engines. Each proof follows its definition: the state's way
through the operations that the definition applies, in their order. -/

namespace Sys2Proof.Machine

open Host (Cell)

-- One theorem at a time: theorems checked side by side reserve a stack each, and together more memory than a check may take.
set_option Elab.async false

namespace State

variable {s₀ s t : State}

/-! ## Objects, errors and the discard of a block -/

theorem Keeps.modSlot {site n : Nat} {f : SlotSt → SlotSt} (h : s₀.Keeps s) : s₀.Keeps (s.modSlot site n f) := h.modCl

theorem Keeps.modBlk {site n : Nat} {f : Blk → Blk} (h : s₀.Keeps s) : s₀.Keeps (s.modBlk site n f) := h.modSlot

theorem Keeps.modArr {site a : Nat} {f : Arr → Arr} (h : s₀.Keeps s) : s₀.Keeps (s.modArr site a f) := h.modCl

theorem Keeps.modEng {site e : Nat} {f : Eng → Eng} (h : s₀.Keeps s) : s₀.Keeps (s.modEng site e f) := h.modCl

theorem Keeps.modCtx {site d : Nat} {f : Ctx → Ctx} (h : s₀.Keeps s) : s₀.Keeps (s.modCtx site d f) := h.modCl

theorem Keeps.setSlotState {site n v : Nat} (h : s₀.Keeps s) : s₀.Keeps (s.setSlotState site n v) := h.setFld

theorem Keeps.showSlot {site n v : Nat} (h : s₀.Keeps s) : s₀.Keeps (s.showSlot site n v) := h.setSlotState

theorem Keeps.setLand {site n v : Nat} (h : s₀.Keeps s) : s₀.Keeps (s.setLand site n v) := h.setFld

theorem Keeps.landBind {site n unit : Nat} (h : s₀.Keeps s) : s₀.Keeps (s.landBind site n unit) := h.setLand.setFld

theorem Keeps.landFill {site n : Nat} (h : s₀.Keeps s) : s₀.Keeps (s.landFill site n) := h.setLand.setFld

theorem Keeps.netPush {site d : Nat} {m : NMsg} (h : s₀.Keeps s) : s₀.Keeps (s.netPush site d m) := h.update

theorem Keeps.netLand {path : Nat} {m : NMsg} (h : s₀.Keeps s) : s₀.Keeps (s.netLand path m) := h.update

theorem Keeps.netDown {site : Nat} {g : NMsg} (h : s₀.Keeps s) : s₀.Keeps (s.netDown site g) := .ite h.send h.netPush

theorem Keeps.netSend {site : Nat} {m : NMsg} (h : s₀.Keeps s) : s₀.Keeps (s.netSend site m) := by
  unfold State.netSend
  extract_lets
  split
  · exact .ite h.deliverHere (.ite h.netLand h.netPush)
  · exact h.netPush
  · exact h.netDown
  · exact h.send

theorem Keeps.netHop {site d : Nat} {hop : Nat × Nat} {m : NMsg} (h : s₀.Keeps s) : s₀.Keeps (s.netHop site d hop m) := by
  unfold State.netHop
  extract_lets
  split
  · exact .ite h.netLand h.netPush
  · exact h.netLand
  · exact h.netPush
  · exact h.edgeSendOf
  · exact h.netDown
  · exact h.send

theorem Keeps.showQueues {site : Nat} (h : s₀.Keeps s) : s₀.Keeps (s.showQueues site) :=
  ((h.foldl (fun _ _ h => h.setFld)).foldl (fun _ _ h => h.setFld)).setFld

theorem Keeps.bump {site : Nat} (h : s₀.Keeps s) : s₀.Keeps (s.bump site) := h.modCl

theorem Keeps.queueArr {site : Nat} {o : Op} (h : s₀.Keeps s) (e : s.queueArr site o = some t) : s₀.Keeps t := by
  unfold State.queueArr at e
  dsimp only at e
  split at e
  · cases e
    exact (h.bump.foldl fun _ _ h => h.modArr).showQueues
  · cases e

theorem Keeps.batchRelease {site a : Nat} (h : s₀.Keeps s) (e : s.batchRelease site a = some t) : s₀.Keeps t := by
  unfold State.batchRelease at e
  dsimp only at e
  split at e
  · cases e
    exact h
  · obtain ⟨u, hu, rfl⟩ := Option.map_eq_some_iff.mp e
    exact (h.queueArr hu).modArr.setFld.setFld.count

theorem Keeps.shrunk {site : Nat} (h : s₀.Keeps s) : s₀.Keeps (s.shrunk site) :=
  h.showQueues.foldl (fun _ _ h => .ite (.getD (fun _ e => h.batchRelease e) h) h)

theorem Keeps.dropOps {site n blk : Nat} (h : s₀.Keeps s) : s₀.Keeps (s.dropOps site n blk) := h.modCl.shrunk

theorem Keeps.readBind {site l u : Nat} {mine : Bool} (h : s₀.Keeps s) (e : s.readBind site l u mine = some t) : s₀.Keeps t := by
  unfold State.readBind at e
  split at e
  · cases e
    exact h
  · split at e
    · cases e
      exact h.setLand
    · cases e

theorem Keeps.bankClash {site : Nat} {ls : List Nat} (h : s₀.Keeps s) : s₀.Keeps (s.bankClash site ls) :=
  h.foldl (fun _ _ h => .ite h h.count)

theorem Keeps.objSum {site o : Nat} {incs : List ℤ} {src beat : Nat} (h : s₀.Keeps s) : s₀.Keeps (s.objSum site o incs src beat) :=
  .ite h.setFld.modCl.setFld64.logEvent (.ite h.setFld.modCl.setFld64.logEvent h.setFld.modCl)

theorem Keeps.objAdd {site o : Nat} {inc : ℤ} {src beat : Nat} (h : s₀.Keeps s) : s₀.Keeps (s.objAdd site o inc src beat) := h.objSum

theorem Keeps.tobjSum {o : Nat} {incs : List ℤ} {src beat : Nat} (h : s₀.Keeps s) : s₀.Keeps (s.tobjSum o incs src beat) :=
  .ite h.setFld.update.setBits.logEvent (.ite h.setFld.update.setBits.logEvent h.setFld.update)

theorem Keeps.tobjAdd {o : Nat} {inc : ℤ} {src beat : Nat} (h : s₀.Keeps s) : s₀.Keeps (s.tobjAdd o inc src beat) := h.tobjSum

theorem Keeps.deliver {site : Nat} {g : Sig} (h : s₀.Keeps s) : s₀.Keeps (s.deliver site g) := by
  unfold State.deliver
  extract_lets
  split
  · exact h.objAdd
  · exact .ite h.tobjAdd h.netSend
  · exact h.netSend
  · exact h

theorem Keeps.opSignal {site n blk ref inc unit : Nat} (h : s₀.Keeps s) : s₀.Keeps (s.opSignal site n blk ref inc unit) :=
  .ite (.ite h.modBlk h.modBlk) h.deliver

theorem Keeps.edgeTest {e : Nat} (h : s₀.Keeps s) : s₀.Keeps (s.edgeTest e) := .ite h.setFld.modEdge h

theorem Keeps.portTest {p : Nat} (h : s₀.Keeps s) : s₀.Keeps (s.portTest p) := .ite h.setFld.update h

theorem Keeps.showFault {u : TestUnit} (h : s₀.Keeps s) : s₀.Keeps (s.showFault u) := by
  unfold State.showFault
  split
  · exact .ite h.setFld (.ite h.setFld h)
  · exact h
  · exact h.edgeTest
  · exact h.portTest
  · exact h

theorem Keeps.raise {e : PErr} (h : s₀.Keeps s) : s₀.Keeps (s.raise e) := by
  unfold State.raise
  split
  · exact h.update.showFault
  · exact .ite h (.showFault (.update (.ite (.modBlk (.ite (.setFlag (.ite h.setFld.setFld.setFld h.setFld.setFld)) (.ite
      h.setFld.setFld.setFld h.setFld.setFld))) (.ite (.setFlag (.ite h.setFld.setFld.setFld h.setFld.setFld)) (.ite
      h.setFld.setFld.setFld h.setFld.setFld)))))

theorem Keeps.memRangeAt {p a n : Nat} (h : s₀.Keeps s) : s₀.Keeps (s.memRangeAt p a n) := .ite h.raise h

theorem Keeps.memRange {a n : Nat} (h : s₀.Keeps s) : s₀.Keeps (s.memRange a n) := h.memRangeAt

theorem Keeps.raiseAt {cls site unit n blk reason detail : Nat} (h : s₀.Keeps s) : s₀.Keeps (s.raiseAt cls site unit n blk reason detail) :=
  h.raise

theorem Keeps.mendStore {site e : Nat} (h : s₀.Keeps s) : s₀.Keeps (s.mendStore site e) := h.modCl

theorem Keeps.parityMet {site n blk : Nat} {w : BadWord} (h : s₀.Keeps s) : s₀.Keeps (s.parityMet site n blk w) :=
  .raise (.ite h.modCl.mendStore h.modCl)

theorem Keeps.parityAt {site unit n blk : Nat} (h : s₀.Keeps s) (e : s.parityAt site unit n blk = some t) : s₀.Keeps t := by
  obtain ⟨_, -, rfl⟩ := Option.map_eq_some_iff.mp e
  exact h.parityMet

theorem Keeps.syncParity {site : Nat} (h : s₀.Keeps s) : s₀.Keeps (s.syncParity site) := .getD (fun _ e => h.parityAt e) h

theorem Keeps.showCtx {site d : Nat} (h : s₀.Keeps s) : s₀.Keeps (s.showCtx site d) := by
  unfold State.showCtx
  extract_lets
  split
  · exact h.setFld.setFld.setFld.setFlag
  · exact h.setFld.setFld.setFld.setFlag.setFld.setFld

theorem Keeps.cancelCtx {site d : Nat} (h : s₀.Keeps s) : s₀.Keeps (s.cancelCtx site d) :=
  (((((h.foldl (fun _ _ h => h.setLand)).modCtx).modCl).update).setFld).showCtx

theorem Keeps.undoArm {site d : Nat} {home : Word} {n blk : Nat} (h : s₀.Keeps s) : s₀.Keeps (s.undoArm site d home n blk) :=
  .wr (.ite h.cancelCtx (.ite h.modCtx.showCtx h))

theorem Keeps.keepLoads {s0 : State} {site n : Nat} (h : s₀.Keeps s) : s₀.Keeps (s.keepLoads s0 site n) := h.modBlk

/-- What a discard takes back is what the block wrote: the slice stays canonical (R282). -/
theorem Keeps.takeBack {site : Nat} {l : List (Nat × Byte × Byte)} (h : s₀.Keeps s) :
    s₀.Keeps (s.modCl site fun c => { c with slice := Machine.takeBack c.slice l }) :=
  h.modClOf fun c hc => memWf_takeBack c.slice l hc

theorem Keeps.discard {site n st : Nat} (h : s₀.Keeps s) : s₀.Keeps (s.discard site n st) := by
  unfold State.discard
  extract_lets b src s1 s2 s3 s4 s5 sl s6 s7 s8 s9
  have h1 : s₀.Keeps s1 := h.foldl fun _ _ h => h.objAdd
  have h4 : s₀.Keeps s4 := ((h1.foldl fun _ _ h => h.setLand.setFlag).foldl fun _ _ h => h.setLand).foldl fun _ _ h => h.undoArm
  have h5 : s₀.Keeps s5 := h4.dropOps.takeBack
  have h8 : s₀.Keeps s8 := h5.modSlot.setFld.setFld.setFld.setSlotState
  have h9 : s₀.Keeps s9 := .ite h8.setFlag h8
  exact h9.update

theorem Keeps.settle {site n : Nat} (h : s₀.Keeps s) : s₀.Keeps (s.settle site n) := .ite (.ite h.dropOps h.dropOps.discard) h

theorem Keeps.settleAll {site : Nat} (h : s₀.Keeps s) : s₀.Keeps (s.settleAll site) := h.foldl fun _ _ h => h.settle

theorem Keeps.trap {site n cause : Nat} (h : s₀.Keeps s) : s₀.Keeps (s.trap site n cause) := h.setFld.setSlotState.modSlot.raiseAt.settle

theorem Keeps.opTrap {site : Nat} {o : Op} (h : s₀.Keeps s) : s₀.Keeps (s.opTrap site o) := .ite h.trap h.raiseAt

theorem Keeps.waitTmo {site unit n blk ref seen thr ctx : Nat} {landing : Bool} (h : s₀.Keeps s) : s₀.Keeps (s.waitTmo site unit n blk ref
    seen thr ctx landing) :=
  h.wr64.raise

theorem Keeps.corrected {site w : Nat} (h : s₀.Keeps s) : s₀.Keeps (s.corrected site w) := .ite h.modCl.count.raise h.modCl.count

theorem Keeps.badWord {site w code : Nat} {who : Who} (h : s₀.Keeps s) : s₀.Keeps (s.badWord site w code who) := .ite h.count.raise h.raise

theorem Keeps.makeGood {site : Nat} {ps : List Nat} (h : s₀.Keeps s) : s₀.Keeps (s.makeGood site ps) := h.modCl

theorem Keeps.meet {site a n : Nat} {who : Who} (h : s₀.Keeps s) : s₀.Keeps (s.meet site a n who).1 :=
  h.foldlFst (fun _ _ h => .iteFst h.corrected h.badWord)

theorem Keeps.offError {site a n : Nat} {who : Who} (h : s₀.Keeps s) : s₀.Keeps (s.offError site a n who) := .ite h.raise h

theorem Keeps.meetLand {site : Nat} {rs : List (Nat × Nat)} {who : Who} (h : s₀.Keeps s) : s₀.Keeps (s.meetLand site rs who) := by
  unfold State.meetLand
  dsimp only
  refine .foldl ?_ (fun _ _ h => h.meet)
  split
  · exact h.offError
  · exact h

theorem Keeps.touchRead {site a n : Nat} {who : Who} (h : s₀.Keeps s) : s₀.Keeps (s.touchRead site a n who).1 :=
  .meet (.offError (.ite h.modBlk h))

theorem Keeps.guardTrip {site n line kind : Nat} (h : s₀.Keeps s) : s₀.Keeps (s.guardTrip site n line kind) := by
  unfold State.guardTrip
  exact .modBlk (.ite (.ite h.wr64.count h.wr64) (.log (.modSlot (.ite h.wr64.count h.wr64))))

theorem memWf_putCells {ok : Nat × Byte → Bool} (l : List (Nat × Byte)) {m : List Cell} (h : memWf m = true) :
    memWf (l.foldl (fun m p => if ok p then memPut m p.1 p.2 else m) m) = true := by
  induction l generalizing m with
  | nil => exact h
  | cons p l ih =>
    refine ih ?_
    beta_reduce
    split
    · exact memWf_memPut m p.1 p.2 h
    · exact h

theorem Keeps.sliceWrite {site a : Nat} {bs : List Byte} {who : Who} (h : s₀.Keeps s) : s₀.Keeps (s.sliceWrite site a bs who) := by
  unfold State.sliceWrite
  extract_lets n lo hi part s1 stuck s2 cells ok s3
  have h1 : s₀.Keeps s1 := h.foldl fun _ _ h => h.meet
  have h3 : s₀.Keeps s3 := h1.offError.modClOf fun _ hc => memWf_putCells cells hc
  exact .ite h (.ite (h3.modBlk.foldl fun _ _ h => h.guardTrip) h3)

theorem Keeps.writeRec {site off r : Nat} {who : Who} (h : s₀.Keeps s) : s₀.Keeps (s.writeRec site off r who) := h.sliceWrite

theorem Keeps.countRec {site unit : Nat} {r : Rec} (h : s₀.Keeps s) : s₀.Keeps (s.countRec site unit r) := h.count.count.setBits

theorem Keeps.foldCtxHint {site d : Nat} {r : Rec} {who : Who} (h : s₀.Keeps s) : s₀.Keeps (s.foldCtxHint site d r who) :=
  .ite h.sliceWrite h.setFlag

/-! ## Control cores -/

theorem Keeps.coreParity {site n : Nat} (h : s₀.Keeps s) : s₀.Keeps (s.coreParity site n) := by
  unfold State.coreParity
  split
  · exact .ite h.setSlotState.modSlot.parityMet.settle h
  · exact h

theorem Keeps.issue {site n : Nat} (h : s₀.Keeps s) : s₀.Keeps (s.issue site n) := h.modCl

theorem Keeps.leave {site n : Nat} (h : s₀.Keeps s) : s₀.Keeps (s.leave site n) := .ite h.modCl h

theorem Keeps.retire {site n pc : Nat} (h : s₀.Keeps s) : s₀.Keeps (s.retire site n pc) := h.modSlot.showSlot

theorem Keeps.retireX {site n len rd : Nat} {v : DWord} (h : s₀.Keeps s) : s₀.Keeps (s.retireX site n len rd v) := h.modSlot.retire

theorem Keeps.stall {site n : Nat} {w : Option StallOn} (h : s₀.Keeps s) : s₀.Keeps (s.stall site n w) := h.leave.modSlot.showSlot

theorem Keeps.rvLoad {site n len rd f3 a : Nat} (h : s₀.Keeps s) : s₀.Keeps (s.rvLoad site n len rd f3 a) := by
  unfold State.rvLoad
  refine .ite h.trap ?_
  extract_lets
  split
  · exact h.trap
  · exact .ite h.stall h.touchRead.retireX

theorem Keeps.rvStore {site n len f3 a : Nat} {v : DWord} (h : s₀.Keeps s) : s₀.Keeps (s.rvStore site n len f3 a v) := by
  unfold State.rvStore
  refine .ite h.trap ?_
  extract_lets
  split
  · exact h.trap
  · exact .ite h.stall h.sliceWrite.retire

theorem Keeps.rvAtomic {site n len rd f3 f5 rs2 a : Nat} {b : DWord} (h : s₀.Keeps s) : s₀.Keeps (s.rvAtomic site n len rd f3 f5 rs2 a b) := by
  unfold State.rvAtomic
  extract_lets
  refine .ite h.trap ?_
  split
  · exact h.trap
  · exact .ite h.stall (.ite h.touchRead.modSlot.retireX (.ite (.ite h.modSlot.sliceWrite.retireX h.modSlot.retireX)
      h.touchRead.sliceWrite.retireX))

theorem Keeps.rvSystem {site n len w : Nat} (h : s₀.Keeps s) : s₀.Keeps (s.rvSystem site n len w) :=
  .ite h.trap (.ite (.ite h.setFld.setSlotState h.trap) (.ite h.retireX (.ite h.retireX (.ite h.retireX h.trap))))

theorem Keeps.rvExec {site n w len : Nat} (h : s₀.Keeps s) : s₀.Keeps (s.rvExec site n w len) := by
  have hresult : ∀ (rd : Nat) (v : Option DWord), s₀.Keeps (match v with | some x => s.retireX site n len rd x | none => s.trap site n 2)
    | _, some _ => h.retireX
    | _, none => h.trap
  unfold State.rvExec
  dsimp only
  split
  · exact h.retireX
  · exact h.retireX
  · exact h.modSlot.retire
  · exact .ite h.modSlot.retire h.trap
  · split
    · exact h.retire
    · exact h.trap
  · exact h.rvLoad
  · exact h.rvStore
  · exact hresult _ _
  · exact hresult _ _
  · exact hresult _ _
  · exact hresult _ _
  · exact .ite h.retire h.trap
  · exact h.rvAtomic
  · exact h.rvSystem
  · exact h.trap

theorem Kept.rv64imac {site : Site} {n : SlotId} (h : s₀.Keeps s) : s₀.Kept (execRv64imac site n s) := by
  unfold execRv64imac
  refine .next (.ite ?_ h.coreParity)
  extract_lets
  split
  · exact h.issue.trap
  · split
    · exact h.issue.rvExec
    · exact h.issue.trap
  · exact .ite h h.issue.rvExec

/-! ## Barza opcodes -/

theorem Keeps.copyEntry {site n entry : Nat} (h : s₀.Keeps s) : s₀.Keeps (s.copyEntry site n entry) :=
  .ite h.modSlot (.modSlot (.ite h.touchRead.touchRead h.touchRead))

theorem Keeps.barza {site n k : Nat} {f : Nat → SlotSt → State} (h : s₀.Keeps s) (hf : ∀ x0 x1, s₀.Keeps (f x0 x1)) : s₀.Keeps
    (s.barza site n k f) := by
  unfold State.barza
  refine .ite ?_ h.coreParity
  split
  · exact .ite ((hf _ _).issue) h
  · exact h

theorem Keeps.done4 {site n : Nat} (h : s₀.Keeps s) : s₀.Keeps (s.done4 site n) := h.retire

theorem Keeps.issueArr {site n : Nat} {o : Op} (h : s₀.Keeps s) : s₀.Keeps (s.issueArr site n o) := by
  unfold State.issueArr
  split
  · next e =>
    exact (h.queueArr e).done4
  · exact h.stall

theorem Kept.bzAload {site : Site} {n : SlotId} (h : s₀.Keeps s) : s₀.Kept (execBzAload site n s) :=
  .next (h.barza (fun _ _ => .ite h.trap h.issueArr))

theorem Keeps.stepFrame {site rail amps : Nat} (h : s₀.Keeps s) : s₀.Keeps (s.stepFrame site rail amps) := .ite h h.regSend

theorem Kept.bzAstream {site : Site} {n : SlotId} (h : s₀.Keeps s) : s₀.Kept (execBzAstream site n s) := by
  unfold execBzAstream
  refine .next (h.barza (fun _ _ => ?_))
  extract_lets
  refine .ite h.trap (.ite (.ite h.stall ?_) h.issueArr)
  split
  · exact h.trap
  · exact .ite h.stall (.ite h.writeRec.opSignal.done4 h.trap)

theorem Kept.bzAinit {site : Site} {n : SlotId} (h : s₀.Keeps s) : s₀.Kept (execBzAinit site n s) :=
  .next (h.barza (fun _ _ => .ite h.trap h.issueArr))

theorem Kept.bzAbank {site : Site} {n : SlotId} (h : s₀.Keeps s) : s₀.Kept (execBzAbank site n s) :=
  .next (h.barza (fun _ _ => .ite h.trap h.modBlk.done4))

theorem Kept.bzAstat {site : Site} {n : SlotId} (h : s₀.Keeps s) : s₀.Kept (execBzAstat site n s) :=
  .next (h.barza (fun _ _ => .ite h.trap h.retireX))

theorem Kept.bzVsetvl {site : Site} {n : SlotId} (h : s₀.Keeps s) : s₀.Kept (execBzVsetvl site n s) :=
  .next (h.barza (fun _ _ => .ite h.trap h.setFld.retireX))

theorem Keeps.issueVec {site n : Nat} {k : OpKind} {w : Nat} {sl : SlotSt} {s0 : Word} (h : s₀.Keeps s) : s₀.Keeps (s.issueVec site n k w
    sl s0) :=
  .ite h.bump.modEng.showQueues.done4 h.stall

theorem Kept.bzVrun {site : Site} {n : SlotId} (h : s₀.Keeps s) : s₀.Kept (execBzVrun site n s) :=
  .next (h.barza (fun _ _ => .ite h.trap h.issueVec))

theorem Kept.bzVred {site : Site} {n : SlotId} (h : s₀.Keeps s) : s₀.Kept (execBzVred site n s) :=
  .next (h.barza (fun _ _ => .ite h.trap h.issueVec))

theorem Kept.bzVperm {site : Site} {n : SlotId} (h : s₀.Keeps s) : s₀.Kept (execBzVperm site n s) :=
  .next (h.barza (fun _ _ => .ite h.trap h.issueVec))

theorem Kept.bzVcmpx {site : Site} {n : SlotId} (h : s₀.Keeps s) : s₀.Kept (execBzVcmpx site n s) :=
  .next (h.barza (fun _ _ => .ite h.trap h.issueVec))

theorem Kept.bzVstat {site : Site} {n : SlotId} (h : s₀.Keeps s) : s₀.Kept (execBzVstat site n s) :=
  .next (h.barza (fun _ _ => .ite h.trap h.retireX))

theorem Kept.bzYmv {site : Site} {n : SlotId} (h : s₀.Keeps s) : s₀.Kept (execBzYmv site n s) :=
  .next (h.barza (fun _ _ => .ite h.trap (.ite h.modSlot.done4 h.retireX)))

theorem Keeps.sarm {site n w a d : Nat} (h : s₀.Keeps s) : s₀.Keeps (s.sarm site n w a d) := by
  unfold State.sarm
  refine .ite h.stall ?_
  split
  · exact h.trap
  · exact .ite h.trap (.ite h.touchRead.modBlk.modCtx.wr.showCtx.retireX (.ite h.touchRead.modBlk.modCtx.showCtx.retireX
      h.touchRead.count.retireX))

theorem Kept.bzSarm {site : Site} {n : SlotId} (h : s₀.Keeps s) : s₀.Kept (execBzSarm site n s) :=
  .next (h.barza (fun _ _ => .ite h.trap h.sarm))

theorem Keeps.dep {site n d ref v : Nat} (h : s₀.Keeps s) : s₀.Keeps (s.dep site n d ref v) := by
  unfold State.dep
  dsimp only
  split
  · exact h.count.done4
  · exact .ite h.count.done4 (.ite h.stall h.modCtx.showCtx.done4)

theorem Kept.bzDep {site : Site} {n : SlotId} (h : s₀.Keeps s) : s₀.Kept (execBzDep site n s) :=
  .next (h.barza (fun _ _ => .ite h.trap h.dep))

theorem Kept.bzScancel {site : Site} {n : SlotId} (h : s₀.Keeps s) : s₀.Kept (execBzScancel site n s) :=
  .next (h.barza (fun _ _ => .ite h.trap (.ite h.modSlot.stall h.cancelCtx.retireX)))

theorem Kept.bzSend {site : Site} {n : SlotId} (h : s₀.Keeps s) : s₀.Kept (execBzSend site n s) :=
  .next (h.barza (fun _ _ => .ite h.stall (.ite h.trap h.bump.modBlk.done4)))

theorem Keeps.issueCopy {site n : Nat} {o : Op} (h : s₀.Keeps s) : s₀.Keeps (s.issueCopy site n o) := by
  unfold State.issueCopy
  dsimp only
  refine .ite h.stall ?_
  split
  · exact h.trap
  · exact .ite h.trap (.ite (h.touchRead.bump.modCl fun c => by split <;> rfl).showQueues.done4 h.stall)

theorem Kept.bzFill {site : Site} {n : SlotId} (h : s₀.Keeps s) : s₀.Kept (execBzFill site n s) :=
  .next (h.barza (fun _ _ => .ite h.trap h.issueCopy))

theorem Kept.bzCopy {site : Site} {n : SlotId} (h : s₀.Keeps s) : s₀.Kept (execBzCopy site n s) :=
  .next (h.barza (fun _ _ => .ite h.trap h.issueCopy))

theorem Kept.bzSig {site : Site} {n : SlotId} (h : s₀.Keeps s) : s₀.Kept (execBzSig site n s) :=
  .next (h.barza (fun _ _ => .ite h.trap h.modBlk.done4))

theorem Keeps.takeThr {site n ref thr : Nat} (h : s₀.Keeps s) : s₀.Keeps (s.takeThr site n ref thr) := .ite h.modBlk h.modBlk.objAdd.modBlk

theorem Kept.bzWait {site : Site} {n : SlotId} (h : s₀.Keeps s) : s₀.Kept (execBzWait site n s) :=
  .next (h.barza (fun _ _ => .ite h.trap (.ite (.done4 (.ite h.takeThr h)) h.modSlot.stall)))

theorem Kept.waitMet {site : Site} {n : SlotId} (h : s₀.Keeps s) : s₀.Kept (execWaitMet site n s) := by
  unfold execWaitMet
  refine .next (.ite ?_ h)
  dsimp only
  split
  · exact .done4 (.modSlot (.ite h.takeThr h))
  · exact h.modSlot

theorem Kept.bzBar {site : Site} {n : SlotId} (h : s₀.Keeps s) : s₀.Kept (execBzBar site n s) :=
  .next (h.barza (fun _ _ => .ite h.trap (.ite h.modBlk.retireX h.modBlk.retireX)))

theorem Kept.bzEndb {site : Site} {n : SlotId} (h : s₀.Keeps s) : s₀.Kept (execBzEndb site n s) :=
  .next (h.barza (fun _ _ => .ite h.trap (.settle (.ite h.done4.modSlot.showSlot.modSlot h.done4.modSlot.showSlot.copyEntry))))

theorem Kept.bzBatch {site : Site} {n : SlotId} (h : s₀.Keeps s) : s₀.Kept (execBzBatch site n s) :=
  .next (h.barza (fun _ _ => .ite h.trap (.ite h.retireX (.ite h.stall (.retireX (.ite (.getD (fun _ e => h.modArr.setFld.batchRelease e)
    h.modArr.setFld) h.modArr.setFld))))))

theorem Kept.bzBflush {site : Site} {n : SlotId} (h : s₀.Keeps s) : s₀.Kept (execBzBflush site n s) := by
  unfold execBzBflush
  refine .next (h.barza (fun _ _ => .ite h.trap ?_))
  split
  · next e =>
    exact (h.batchRelease e).done4
  · exact h.stall

theorem Kept.batchLimitRelease {site : Site} {a : ArrId} (h : s₀.Keeps s) : s₀.Kept (execBatchLimitRelease site a s) :=
  .next (.ite (.getD (fun _ e => h.batchRelease e) h) h)

theorem Kept.bzMark {site : Site} {n : SlotId} (h : s₀.Keeps s) : s₀.Kept (execBzMark site n s) :=
  .next (h.barza (fun _ _ => .ite h.trap h.retireX))

/-! ## Matrix arrays -/

theorem Keeps.touchAll {site : Nat} {rs : List (Nat × Nat)} {who : Who} (h : s₀.Keeps s) : s₀.Keeps (s.touchAll site rs who) :=
  h.foldl fun _ _ h => h.touchRead

theorem Keeps.arrRest {site a : Nat} (h : s₀.Keeps s) : s₀.Keeps (s.arrRest site a) := .ite h.setFld (.ite h h.setFld)

theorem Keeps.showArr {site a v : Nat} (h : s₀.Keeps s) : s₀.Keeps (s.showArr site a v) := .ite h h.setFld

theorem Keeps.popArr {site a : Nat} (h : s₀.Keeps s) : s₀.Keeps (s.popArr site a) := h.modArr.shrunk

theorem Keeps.dropId {site id : Nat} (h : s₀.Keeps s) : s₀.Keeps (s.dropId site id) := h.modCl.shrunk

theorem Keeps.stepArrays {site : Nat} {as : List Nat} (h : s₀.Keeps s) : s₀.Keeps (s.stepArrays site as) := h.stepFrame

theorem Keeps.loadIn {site a : Nat} {o : Op} {d : Nat} (h : s₀.Keeps s) : s₀.Keeps (s.loadIn site a o d) :=
  h.popArr.modArr.setFlag.setFld.setFlag.setFld.setFld.showArr

theorem Keeps.loadStart {site : Nat} {o : Op} {d : Nat} {as : List Nat} (h : s₀.Keeps s) : s₀.Keeps (s.loadStart site o d as) :=
  .ite h (h.stepArrays.foldl (fun _ _ h => h.touchAll.loadIn))

theorem Keeps.streamIn {site : Nat} {o : Op} {d : Nat} (h : s₀.Keeps s) : s₀.Keeps (s.streamIn site o d) :=
  .ite h (h.stepArrays.touchAll.foldl (fun _ _ h => .ite h.popArr.modArr.showArr.guardTrip h.popArr.modArr.showArr))

theorem Keeps.initEntry {site n blk a : Nat} {wide : Bool} {j : Nat} (h : s₀.Keeps s) : s₀.Keeps (s.initEntry site n blk a wide j) :=
  .ite h.modBlk h

@[simp] theorem accWrite_slice (c : Cluster) (wide : Bool) (bank arr col j v : Nat) : (c.accWrite wide bank arr col j v).slice = c.slice := by
  unfold Cluster.accWrite
  split <;> rfl

/-- A fold over a cluster leaves its slice where each step does. -/
theorem slice_foldl {α β : Type} {f : Cluster × α → β → Cluster × α} (hf : ∀ p x, (f p x).1.slice = p.1.slice) (l : List β)
    (p : Cluster × α) : (l.foldl f p).1.slice = p.1.slice := by
  induction l generalizing p with
  | nil => rfl
  | cons x l ih => exact (ih _).trans (hf p x)

/-- The slice of a site is canonical where every slice is. -/
theorem memWf_cl {site : Nat} (h : s.slicesOk) : memWf (s.cl site).slice = true := by
  unfold State.cl
  have key : ∀ m : Store Cluster, (∀ p ∈ m, memWf p.2.slice = true) → memWf (Store.get ({} : Cluster) m site).slice = true := by
    intro m hm
    induction m with
    | nil => rfl
    | cons p m ih =>
      unfold Store.get
      split
      · exact hm p List.mem_cons_self
      · exact ih fun q hq => hm q (List.mem_cons_of_mem _ hq)
  exact key _ h

/-- A cluster takes the place of one with the same slice. -/
theorem Keeps.setClSame {site : Nat} {c : Cluster} (h : s₀.Keeps s) (hc : c.slice = (s.cl site).slice) : s₀.Keeps (s.setCl site c) :=
  h.setCl fun hs => hc ▸ memWf_cl hs

theorem Keeps.ainitIn {site : Nat} {o : Op} {d : Nat} (h : s₀.Keeps s) : s₀.Keeps (s.ainitIn site o d) := by
  unfold State.ainitIn
  refine h.stepArrays.touchAll.foldl fun u a h => ?_
  extract_lets bank js p s1 s2 st
  have hp : p.1.slice = (u.cl site).slice :=
    slice_foldl (fun _ _ => slice_foldl (fun _ _ => accWrite_slice _ _ _ _ _ _ _) _ _) _ _
  exact ((h.setClSame hp).popArr.foldl fun _ _ h => h.initEntry).modArr.setFlag

theorem Keeps.arrStart {site : Nat} {o : Op} {as : List Nat} (h : s₀.Keeps s) : s₀.Keeps (s.arrStart site o as) := by
  unfold State.arrStart
  extract_lets
  split
  · exact h.opTrap.dropId
  · split
    · exact .ite h.loadStart h.opTrap.dropId
    · exact .ite h.opTrap.dropId (.ite h h.ainitIn)
    · exact .ite h.streamIn h.opTrap.dropId

theorem Kept.arrayOpStart {site : Site} {a : ArrId} (h : s₀.Keeps s) : s₀.Kept (execArrayOpStart site a s) := by
  unfold execArrayOpStart
  refine .next (.ite ?_ h)
  split
  · exact h
  · exact .ite (.getD (fun _ e => h.parityAt e) h.arrStart) h

theorem Keeps.checkFail {site a : Nat} {o : Op} {row : Bool} {entry col : Nat} (h : s₀.Keeps s) : s₀.Keeps (s.checkFail site a o row entry
    col) :=
  .raiseAt (.ite h.wr64.count h.wr64.count)

theorem Keeps.skipCheck {site a : Nat} (h : s₀.Keeps s) : s₀.Keeps (s.skipCheck site a) := h.count

theorem Keeps.columnDone {site a : Nat} {o : Op} {entry : Nat} {special : Bool} {c : Option Bool} (h : s₀.Keeps s) : s₀.Keeps
    (s.columnDone site a o entry special c) := by
  unfold State.columnDone
  refine .ite h.skipCheck ?_
  split
  · exact h.skipCheck
  · exact h.checkFail
  · exact h

theorem Keeps.feedRow {site a d i : Nat} {r : Run} (h : s₀.Keeps s) : s₀.Keeps (s.feedRow site a d i r) := by
  unfold State.feedRow
  extract_lets o x wfmt afmt acc int rs who s0 elems v scl
  have h0 : s₀.Keeps s0 := .ite h.meetLand h.touchAll
  clear_value s0
  dsimp only
  generalize hout : List.foldl _ ((s0.cl site), _) _ = out
  have hs : out.1.slice = (s0.cl site).slice := by
    rw [← hout]
    refine slice_foldl (fun p q => ?_) _ _
    split
    · rfl
    · exact accWrite_slice _ _ _ _ _ _ _
  have h1 : s₀.Keeps (s0.setCl site out.1) := h0.setClSame hs
  exact .modArr (.showArr (.count (.ite (.ite h1.initEntry (.ite h1.count.guardTrip h1))
    (.columnDone (.ite h1.initEntry (.ite h1.count.guardTrip h1))))))

theorem Keeps.checkRow {site a d : Nat} {r : Run} (h : s₀.Keeps s) : s₀.Keeps (s.checkRow site a d r) := by
  unfold State.checkRow
  dsimp only
  refine .modArr (.ite h.count ?_)
  extract_lets
  split
  · exact h.count.columnDone.skipCheck
  · exact h.count.columnDone
  · exact h.count.columnDone.checkFail

theorem Keeps.feedRows {site : Nat} {o : Op} {d i : Nat} {as : List Nat} (h : s₀.Keeps s) : s₀.Keeps (s.feedRows site o d i as) := by
  unfold State.feedRows
  dsimp only
  refine (h.bankClash.foldl (fun _ _ h => ?_)).foldl (fun _ _ h => .ite h h.setLand.setFlag)
  split
  · exact h.feedRow
  · exact h

theorem Keeps.streamBound {site : Nat} {o : Op} {as ls : List Nat} (h : s₀.Keeps s) : s₀.Keeps (s.streamBound site o as ls) :=
  .ite ((h.foldl (fun _ _ h => h.modArr)).modBlk) (h.foldl (fun _ _ h => h.modArr))

theorem Keeps.arrWait {site : Nat} {o : Op} {d i l : Nat} {as : List Nat} (h : s₀.Keeps s) : s₀.Keeps (s.arrWait site o d i l as) :=
  h.foldl fun _ _ h => h.modArr

/-- Binding a list of landing slots one after another, up to the first that cannot be bound. -/
theorem Keeps.readBinds {site u : Nat} {l : List Nat} {q : Option State} (hq : ∀ s, q = some s → s₀.Keeps s)
    (e : (l.foldl (fun (q : Option State) l => q.bind fun s => s.readBind site l u false) q) = some t) : s₀.Keeps t := by
  induction l generalizing q with
  | nil => exact hq t e
  | cons x l ih =>
    refine ih (fun s' hs' => ?_) e
    obtain ⟨s, hs, hb⟩ := Option.bind_eq_some_iff.mp hs'
    exact (hq s hs).readBind hb

theorem Keeps.nextFed {site : Nat} {r : Run} {i : Nat} (h : s₀.Keeps s) : s₀.Keeps (s.nextFed site r i) := by
  unfold State.nextFed
  dsimp only
  refine .ite h ?_
  split
  · next e => exact (Keeps.readBinds (fun _ hs => Option.some.inj hs ▸ h) e).streamBound.feedRows
  · exact h.foldl fun _ _ h => h.arrWait

theorem Kept.arrayRowEntry {site : Site} {a : ArrId} (h : s₀.Keeps s) : s₀.Kept (execArrayRowEntry site a s) := by
  unfold execArrayRowEntry
  refine .next (.ite ?_ h)
  split
  · refine .ite h ?_
    split
    · refine h.foldl (fun _ _ h => ?_)
      split
      · exact h.checkRow
      · exact h
    · exact h.nextFed
  · exact h

theorem Kept.arrayCheckFail {site : Site} {a : ArrId} {rowKind : Bool} {entry : Fin 1024} {column : Fin 64} (h : s₀.Keeps s) : s₀.Kept
    (execArrayCheckFail site a rowKind entry column s) := by
  unfold execArrayCheckFail
  refine .next (.ite ?_ h)
  split
  · exact h.checkFail
  · exact h

theorem Keeps.finishArr {site : Nat} {o : Op} {status sync inc : Nat} {shares : List (Nat × Rec)} {extra : Rec} (h : s₀.Keeps s) :
    s₀.Keeps (s.finishArr site o status sync inc shares extra) :=
  (((h.foldl (fun _ _ h => h.countRec)).writeRec).opSignal).settle

theorem Keeps.endRun {site a id : Nat} (h : s₀.Keeps s) : s₀.Keeps (s.endRun site a id) := .ite h.modArr.arrRest h.modArr

theorem Kept.loadComplete {site : Site} {a : ArrId} (h : s₀.Keeps s) : s₀.Kept (execLoadComplete site a s) := by
  unfold execLoadComplete
  refine .next (.ite ?_ h)
  split
  · dsimp only
    refine .ite ?_ (.ite h.endRun.setFlag.modCl h.endRun.setFlag.modCl.finishArr)
    split
    · exact (h.foldl (fun _ _ h => h.endRun.setFlag)).finishArr
    · exact h
  · exact h

theorem Kept.streamComplete {site : Site} {a : ArrId} (h : s₀.Keeps s) : s₀.Kept (execStreamComplete site a s) := by
  unfold execStreamComplete
  refine .next (.ite ?_ h)
  split
  · dsimp only
    split
    · exact h
    · refine .finishArr ?_
      split
      · exact (h.foldl fun _ _ h => h.endRun).sliceWrite
      · exact h.foldl fun _ _ h => h.endRun
  · exact h

theorem Kept.ainitComplete {site : Site} {a : ArrId} (h : s₀.Keeps s) : s₀.Kept (execAinitComplete site a s) := by
  unfold execAinitComplete
  refine .next (.ite ?_ h)
  split
  · exact (h.foldl (fun _ _ h => h.modArr.setFlag)).finishArr
  · exact h

theorem Kept.dummyRow {site : Site} {a : ArrId} (h : s₀.Keeps s) : s₀.Kept (execDummyRow site a s) :=
  .next (.ite (.ite h.count.modArr.showArr h.count.modArr) h)

theorem Kept.arrayIdle {site : Site} {a : ArrId} (h : s₀.Keeps s) : s₀.Kept (execArrayIdle site a s) :=
  .next (.ite (.ite h.modArr.showArr h.modArr) h)

/-! ## Vector engines -/

theorem Keeps.touchOpd {site : Nat} {p : Opd} {ro b n : Nat} {who : Who} (h : s₀.Keeps s) : s₀.Keeps (s.touchOpd site p ro b n who) :=
  .ite h.meetLand (h.foldl (fun _ _ h => h.touchRead))

theorem Keeps.putElem {site : Nat} {p : Opd} {e code : Nat} {who : Who} (h : s₀.Keeps s) : s₀.Keeps (s.putElem site p e code who) :=
  .ite h.sliceWrite h.sliceWrite

theorem Keeps.putBlock {site b : Nat} {p : Opd} {vs : List (Option Machine.Num)} {who : Who} {r : Rec} (h : s₀.Keeps s) :
    s₀.Keeps (s.putBlock site p b vs who r).1 := by
  unfold State.putBlock
  split
  dsimp only
  exact h.sliceWrite.sliceWrite

theorem Keeps.putValues {site : Nat} {p : Opd} {strict : Bool} {b : Nat} {vs : List (Machine.Num × Machine.Num)} {who : Who} {r : Rec} (h
    : s₀.Keeps s) : s₀.Keeps (s.putValues site p strict b vs who r).1 :=
  .iteFst (.foldlFst (.ite h.foldCtxHint h) (fun _ _ h => h.putBlock)) (.foldlFst (.ite h.foldCtxHint h) (fun _ _ h => h.putElem))

theorem Keeps.readVrun {site e : Nat} {r : VRun} {who : Who} (h : s₀.Keeps s) : s₀.Keeps (s.readVrun site e r who).1 :=
  h.foldl fun _ _ h => h.touchOpd

theorem Keeps.readVred {site : Nat} {r : VRun} {who : Who} (h : s₀.Keeps s) : s₀.Keeps (s.readVred site r who).1 :=
  h.touchOpd.foldl fun _ _ h => h.touchOpd

theorem Keeps.readVperm {site e : Nat} {r : VRun} {who : Who} (h : s₀.Keeps s) : s₀.Keeps (s.readVperm site e r who).1 :=
  ((h.touchOpd.foldl (fun _ _ h => h.touchOpd)).count).bankClash

theorem Keeps.readVcmpx {site : Nat} {r : VRun} {who : Who} (h : s₀.Keeps s) : s₀.Keeps (s.readVcmpx site r who).1 :=
  .ite (.ite (h.touchOpd.touchOpd.foldl (fun _ _ h => h.touchOpd)) h.touchOpd.touchOpd) (h.touchOpd.foldl (fun _ _ h => h.touchOpd))

theorem Keeps.bindIns {site e : Nat} {l : List Nat} {r : VRun} (h : s₀.Keeps s) : s₀.Keeps (s.bindIns site e l r).1 := by
  induction l generalizing s r with
  | nil => exact h
  | cons x l ih =>
    unfold State.bindIns
    split
    · exact h
    · next hb => exact .iteFst (ih (h.readBind hb)) (ih (.ite (h.readBind hb).modBlk (h.readBind hb)))

theorem Keeps.bindOuts {site e : Nat} {l : List Nat} {r : VRun} (h : s₀.Keeps s) : s₀.Keeps (s.bindOuts site e l r).1 := by
  induction l generalizing s r with
  | nil => exact h
  | cons x l ih =>
    unfold State.bindOuts
    exact .iteFst (ih h) (.iteFst (ih (.ite h.landBind.modBlk h.landBind)) h)

theorem Keeps.emptySlots {site : Nat} {r : VRun} {ls : List Nat} (h : s₀.Keeps s) : s₀.Keeps (s.emptySlots site r ls).1 :=
  h.foldl fun _ _ h => h.setLand.setFlag

theorem Keeps.vecRead {site e : Nat} {r : VRun} (h : s₀.Keeps s) : s₀.Keeps (s.vecRead site e r).1 := by
  unfold State.vecRead
  dsimp only
  split
  · refine .iteFst h.bindIns (.emptySlots ?_)
    split
    · exact h.bindIns.readVrun
    · exact h.bindIns.readVred
    · exact h.bindIns.readVperm
    · exact h.bindIns.readVcmpx
  · exact h.bindIns

theorem Keeps.vecWrite {site e : Nat} {r : VRun} (h : s₀.Keeps s) : s₀.Keeps (s.vecWrite site e r).1 := by
  unfold State.vecWrite
  split
  · exact h
  · extract_lets
    split
    · exact .iteFst h.bindOuts (.foldl (.foldlFst (.ite h.bindOuts h.bindOuts.makeGood) (fun _ _ h => .iteFst h h.putValues)) (fun _ _ h
        => h.putElem))
    · exact h.bindOuts

theorem Keeps.vecAct {site e : Nat} {r : VRun} (h : s₀.Keeps s) : s₀.Keeps (s.vecAct site e r).1 := .iteFst h.vecWrite (.iteFst h.vecRead h)

theorem Keeps.vecGo {site e k : Nat} {r : VRun} (h : s₀.Keeps s) : s₀.Keeps (State.vecGo site e k s r).1 := by
  induction k generalizing s r with
  | zero => exact h
  | succ k ih =>
    unfold State.vecGo
    refine .iteFst h ?_
    dsimp only
    split
    · exact ih h.vecAct
    · exact h.vecAct

theorem Keeps.showEng {site e v : Nat} (h : s₀.Keeps s) : s₀.Keeps (s.showEng site e v) := .ite h h.setFld

theorem Keeps.showVec {site e : Nat} {r : VRun} {st : Nat} (h : s₀.Keeps s) : s₀.Keeps (s.showVec site e r st) :=
  h.showEng.setFld.setFld.setFld

theorem Keeps.vecRun {site e : Nat} {r : VRun} (h : s₀.Keeps s) : s₀.Keeps (s.vecRun site e r) := by
  unfold State.vecRun
  dsimp only
  split
  · exact .showVec (.modEng (.iteFst h.vecGo.emptySlots h.vecGo))
  · exact .showVec (.modEng (.iteFst h.vecGo.emptySlots h.vecGo))
  · exact .showVec (.modEng (.iteFst h.vecGo.emptySlots h.vecGo))

theorem Keeps.popEng {site e : Nat} (h : s₀.Keeps s) : s₀.Keeps (s.popEng site e) := h.modEng.shrunk

theorem Keeps.vecStart {site e : Nat} {o : Op} (h : s₀.Keeps s) : s₀.Keeps (s.vecStart site e o) := by
  unfold State.vecStart
  split
  · exact h.popEng.opTrap
  · exact .ite h.popEng.opTrap (.vecRun (.popEng (.ite (h.touchRead.foldl (fun _ _ h => .ite h.touchRead h)) ((h.touchRead.foldl (fun _ _
      h => .ite h.touchRead h)).stepFrame))))

theorem Kept.vectorOpStart {site : Site} {e : EngId} (h : s₀.Keeps s) : s₀.Kept (execVectorOpStart site e s) := by
  unfold execVectorOpStart
  refine .next (.ite ?_ h)
  split
  · exact .ite h h.vecRun
  · exact h
  · refine .ite h ?_
    split
    · exact h.parityMet
    · exact h.vecStart

theorem Keeps.engRest {site e : Nat} (h : s₀.Keeps s) : s₀.Keeps (s.engRest site e) := h.showEng.setFld.setFld.setFld

theorem Kept.vectorOpComplete {site : Site} {e : EngId} (h : s₀.Keeps s) : s₀.Kept (execVectorOpComplete site e s) := by
  unfold execVectorOpComplete
  refine .next (.ite ?_ h)
  split
  · exact .ite h.modEng.engRest.countRec.writeRec.opSignal.settle h
  · exact h

theorem Kept.dummyOperation {site : Site} {e : EngId} (h : s₀.Keeps s) : s₀.Kept (execDummyOperation site e s) :=
  .next (.ite h.count.modEng.showEng h)

theorem Kept.vectorEngineIdle {site : Site} {e : EngId} (h : s₀.Keeps s) : s₀.Kept (execVectorEngineIdle site e s) :=
  .next (.ite h.modEng.showEng h)

end State

end Sys2Proof.Machine
end

section
/-! What is kept (`State.Keeps`), operation by operation: streams, barriers, reduction, recovery and the beat. Each proof follows its definition: the state's way
through the operations that the definition applies, in their order. -/

namespace Sys2Proof.Machine

open Host (Cell)

-- One theorem at a time: theorems checked side by side reserve a stack each, and together more memory than a check may take.
set_option Elab.async false

namespace State

variable {s₀ s t : State}

/-! ## Streams, landing slots and banks -/

theorem Keeps.showPending {site : Nat} (h : s₀.Keeps s) : s₀.Keeps (s.showPending site) := h.foldl fun _ _ h => h.setFld

theorem Keeps.spend {cls n : Nat} (h : s₀.Keeps s) : s₀.Keeps (s.spend cls n) := h.update

theorem Keeps.takeGrants {cls who n : Nat} (h : s₀.Keeps s) : s₀.Keeps (s.takeGrants cls who n) := h.spend.update

theorem Keeps.localImage {site r i : Nat} {who : Who} (h : s₀.Keeps s) : s₀.Keeps (s.localImage site r i who).1 := by
  unfold State.localImage
  exact h.foldlFst (fun _ _ h => h.touchRead)

theorem Keeps.xferRead {site d : Nat} {x : Xfer} (h : s₀.Keeps s) : s₀.Keeps (s.xferRead site d x) :=
  .ite (h.localImage.modCtx.foldl (fun _ _ h => h.netSend)) h.localImage.modCtx

theorem Keeps.xlineStep {site : Nat} (h : s₀.Keeps s) : s₀.Keeps (s.xlineStep site) := by
  unfold State.xlineStep
  split
  · exact .ite h (.getD (fun _ e => h.parityAt e) h.modCl.xferRead)
  · exact h

theorem Keeps.xlineRun {site : Nat} (h : s₀.Keeps s) : s₀.Keeps (s.xlineRun site) := (h.foldl (fun _ _ h => h.xlineStep)).showQueues

theorem Keeps.issueXfer {site d : Nat} {a : Arm} (h : s₀.Keeps s) : s₀.Keeps (s.issueXfer site d a) := by
  unfold State.issueXfer
  extract_lets r i reads x s1 s2 s3 s4 s5
  have h1 : s₀.Keeps s1 := by
    unfold s1
    refine .bump ?_
    split
    · exact h.takeGrants
    · exact h
  have h3 : s₀.Keeps s3 := .modCtx (.ite (.ite h1.landBind h1.setLand) h1)
  have h4 : s₀.Keeps s4 := .ite h3 (.ite h3.modCl.xlineRun h3.xferRead)
  exact h4.modCl.showCtx.showPending

theorem Kept.streamTransferIssue {site : Site} {d : CtxId} (h : s₀.Keeps s) : s₀.Kept (execStreamTransferIssue site d s) := by
  unfold execStreamTransferIssue
  refine .next (.ite ?_ h)
  split
  · exact .getD (fun _ e => h.parityAt e) (.ite h.issueXfer h)
  · exact h

theorem Keeps.markPoison {site at_ addr : Nat} (h : s₀.Keeps s) : s₀.Keeps (s.markPoison site at_ addr) := h.modCl

theorem Keeps.lineGood {site : Nat} {x : Xfer} (h : s₀.Keeps s) : s₀.Keeps (s.lineGood site x) := .ite h h.makeGood

theorem Keeps.landLine {site : Nat} {x : Xfer} {lost : Nat → Bool} {who : Who} (h : s₀.Keeps s) : s₀.Keeps (s.landLine site x lost who) :=
  ((h.lineGood.foldl (fun _ _ h => h.sliceWrite)).foldl (fun _ _ h => .ite h.markPoison h)).keepLoads

theorem Keeps.xlineJoin {site d : Nat} {x : Xfer} (h : s₀.Keeps s) : s₀.Keeps (s.xlineJoin site d x) := .ite h h.modCl.showQueues

theorem Keeps.xlineLeave {site d id : Nat} (h : s₀.Keeps s) : s₀.Keeps (s.xlineLeave site d id) := h.modCl.xlineRun

theorem Keeps.crcResent {a n : Nat} (h : s₀.Keeps s) : s₀.Keeps (s.crcResent a n) := .ite h h.count

theorem Kept.loadLineArrival {site : Site} {l : LoadLine} (h : s₀.Keeps s) : s₀.Kept (execLoadLineArrival site l s) := by
  unfold execLoadLineArrival
  refine .next (.ite ?_ h)
  split
  · exact h
  · refine .ite h.crcResent.count64.modCtx.showPending (.ite h.xlineJoin (.getD (fun u hu => ?_) (.showPending ?_)))
    · split at hu
      · exact h.xlineJoin.parityAt hu
      · cases hu
    · exact .ite (.raise (.modCtx (.ite h.xlineJoin.crcResent.landLine.xlineLeave h.xlineJoin.crcResent.landLine)))
        (.modCtx (.ite h.xlineJoin.crcResent.landLine.xlineLeave h.xlineJoin.crcResent.landLine))

theorem Keeps.armEnd {site d : Nat} (h : s₀.Keeps s) : s₀.Keeps (s.armEnd site d) := by
  unfold State.armEnd
  extract_lets
  split
  · refine .ite h ?_
    extract_lets
    split
    · exact h.count.modCtx.wr
    · exact h.count.modCtx
  · exact h

theorem Keeps.xferSignal {site : Nat} {x : Xfer} (h : s₀.Keeps s) : s₀.Keeps (s.xferSignal site x) := .ite h h.opSignal

theorem Keeps.pkgStore {a : Nat} {bs : List Byte} {crcs : List (Nat × List (BitVec 16))} (h : s₀.Keeps s) : s₀.Keeps (s.pkgStore a bs
    crcs).1 :=
  .iteFst h.pkgWrite (h.foldlFst (fun _ _ h => .iteFst h.crcResent h.crcResent.pkgWrite))

theorem Keeps.storeAck {site d : Nat} {x : Xfer} {poison : Bool} {crcs : List (Nat × List (BitVec 16))} (h : s₀.Keeps s) : s₀.Keeps
    (s.storeAck site d x poison crcs) :=
  .ite h.pkgStore.modCtx.raise h.pkgStore.modCtx

theorem Keeps.completeXfer {site d : Nat} {x : Xfer} (h : s₀.Keeps s) : s₀.Keeps (s.completeXfer site d x) :=
  .ite (.ite (.ite h.modCtx.landFill h.modCtx.setLand) h.modCtx) (.showCtx (.armEnd (.xferSignal (.ite (.ite h.modCtx.landFill
    h.modCtx.setLand) h.modCtx))))

theorem Kept.streamTransferComplete {site : Site} {e : XferEnd} (h : s₀.Keeps s) : s₀.Kept (execStreamTransferComplete site e s) := by
  unfold execStreamTransferComplete
  dsimp only
  refine .next (.ite ?_ h)
  extract_lets
  split
  · split
    · exact h.xlineRun.storeAck.completeXfer
    · exact h.xlineRun.storeAck
  · split
    · exact h.xlineRun.completeXfer
    · exact h.xlineRun

theorem Kept.depMarkerMet {site : Site} {d : CtxId} (h : s₀.Keeps s) : s₀.Kept (execDepMarkerMet site d s) := by
  unfold execDepMarkerMet
  refine .next (.ite ?_ h)
  split
  · exact .ite h h.modCtx.showCtx
  · exact h

theorem Keeps.copyBlock {site : Nat} {o : Op} {i : Nat} {who : Who} (h : s₀.Keeps s) : s₀.Keeps (s.copyBlock site o i who) :=
  .foldl (.ite (.ite h h.touchRead) (.makeGood (.ite h h.touchRead))) (fun _ _ h => h.sliceWrite)

theorem Kept.fillCopyComplete {site : Site} {transposer : Bool} (h : s₀.Keeps s) : s₀.Kept (execFillCopyComplete site transposer s) := by
  unfold execFillCopyComplete
  refine .next (.ite ?_ h)
  split
  · exact h
  · refine .ite h.xlineRun (.getD (fun _ e => h.parityAt e) ?_)
    extract_lets who s1 s2 s3
    have h2 : s₀.Keeps s2 := (h.foldl fun _ _ h => h.copyBlock).opSignal
    have h3 : s₀.Keeps s3 := h2.modCl fun c => by split <;> rfl
    exact .settle (.showQueues (.ite h3.xlineLeave h3))

theorem Keeps.landErr {site reason slot : Nat} (h : s₀.Keeps s) : s₀.Keeps (s.landErr site reason slot) := h.raiseAt

theorem Keeps.showVcq {e : Nat} (h : s₀.Keeps s) : s₀.Keeps (s.showVcq e) := .ite (h.foldl (fun _ _ h => h.setFld)) h

theorem Keeps.showVcqs (h : s₀.Keeps s) : s₀.Keeps s.showVcqs := h.foldl fun _ _ h => h.showVcq

theorem Keeps.drain {e : Nat} {m : GMsg} (h : s₀.Keeps s) : s₀.Keeps (s.drain e m) := h.modEdge.showVcq

theorem Keeps.takeMsg {m : GMsg} (h : s₀.Keeps s) : s₀.Keeps (s.takeMsg m) := by
  unfold State.takeMsg
  split
  · exact h.drain
  · exact h.update
  · exact h.update
  · exact h

theorem Keeps.hush {x : Nat × Nat × Nat} (h : s₀.Keeps s) : s₀.Keeps (s.hush x) := h.update

theorem Keeps.unmute {w : Way} {m : GMsg} (h : s₀.Keeps s) : s₀.Keeps (s.unmute w m) := h.update

theorem Keeps.mute {w : Way} {m : GMsg} (h : s₀.Keeps s) : s₀.Keeps (s.mute w m) := by
  unfold State.mute
  split
  · exact h.hush
  · exact h.unmute.update

theorem Keeps.landPiece {m : GMsg} {w : Way} (h : s₀.Keeps s) (e : s.landPiece m w = some t) : s₀.Keeps t := by
  unfold State.landPiece at e
  extract_lets site l size off s1 s2 s3 at e
  have h2 : s₀.Keeps s2 := .sliceWrite (.ite h.unmute.landBind h)
  have h3 : s₀.Keeps s3 := h2.landFill
  split at e
  · cases e
    exact .ite h.mute.landErr h
  · split at e
    · cases e
    · split at e
      · cases e
      · split at e
        · cases e
          exact h
        · split at e
          · exact Option.some.inj e ▸ .ite h3.landErr h3
          · exact Option.some.inj e ▸ h2

theorem Keeps.landTurn {m : GMsg} {w : Way} (h : s₀.Keeps s) (e : s.landTurn m w = some t) : s₀.Keeps t := by
  unfold State.landTurn at e
  split at e
  · cases e
    exact h.logEvent
  · exact h.landPiece e

theorem Keeps.unhold {w : Way} {m : GMsg} (h : s₀.Keeps s) : s₀.Keeps (s.unhold w m) := h.update

theorem Keeps.hold {w : Way} {m : GMsg} (h : s₀.Keeps s) : s₀.Keeps (s.hold w m) := .ite h h.update

theorem Keeps.bring {m : GMsg} (h : s₀.Keeps s) : s₀.Keeps (s.bring m) := .ite h h.netLand

theorem Kept.remoteArrival {m : GMsg} (h : s₀.Keeps s) : s₀.Kept (execRemoteArrival m s) := by
  unfold execRemoteArrival
  refine .next (.ite h ?_)
  dsimp only
  split
  · exact h.bring
  · split
    · next e => exact (h.bring.landTurn e).takeMsg.unhold.showPending
    · refine .showPending (.hold (.getD (fun u hu => ?_) h.bring))
      split at hu
      · exact h.bring.parityAt hu
      · cases hu

theorem Keeps.dropTransfer {w : Way} {m : GMsg} (h : s₀.Keeps s) : s₀.Keeps (s.dropTransfer w m) := by
  unfold State.dropTransfer
  extract_lets
  split
  · exact h.modEdge.showVcq
  · exact h.update
  · exact h

theorem Kept.remoteHeldTmo {e : Edge} (h : s₀.Keeps s) : s₀.Kept (execRemoteHeldTmo e s) := by
  unfold execRemoteHeldTmo
  extract_lets
  refine .next ?_
  split
  · exact h.mute.dropTransfer.unhold.landErr.showPending
  · exact h

theorem Keeps.hopTo {site t' d j : Nat} {data : List Byte} {src : Nat × Nat × Nat} (h : s₀.Keeps s) : s₀.Keeps (s.hopTo site t' d j data
    src) :=
  h.modCl.showPending

theorem Keeps.refreshCopies {site : Nat} (h : s₀.Keeps s) : s₀.Keeps (s.refreshCopies site) := by
  unfold State.refreshCopies
  exact h.modCl

theorem Keeps.slotRouted {site d j v : Nat} (h : s₀.Keeps s) : s₀.Keeps (s.slotRouted site d j v) :=
  .ite h (h.update.foldl (fun _ _ h => h.netHop))

theorem Keeps.slotSend {site d j : Nat} (h : s₀.Keeps s) : s₀.Keeps (s.slotSend site d j) := by
  unfold State.slotSend
  extract_lets
  split
  · exact h
  · extract_lets
    refine .ite h ?_
    split
    · exact h.modCl.count
    · exact .ite (.hopTo (.ite h.modCl.touchRead.raiseAt h.modCl.touchRead)) (.ite h.modCl.touchRead.raiseAt h.modCl.touchRead)

theorem Keeps.slotCarry {site d j : Nat} (h : s₀.Keeps s) : s₀.Keeps (s.slotCarry site d j) := by
  unfold State.slotCarry
  extract_lets
  refine .ite h ?_
  extract_lets
  refine .ite ?_ h.touchRead.slotSend
  extract_lets
  split
  · exact h.touchRead.slotRouted.showPending
  · exact h.touchRead.slotRouted

theorem Kept.linkSlotStart {site : Site} {j : Fin 128} (h : s₀.Keeps s) : s₀.Kept (execLinkSlotStart site j s) :=
  .next (.ite (.foldl (.modCl (.ite h h.refreshCopies)) (fun _ _ h => h.slotCarry)) h)

theorem Kept.neighbourArrival {site : Site} {d : Edge} (h : s₀.Keeps s) : s₀.Kept (execNeighbourArrival site d s) := by
  unfold execNeighbourArrival
  refine .next ?_
  split
  · exact h
  · refine .ite h (.getD (fun _ e => h.parityAt e) ?_)
    extract_lets s0 s1 s2 s3
    have h0 : s₀.Keeps s0 := h.modCl.showPending
    have h1 : s₀.Keeps s1 := by
      unfold s1
      split
      · exact .ite h0.hopTo h0
      · exact h0
    have h3 : s₀.Keeps s3 := h1.landBind.sliceWrite.landFill
    exact .ite h1.landErr (.ite h1.landErr (.ite h3.landErr h3))

theorem Kept.sendHeldTmo {site : Site} {d : Edge} (h : s₀.Keeps s) : s₀.Kept (execSendHeldTmo site d s) := by
  unfold execSendHeldTmo
  extract_lets
  refine .next ?_
  split
  · exact h.modCl.raiseAt
  · exact h

theorem Keeps.landClear {site : Nat} (h : s₀.Keeps s) : s₀.Keeps (s.landClear site) := h.mapRegs

theorem Keeps.bankOffReq {site v : Nat} (h : s₀.Keeps s) : s₀.Keeps (s.bankOffReq site v) := h.foldl (fun _ _ h => .ite h.setFld.setFld h)

theorem Keeps.bankLast {site b result reason : Nat} (h : s₀.Keeps s) : s₀.Keeps (s.bankLast site b result reason) := h.wr

theorem Keeps.bankTo {site b power : Nat} (h : s₀.Keeps s) : s₀.Keeps (s.bankTo site b power) := h.setFld.setFld

theorem Keeps.bankOnReq {site v : Nat} (h : s₀.Keeps s) : s₀.Keeps (s.bankOnReq site v) :=
  h.foldl (fun _ _ h => .ite h.bankTo.bankLast (.ite h.bankTo h))

theorem Kept.bankPowerDown {site : Site} {b : BankId} (h : s₀.Keeps s) : s₀.Kept (execBankPowerDown site b s) :=
  .next (.ite h.bankTo.bankLast h)

theorem Kept.bankPdRefused {site : Site} {b : BankId} (h : s₀.Keeps s) : s₀.Kept (execBankPdRefused site b s) :=
  .next (.ite h.bankTo.bankLast h)

/-- A slice without some of its bytes stays canonical. -/
theorem memWf_filter {m : List Cell} (p : Cell → Bool) (h : memWf m = true) : memWf (m.filter p) = true := by
  unfold memWf at *
  rw [Store.canon_iff] at *
  exact ⟨h.1.filter _, fun q hq => h.2 q (List.mem_filter.mp hq).1⟩

theorem Keeps.bankWake {site b : Nat} (h : s₀.Keeps s) : s₀.Keeps (s.bankWake site b) := by
  unfold State.bankWake
  exact .xlineRun (.foldl (h.bankTo.modClOf fun _ hc => memWf_filter _ hc) fun _ _ h => .ite h.copyEntry h)

theorem Kept.bankWakeDone {site : Site} {b : BankId} (h : s₀.Keeps s) : s₀.Kept (execBankWakeDone site b s) := .next (.ite h.bankWake h)

theorem Keeps.slotTmo {site n : Nat} (h : s₀.Keeps s) : s₀.Keeps (s.slotTmo site n) := by
  unfold State.slotTmo
  extract_lets
  split
  · refine .ite h ?_
    dsimp only
    refine .settle ?_
    split
    · exact h.setSlotState.modSlot.waitTmo
    · exact h.setSlotState.modSlot.waitTmo
  · exact h

theorem Keeps.ctxTmo {site d : Nat} (h : s₀.Keeps s) : s₀.Keeps (s.ctxTmo site d) := by
  unfold State.ctxTmo
  dsimp only
  split
  · exact h
  · refine .ite h ?_
    split
    · exact .ite h h.modCtx.waitTmo
    · exact .ite h h.modCtx.waitTmo
    · exact .ite h.modCtx.waitTmo (.ite h.modCtx.waitTmo h)
    · exact h

theorem Keeps.arrTmo {site a : Nat} (h : s₀.Keeps s) : s₀.Keeps (s.arrTmo site a) := by
  unfold State.arrTmo
  extract_lets
  split
  · exact .ite h (((h.foldl (fun _ _ h => h.modArr)).waitTmo).settle)
  · exact h

theorem Keeps.engTmo {site e : Nat} (h : s₀.Keeps s) : s₀.Keeps (s.engTmo site e) := by
  unfold State.engTmo
  extract_lets
  split
  · exact .ite h h.modEng.waitTmo.settle
  · exact h

theorem Kept.waitTmo {site : Site} {w : Waiter} (h : s₀.Keeps s) : s₀.Kept (execWaitTmo site w s) := by
  unfold execWaitTmo
  refine .next (.ite ?_ h)
  split
  · exact h.slotTmo
  · exact h.ctxTmo
  · exact h.arrTmo
  · exact h.engTmo

/-! ## Barriers -/

theorem Keeps.applySignal {m : GMsg} (h : s₀.Keeps s) : s₀.Keeps (s.applySignal m) :=
  .ite (.ite h.tobjAdd h.logEvent) (.ite h.objAdd h.logEvent)

theorem Kept.remoteSignal {m : GMsg} (h : s₀.Keeps s) : s₀.Kept (execRemoteSignal m s) := by
  unfold execRemoteSignal
  refine .next (.ite h ?_)
  extract_lets
  split
  · exact h.bring
  · exact .ite h.bring.takeMsg.unmute (.ite h.bring h.bring.takeMsg.unmute.applySignal)

theorem Keeps.takeCtlMsg {m : GMsg} (h : s₀.Keeps s) : s₀.Keeps (s.takeCtlMsg m) := by
  unfold State.takeCtlMsg
  refine .ite h.update ?_
  split
  · exact h.drain
  · exact h

theorem Keeps.takeCtl {p : GMsg → Bool} (h : s₀.Keeps s) : s₀.Keeps (s.takeCtl p) := by
  unfold State.takeCtl
  split
  · exact h.takeCtlMsg
  · exact h

theorem Keeps.modNode {b k : Nat} {f : Node → Node} (h : s₀.Keeps s) : s₀.Keeps (s.modNode b k f) := h.update

theorem Keeps.showBar {b : Nat} (h : s₀.Keeps s) : s₀.Keeps (s.showBar b) := h.setFld.setFld.setFld

theorem Keeps.pushArr {a : BArr} (h : s₀.Keeps s) : s₀.Keeps (s.pushArr a) := h.update

theorem Keeps.tell {l : List Nat} {sub bar gen v : Nat} (h : s₀.Keeps s) : s₀.Keeps (s.tell l sub bar gen v) :=
  h.foldl fun _ _ h => h.send

theorem Keeps.rootRelease {b : Nat} (h : s₀.Keeps s) : s₀.Keeps (s.rootRelease b) := .ite h.modNode.tell h.modNode.tell

theorem Keeps.nodeUp {b k : Nat} (h : s₀.Keeps s) : s₀.Keeps (s.nodeUp b k) :=
  .ite h (.ite (.ite h.update.enter.setFld h.update) (.ite h.modNode.pushArr (.ite h.modNode.pushArr (.ite (.ite h.modNode (.ite
    h.modNode.pushArr h.modNode.send)) h.modNode.rootRelease))))

theorem Keeps.showBarSlot {site n : Nat} (h : s₀.Keeps s) : s₀.Keeps (s.showBarSlot site n) := h.setFlag.setFlag

theorem Keeps.overrun {b site n gen : Nat} (h : s₀.Keeps s) : s₀.Keeps (s.overrun b site n gen) := h.setFlag.modSlot.showBarSlot.log

theorem Keeps.countArrival {a : BArr} (h : s₀.Keeps s) : s₀.Keeps (s.countArrival a) :=
  .showBar (.nodeUp (.ite h (.ite h.modNode (.ite h.modNode (.ite (.ite h.modNode.overrun h.modNode) h)))))

theorem Kept.barrierArrival {b : BarId} {node : BarNode} {gen : BitVec 16} (h : s₀.Keeps s) : s₀.Kept (execBarrierArrival b node gen s) := by
  unfold execBarrierArrival
  extract_lets
  refine .next (.ite h ?_)
  split
  · exact h.update.countArrival
  · refine .ite ?_ (.ite h.nodeUp.showBar h)
    split
    · exact h.takeCtlMsg.countArrival
    · exact h

theorem Keeps.freeSlot {site n b gen : Nat} (h : s₀.Keeps s) : s₀.Keeps (s.freeSlot site n b gen) := h.modSlot.showBarSlot

theorem Keeps.releaseNodes {b gen : Nat} (h : s₀.Keeps s) : s₀.Keeps (s.releaseNodes b gen) :=
  (((h.foldl (fun _ _ h => h.modNode)).foldl (fun _ _ h => h.freeSlot)).foldl (fun _ _ h => h.nodeUp)).showBar

theorem Kept.dataBarrierRelease {b : BarId} {gen : BitVec 16} (h : s₀.Keeps s) : s₀.Kept (execDataBarrierRelease b gen s) := by
  unfold execDataBarrierRelease
  extract_lets
  refine .next (.ite (.ite (.ite h.releaseNodes h) (.ite (.ite h.releaseNodes h) ?_)) h)
  split
  · exact h.takeCtlMsg.releaseNodes
  · exact h

theorem Keeps.realignObj {site o : Nat} (h : s₀.Keeps s) : s₀.Keeps (s.realignObj site o) := by
  unfold State.realignObj
  exact .modCl (.ite h (.ite h.setFld64.logEvent.logEvent.setFld h.setFld64.logEvent.logEvent))

theorem Keeps.realign {b : Nat} (h : s₀.Keeps s) : s₀.Keeps (s.realign b) := h.foldl (fun _ _ h => h.foldl (fun _ _ h => h.realignObj))

theorem Keeps.takeSnap (h : s₀.Keeps s) : s₀.Keeps s.takeSnap := h.update

theorem Keeps.pausePoint (h : s₀.Keeps s) : s₀.Keeps s.pausePoint := .ite h.update h

theorem Keeps.alignSlot {site n b gen : Nat} (h : s₀.Keeps s) : s₀.Keeps (s.alignSlot site n b gen) :=
  .ite h (.ite h.modSlot.setSlotState h.modSlot)

theorem Keeps.endLate {b gen : Nat} (h : s₀.Keeps s) : s₀.Keeps (s.endLate b gen) :=
  h.foldl (fun _ _ h => h.foldl (fun _ _ h => h.alignSlot))

theorem Keeps.applyRelease {b gen : Nat} (h : s₀.Keeps s) : s₀.Keeps (s.applyRelease b gen) :=
  .ite h.update.pausePoint (.pausePoint (.ite (.takeSnap (.setFld (.update (.ite h.releaseNodes.endLate.realign h.releaseNodes.endLate))))
    (.ite h.releaseNodes.endLate.realign h.releaseNodes.endLate)))

theorem Kept.controlRelease {b : BarId} {gen beat : BitVec 16} (h : s₀.Keeps s) : s₀.Kept (execControlRelease b gen beat s) := by
  unfold execControlRelease
  extract_lets
  refine .next (.ite ?_ h)
  split
  · exact h
  · exact .ite h.takeCtlMsg.applyRelease.logEvent h.takeCtlMsg.update

theorem Keeps.applyDue {p : Machine.Rel → Bool} (h : s₀.Keeps s) : s₀.Keeps (s.applyDue p) := h.update.foldl fun _ _ h => h.applyRelease

theorem Kept.releaseApply {b : BarId} (h : s₀.Keeps s) : s₀.Kept (execReleaseApply b s) := .next (.ite h.applyDue h)

theorem Keeps.requestRepeat {reason : Nat} (h : s₀.Keeps s) : s₀.Keeps (s.requestRepeat reason) := .ite h.fail (.ite h.update h.update.send)

/-! ## Reduction -/

theorem Keeps.modBucket {g i : Nat} {f : Bucket → Bucket} (h : s₀.Keeps s) : s₀.Keeps (s.modBucket g i f) := h.update

theorem Keeps.modGrp {g : Nat} {f : Grp → Grp} (h : s₀.Keeps s) : s₀.Keeps (s.modGrp g f) := h.update

theorem Keeps.freeLines {g : Nat} {ls : List RLine} (h : s₀.Keeps s) : s₀.Keeps (s.freeLines g ls) :=
  (h.foldl (fun _ _ h => .ite h h.modEdge)).showVcqs

theorem Keeps.showRed {g : Nat} (h : s₀.Keeps s) : s₀.Keeps (s.showRed g) := h.setFld

theorem Keeps.redWrite {g i : Nat} {fs : List (Nat × Nat × Nat)} (h : s₀.Keeps s) : s₀.Keeps (s.redWrite g i fs) := h.pkgWrite

theorem Keeps.redLast {g i reason missing : Nat} (h : s₀.Keeps s) : s₀.Keeps (s.redLast g i reason missing) := h.wr64

theorem Keeps.sealReplies {g i : Nat} (h : s₀.Keeps s) : s₀.Keeps (s.sealReplies g i) := h.foldl fun _ _ h => h.complete

theorem Keeps.doSeal {g : Nat} (h : s₀.Keeps s) : s₀.Keeps (s.doSeal g) :=
  .sealReplies (.showRed (.ite (.modGrp (.setFld (.ite (.modBucket (.redWrite (.ite h.tobjAdd h))) (.modGrp (.modBucket (.logEvent
    (.redLast (.redWrite (.ite h.tobjAdd h))))))))) (.setFld (.ite (.modBucket (.redWrite (.ite h.tobjAdd h))) (.modGrp (.modBucket
    (.logEvent (.redLast (.redWrite (.ite h.tobjAdd h))))))))))

theorem Kept.bucketSeal {g : Fin 16} (h : s₀.Keeps s) : s₀.Kept (execBucketSeal g s) := .next (.ite h.doSeal h)

theorem Keeps.convert {g i : Nat} (h : s₀.Keeps s) : s₀.Keeps (s.convert g i) := by
  unfold State.convert
  extract_lets d arr step p tr inbox s1
  have hp : s₀.Keeps p.1 := Keeps.foldlFst (f := step) (p := (s, {}, false)) h fun _ _ h => h.update
  have h1 : s₀.Keeps s1 := hp.update
  exact h1.memRange.redWrite.modBucket

theorem Keeps.readPieces {g i n : Nat} (h : s₀.Keeps s) : s₀.Keeps (s.readPieces g i n) := by
  induction n generalizing s with
  | zero => exact h
  | succ n ih =>
    unfold State.readPieces
    exact .ite h (ih h.takeGrants.modBucket)

theorem Kept.conversionDone {g : Fin 16} (h : s₀.Keeps s) : s₀.Kept (execConversionDone g s) := by
  unfold execConversionDone
  refine .next ?_
  split
  · exact .ite h.readPieces.convert h.readPieces
  · exact h

theorem Keeps.redTake {i : Nat} {m : GMsg} (h : s₀.Keeps s) (e : s.redTake i m = some t) : s₀.Keeps t := by
  unfold State.redTake at e
  split at e
  · split at e
    · split at e
      · cases e
        exact h.drain
      · cases e
    · cases e
      exact h
  · split at e
    · cases e
      exact h
    · split at e
      · cases e
        exact h.update
      · cases e

theorem Keeps.dropStale {m : GMsg} (h : s₀.Keeps s) : s₀.Keeps (s.dropStale m) := .ite h.count h.count.modGrp.logEvent

theorem Keeps.redSend {port : Nat} {m : GMsg} (h : s₀.Keeps s) : s₀.Keeps (s.redSend port m) := .ite h.edgeSend (.ite h.update h)

theorem Keeps.redSendDown {g : Nat} {m : GMsg} (h : s₀.Keeps s) : s₀.Keeps (s.redSendDown g m) := h.foldl fun _ _ h => h.redSend

theorem Keeps.residueFail {g i line : Nat} (h : s₀.Keeps s) : s₀.Keeps (s.residueFail g i line) := by
  unfold State.residueFail
  exact h.count.modBucket.raise

theorem Keeps.writeDown {d l : Nat} {bs : List Byte} (h : s₀.Keeps s) : s₀.Keeps (s.writeDown d l bs) := h.pkgWrite.memRange

theorem Keeps.formDown {g i n : Nat} (h : s₀.Keeps s) : s₀.Keeps (s.formDown g i n) := by
  induction n generalizing s with
  | zero => exact h
  | succ n ih =>
    unfold State.formDown
    dsimp only
    refine .ite h ?_
    split
    · exact h
    · refine .ite h.modBucket (ih (.modBucket (.redWrite ?_)))
      exact .ite (.writeDown (.ite h.takeGrants h)) (.redSendDown (.writeDown (.ite h.takeGrants h)))

theorem Keeps.shut {g i : Nat} {f : Bucket → Bucket} (h : s₀.Keeps s) : s₀.Keeps (s.shut g i f) := h.modBucket.freeLines

theorem Keeps.closeBucket {g i : Nat} {o : RedEnd} {missing : Nat} (h : s₀.Keeps s) : s₀.Keeps (s.closeBucket g i o missing) :=
  h.shut.redSendDown.update

theorem Keeps.bucketAbandon {g i reason : Nat} (h : s₀.Keeps s) : s₀.Keeps (s.bucketAbandon g i reason) :=
  .fail (.log (.ite (h.redWrite.modBucket.count.redLast.showRed.modGrp.foldl (fun _ _ h => h.complete.setFlag))
    h.redWrite.modBucket.count.redLast.showRed.modGrp))

theorem Keeps.nodeAbandon {g i : Nat} (h : s₀.Keeps s) : s₀.Keeps (s.nodeAbandon g i) := .ite h.bucketAbandon h.log.fail

theorem Keeps.redStep {g i : Nat} (h : s₀.Keeps s) : s₀.Keeps (s.redStep g i) :=
  .ite h (.ite (.ite (.ite h h.formDown) (.ite (.ite h h.formDown) (.closeBucket (.ite h h.formDown)))) (.ite h (.ite h.shut (.ite
    h.shut.nodeAbandon h.shut.redSend))))

theorem Keeps.addOnce {g : Nat} {ls : List RLine} (h : s₀.Keeps s) : s₀.Keeps (s.addOnce g ls).1 := .iteFst h h.update

theorem Keeps.passSum {g i line : Nat} {a : RSum} (h : s₀.Keeps s) : s₀.Keeps (s.passSum g i line a) :=
  .ite h.count.modBucket.modBucket.redStep h.count.modBucket.redSend

theorem Keeps.combine {g i line : Nat} (h : s₀.Keeps s) : s₀.Keeps (s.combine g i line) :=
  .ite h.modBucket.freeLines.addOnce.passSum (.ite h.modBucket.freeLines.addOnce.addOnce.count.passSum
    h.modBucket.freeLines.addOnce.addOnce.residueFail)

theorem Kept.reductionLineArrival {i : RedIn} {m : GMsg} (h : s₀.Keeps s) : s₀.Kept (execReductionLineArrival i m s) := by
  unfold execReductionLineArrival
  extract_lets
  refine .next (.ite h ?_)
  split
  · exact h
  · next e =>
    exact .ite ((h.redTake e).dropStale) (.ite (h.redTake e) (.ite (.combine (.ite ((h.redTake e).modBucket) ((((h.redTake
      e).modBucket).modEdge).showVcq))) (.ite ((h.redTake e).modBucket) ((((h.redTake e).modBucket).modEdge).showVcq))))

theorem Kept.reductionTrailerArrival {i : RedIn} {m : GMsg} (h : s₀.Keeps s) : s₀.Kept (execReductionTrailerArrival i m s) := by
  unfold execReductionTrailerArrival
  extract_lets
  refine .next (.ite h ?_)
  split
  · exact h
  · next e =>
    exact .ite ((h.redTake e).dropStale) (.ite (h.redTake e) (.ite (.ite ((h.redTake e).residueFail) (h.redTake e)) (.redStep (.modBucket
      (.ite ((h.redTake e).residueFail) (h.redTake e))))))

theorem Kept.reductionDeadline {g : Fin 16} (h : s₀.Keeps s) : s₀.Kept (execReductionDeadline g s) := by
  unfold execReductionDeadline
  extract_lets
  refine .next ?_
  split
  · exact h.closeBucket
  · exact h

theorem Keeps.downTake {m : GMsg} (h : s₀.Keeps s) (e : s.downTake m = some t) : s₀.Keeps t := by
  unfold State.downTake at e
  split at e
  · exact h.redTake e
  · exact h.redTake e

theorem Kept.downLineArrival {m : GMsg} (h : s₀.Keeps s) : s₀.Kept (execDownLineArrival m s) := by
  unfold execDownLineArrival
  extract_lets
  refine .next (.ite h (.ite ?_ (.ite h.modBucket ?_)))
  · split
    · next e =>
      exact (h.downTake e).dropStale
    · exact h
  · split
    · exact h
    · next e =>
      exact .ite (((h.downTake e).redSendDown).residueFail) (.ite (.writeDown (.modBucket (.ite (((h.downTake e).redSendDown).takeGrants)
        ((h.downTake e).redSendDown)))) ((h.downTake e).redSendDown))

theorem Keeps.bucketRepeat {g i w reason : Nat} (h : s₀.Keeps s) : s₀.Keeps (s.bucketRepeat g i w reason) := by
  unfold State.bucketRepeat
  extract_lets
  refine .ite h.redWrite.update.count.redLast.showRed.requestRepeat ?_
  split
  · exact h.redWrite.update.count.redLast.showRed.log.requestRepeat
  · exact h.redWrite.update.count.redLast.showRed.foldl fun _ _ h => h.raise

theorem Keeps.bucketDone {g i w : Nat} (h : s₀.Keeps s) : s₀.Keeps (s.bucketDone g i w) :=
  .showRed (.count (.ite h.redWrite.modBucket.modGrp.logEvent h.redWrite.modBucket.modGrp.deliver))

theorem Kept.downTrailerArrival {m : GMsg} (h : s₀.Keeps s) : s₀.Kept (execDownTrailerArrival m s) := by
  unfold execDownTrailerArrival
  extract_lets
  refine .next (.ite h ?_)
  split
  · exact h
  · next e =>
    exact .ite ((h.downTake e).dropStale) (.ite (.ite (.bucketRepeat (.shut (.residueFail (.ite (h.downTake e) ((h.downTake
      e).redSendDown))))) (.shut (.residueFail (.ite (h.downTake e) ((h.downTake e).redSendDown))))) (.ite (.shut (.ite (h.downTake e)
      ((h.downTake e).redSendDown))) (.ite (.bucketAbandon (.shut (.ite (h.downTake e) ((h.downTake e).redSendDown)))) (.ite
      (.bucketRepeat (.shut (.ite (h.downTake e) ((h.downTake e).redSendDown)))) (.ite (.bucketRepeat (.shut (.ite (h.downTake e)
      ((h.downTake e).redSendDown)))) (.bucketDone (.shut (.ite (h.downTake e) ((h.downTake e).redSendDown)))))))))

theorem Keeps.freeAll {bs : List (Nat × Bucket)} (h : s₀.Keeps s) : s₀.Keeps (s.freeAll bs) := h.foldl fun _ _ h => h.freeLines

theorem Keeps.redAttempt {attempt : Nat} (h : s₀.Keeps s) : s₀.Keeps (s.redAttempt attempt) :=
  h.foldl fun _ _ h => h.setFld.setFld.showRed

theorem Keeps.redRepeat {attempt : Nat} (h : s₀.Keeps s) : s₀.Keeps (s.redRepeat attempt) := h.update.freeAll.redAttempt

theorem Keeps.redRestart (h : s₀.Keeps s) : s₀.Keeps s.redRestart := h.foldl fun _ _ h => h.modGrp

theorem Keeps.redBegin (h : s₀.Keeps s) : s₀.Keeps s.redBegin := h.update.freeAll.redAttempt

/-! ## Recovery -/

theorem Keeps.closeWindow {site : Nat} (h : s₀.Keeps s) : s₀.Keeps (s.closeWindow site) :=
  .ite (h.foldl (fun _ _ h => .ite h.setFld.setFld h.setFld.setFld.modCl)) h

theorem Keeps.linkWindows {a b : Nat} (h : s₀.Keeps s) : s₀.Keeps (s.linkWindows a b) := h.foldl fun _ _ h => h.setFld.modCl

theorem Keeps.linkReplays {site : Nat} (h : s₀.Keeps s) : s₀.Keeps (s.linkReplays site) :=
  h.foldl (fun _ _ h => h.foldl (fun _ _ h => h.linkWindows))

theorem Keeps.retireUnit {u : TestUnit} (h : s₀.Keeps s) : s₀.Keeps (s.retireUnit u) := by
  unfold State.retireUnit
  split
  · exact .ite h.setFld.setFld h.setFld
  · exact h.setFld
  · exact h

theorem Keeps.accFails {u : TestUnit} (h : s₀.Keeps s) : s₀.Keeps (s.accFails u) := by
  unfold State.accFails
  split
  · exact .ite h.setFld h
  · exact h

theorem Keeps.redirect {site a b : Nat} (h : s₀.Keeps s) : s₀.Keeps (s.redirect site a b) := h.setFld

theorem Keeps.replay {site n : Nat} (h : s₀.Keeps s) : s₀.Keeps (s.replay site n) := .ite h h.count.setSlotState.copyEntry.modSlot

theorem Keeps.act {e : PErr} {pass : Option Bool} (h : s₀.Keeps s) : s₀.Keeps (s.act e pass) := by
  unfold State.act
  extract_lets failed job lvl action s1 s2 red s3 s4 s5
  have h2 : s₀.Keeps s2 := by
    unfold s2
    split
    · exact h.log.count
    · exact h.log.count
    · exact h.log
  have h3 : s₀.Keeps s3 := .ite h2.retireUnit h2
  have h4 : s₀.Keeps s4 := by
    unfold s4
    split
    · exact .ite h3.setFld h3
    · exact h3
  have h5 : s₀.Keeps s5 := by
    unfold s5
    split
    · exact h4.redirect.setFlag
    · exact h4
  refine .ite (.option (fun _ => h5.closeWindow) h5) ?_
  split
  · exact h5.closeWindow
  · exact h5.replay
  · exact h5.requestRepeat
  · exact h5.setFlag.requestRepeat
  · exact h5
  · exact h5
  · exact h5.fail

theorem Keeps.zeroBank {site a bank : Nat} (h : s₀.Keeps s) : s₀.Keeps (s.zeroBank site a bank) := h.modCl

theorem Keeps.refill {site u : Nat} (h : s₀.Keeps s) : s₀.Keeps (s.refill site u) :=
  h.foldl (fun _ _ h => .ite (.ite h.copyEntry h) h.modSlot)

theorem Keeps.testLeaves {u : TestUnit} {whole : Bool} (h : s₀.Keeps s) : s₀.Keeps (s.testLeaves u whole) := by
  unfold State.testLeaves
  split
  · extract_lets a s1 s2 s3 s4
    have h3 : s₀.Keeps s3 := .ite h.modArr.setFlag.zeroBank.zeroBank h.modArr.setFlag.zeroBank
    have h4 : s₀.Keeps s4 := .ite h3.setFld h3
    exact .ite h4.arrRest (.ite h.refill (.ite (.ite h.setFld h) h))
  · exact .ite (h.modClOf fun _ hc => memWf_filter _ hc) h.modCl
  · exact .ite h h.trainAgain
  · exact .ite (.showRemap (.ite h.update.setFld h.update)) h
  · exact h

theorem Keeps.testFinds {u : TestUnit} {r : TestEnd} (h : s₀.Keeps s) : s₀.Keeps (s.testFinds u r) := by
  unfold State.testFinds
  split
  · exact h.modEdge
  · exact .ite h.setFld.update.setFld.showRemap h.setFld
  · exact h

theorem Keeps.testCommandEnd {u : TestUnit} {pass : Bool} (h : s₀.Keeps s) : s₀.Keeps (s.testCommandEnd u pass) := by
  unfold State.testCommandEnd
  split
  · exact .ite h.testLeaves.update.complete h.testLeaves.update.complete
  · exact .ite (.ite h.testLeaves.update.sayOk h.testLeaves.update.sayErr) h

theorem Keeps.testGoesOn {u : TestUnit} (h : s₀.Keeps s) : s₀.Keeps (s.testGoesOn u) := by
  unfold State.testGoesOn
  split
  · exact (h.foldl (fun _ _ h => .ite h.copyEntry h)).xlineRun
  · exact .ite h.xlineRun h
  · exact h

theorem Keeps.selftestDone {u : TestUnit} {r : TestEnd} (h : s₀.Keeps s) : s₀.Keeps (s.selftestDone u r) :=
  .testCommandEnd (.ite h.testFinds (.testGoesOn (.foldl (.ite h.testFinds.update.testLeaves.accFails h.testFinds.update.testLeaves) (fun
    _ _ h => h.act))))

theorem Kept.repeatRequest {step : Word} {attempt : Fin 4} {gen : BitVec 16} (h : s₀.Keeps s) : s₀.Kept (execRepeatRequest step attempt
    gen s) := by
  unfold execRepeatRequest
  extract_lets
  refine .next (.ite h ?_)
  split
  · exact h
  · exact .ite h.takeCtlMsg.logEvent.tell (.ite h.takeCtlMsg (.ite h.takeCtlMsg.tell h.takeCtlMsg.tell.update))

theorem Kept.restartArrival {tile : Fin 8} (h : s₀.Keeps s) : s₀.Kept (execRestartArrival tile s) := by
  unfold execRestartArrival
  extract_lets
  refine .next (.ite h ?_)
  split
  · exact h
  · exact .ite h.takeCtlMsg (.ite h.takeCtlMsg.update.tell h.takeCtlMsg.update)

theorem Kept.repeatReceipt {beat : BitVec 16} {attempt : Fin 4} (h : s₀.Keeps s) : s₀.Kept (execRepeatReceipt beat attempt s) := by
  unfold execRepeatReceipt
  extract_lets
  refine .next ?_
  split
  · exact h
  · exact h.takeCtlMsg.update

theorem Keeps.dropBlock {site n : Nat} (h : s₀.Keeps s) : s₀.Keeps (s.dropBlock site n) := .ite h h.modBlk.setSlotState.settle

theorem Keeps.dropWork (h : s₀.Keeps s) : s₀.Keeps s.dropWork :=
  h.foldl (fun _ _ h => (h.foldl (fun _ _ h => h.dropBlock)).foldl (fun _ _ h => h.cancelCtx))

theorem Keeps.rewind {attempt : Nat} (h : s₀.Keeps s) : s₀.Keeps (s.rewind attempt) :=
  .showVcqs (.update (.foldl (.foldl (.dropWork (.redRepeat (.count (.setFlag (.setFld (.setFld (.ite h.enter h))))))) (fun _ _ h =>
    h.landClear.modCl)) (fun _ _ h => h.trainStart)))

theorem Kept.repeatApply (h : s₀.Keeps s) : s₀.Kept (execRepeatApply s) := by
  unfold execRepeatApply
  refine .next ?_
  split
  · exact .ite h.rewind h
  · exact h

theorem Keeps.restoreSlot {site n : Nat} {x : SlotSt} (h : s₀.Keeps s) : s₀.Keeps (s.restoreSlot site n x) :=
  .ite (.ite h.modSlot h.modSlot.setFld.setFld.setFld) (.copyEntry (.setSlotState (.ite h.modSlot h.modSlot.setFld.setFld.setFld)))

theorem Keeps.restoreSnap (h : s₀.Keeps s) : s₀.Keeps s.restoreSnap := by
  unfold State.restoreSnap
  split
  · exact h
  · next p _ =>
    extract_lets s1 tile s2 s3
    have h1 : s₀.Keeps s1 := h.resetWhere.foldl fun _ _ h => h.wr
    have h2 : s₀.Keeps s2 := (h1.mapClusters (f := fun c => { c with slots := c.slots.map fun (x : Nat × SlotSt) =>
      (x.1, ({ missLog := x.2.missLog, trips := x.2.trips, instret := x.2.instret } : SlotSt)) })).update
    exact (h2.foldl fun _ _ h => h.restoreSlot).foldl fun _ _ h => h.showBar

theorem Keeps.mendCluster {site : Nat} (h : s₀.Keeps s) : s₀.Keeps (s.mendCluster site) := by
  unfold State.mendCluster
  exact h.foldl fun _ _ h => .ite (h.modClOf fun _ hc => memWf_memWrite _ _ _ hc) h

theorem Kept.restartReady (h : s₀.Keeps s) : s₀.Kept (execRestartReady s) :=
  .next (.ite (((((h.foldl (fun _ _ h => h.landClear.mendCluster)).restoreSnap).redRestart).update).send) h)

theorem Kept.stepAbandon (h : s₀.Keeps s) : s₀.Kept (execStepAbandon s) := by
  unfold execStepAbandon
  refine .next ?_
  split
  · exact h.takeCtlMsg.fail
  · exact h

theorem Keeps.remap {site spare : Nat} (h : s₀.Keeps s) : s₀.Keeps (s.remap site spare) := by
  unfold State.remap
  dsimp only
  refine .setFlag (.setFlag (.setFlag (.setFld (.setFlag (.setFlag (.setFld ?_))))))
  split
  · exact h.setFld
  · exact h

/-- The slice that the job image gives is built by writes alone. -/
theorem memWf_imageSlice (s : State) (site : Nat) : memWf (s.imageSlice site) = true := by
  unfold State.imageSlice
  have key : ∀ (l : List Machine.Section) (m : List Cell), memWf m = true → memWf (l.foldl (fun m c =>
      let last := if c.fixed then min 4 c.bytes else c.bytes
      memWrite m (c.dest - window site) (memRead s.pkgMem (c.src + (c.bytes - last)) last)) m) = true := by
    intro l
    induction l with
    | nil => exact fun _ h => h
    | cons c l ih => exact fun m h => ih _ (memWf_memWrite _ _ _ h)
  exact key _ _ rfl

theorem Keeps.swapSite {site : Nat} (h : s₀.Keeps s) : s₀.Keeps (s.swapSite site) := by
  unfold State.swapSite
  extract_lets spare words old s1 s2 fresh s3 tile s4
  have h2 : s₀.Keeps s2 := h.setFlag.resetWhere.remap.foldl fun _ _ h => h.wr
  have h3 : s₀.Keeps s3 := (h2.setCl fun _ => rfl).setCl fun _ => memWf_imageSlice s site
  have h4 : s₀.Keeps s4 := h3.update
  exact h4.foldl fun _ _ h => h.restoreSlot

theorem Kept.clusterSwap (h : s₀.Keeps s) : s₀.Kept (execClusterSwap s) := by
  unfold execClusterSwap
  extract_lets
  refine .next ?_
  split
  · exact h
  · exact .ite h.fail (.ite (.showBar (.nodeUp (.ite h.swapSite.update.enter h.swapSite.update))) h.swapSite)

/-! ## The beat -/

theorem Keeps.relay {v : Word} (h : s₀.Keeps s) : s₀.Keeps (s.relay v) := h.foldl fun _ _ h => h.modEdge

theorem Kept.markIssue (h : s₀.Keeps s) : s₀.Kept (execMarkIssue s) := .next (.ite h.update.relay h)

theorem Keeps.loseBeat {got : Option Nat} (h : s₀.Keeps s) : s₀.Keeps (s.loseBeat got) := by
  unfold State.loseBeat
  exact h.update.raise

theorem Kept.markReceipt {num : BitVec 16} {st : Fin 16} {onTime : Bool} (h : s₀.Keeps s) : s₀.Kept (execMarkReceipt num st onTime s) :=
  .next (.ite h (.ite (.ite h.takeSym.relay.update.update h.takeSym.relay) (.ite h.takeSym.relay (.ite (.ite h.takeSym.relay.update (.ite
    h.takeSym.relay.update h.takeSym.relay.update)) (.ite h.takeSym.relay.update h.takeSym.relay.loseBeat)))))

theorem Kept.beatLoss (h : s₀.Keeps s) : s₀.Kept (execBeatLoss s) := .next (.ite h.loseBeat h)

theorem Kept.resyncTimeout (h : s₀.Keeps s) : s₀.Kept (execResyncTimeout s) := .next (.ite h.fail h)

theorem Keeps.ageCluster {site : Nat} (h : s₀.Keeps s) : s₀.Keeps (s.ageCluster site) := h.modCl

theorem Keeps.ageWaits (h : s₀.Keeps s) : s₀.Keeps s.ageWaits := (h.foldl (fun _ _ h => h.ageCluster)).update

theorem Keeps.ageBanks {site : Nat} (h : s₀.Keeps s) : s₀.Keeps (s.ageBanks site) := h.foldl fun _ _ h => h.count

theorem Keeps.ageBatches {site : Nat} (h : s₀.Keeps s) : s₀.Keeps (s.ageBatches site) := h.foldl fun _ _ h => h.count

theorem Keeps.ageWdog {site : Nat} (h : s₀.Keeps s) : s₀.Keeps (s.ageWdog site) := h.modCl

theorem Keeps.newGrants (h : s₀.Keeps s) : s₀.Keeps s.newGrants := h.update

theorem Keeps.missed {site n : Nat} (h : s₀.Keeps s) : s₀.Keeps (s.missed site n) :=
  .ite h (.ite (.ite h.modSlot h.modSlot.setSlotState) (.ite h (.ite h.count.count.wr64.modSlot h.count.count.wr64.modSlot.log)))

theorem Keeps.startBlock {site n : Nat} (h : s₀.Keeps s) : s₀.Keeps (s.startBlock site n) :=
  .ite h.leave.modCl.modSlot.setFld.setFld.showSlot h.leave.modCl.modSlot.setFld.setFld.showSlot.trap

theorem Kept.lateBlockStart {site : Site} {n : SlotId} (h : s₀.Keeps s) : s₀.Kept (execLateBlockStart site n s) :=
  .next (.ite h.startBlock h)

theorem Keeps.completeOp {op status reason detail : Nat} (h : s₀.Keeps s) : s₀.Keeps (s.completeOp op status reason detail) :=
  h.foldl fun _ _ h => h.complete

theorem Keeps.markEnters (h : s₀.Keeps s) : s₀.Keeps s.markEnters := by
  unfold State.markEnters
  extract_lets
  refine .ite ?_ (.ite (h.enter.setFlag.update.foldl (fun _ _ h => h.closeWindow)) h)
  extract_lets
  refine .ite (.ite h.enter.setFlag.update.update.takeSnap h.enter.setFlag.update.update) ?_
  split
  · exact .ite h.enter.setFlag.update.rewind h.enter.setFlag.update
  · exact h.enter.setFlag.update

theorem Keeps.markCounts {old : Nat} (h : s₀.Keeps s) : s₀.Keeps (s.markCounts old) :=
  .update (.newGrants (.foldl (.ite h h.ageWaits) (fun _ _ h => .ageBatches (.ite (.ageBanks (.linkReplays (.syncParity (.ite h
    h.ageWdog)))) (.linkReplays (.syncParity (.ite h h.ageWdog)))))))

theorem Keeps.markNodes (h : s₀.Keeps s) : s₀.Keeps s.markNodes := (h.foldl (fun _ _ h => h.nodeUp)).foldl fun _ _ h => h.refreshCopies

theorem Keeps.stretched {n : Nat} (h : s₀.Keeps s) : s₀.Keeps (s.stretched n) := .ite h h.count.count

theorem Keeps.mark {num stretch : Nat} (h : s₀.Keeps s) : s₀.Keeps (s.mark num stretch) := by
  unfold State.mark
  extract_lets old s1 s2 slots s3 s4 bc s5 beat s6 s7 s8 job s9 s10 s11
  have h2 : s₀.Keeps s2 := by
    unfold s2
    split
    · exact .ite h.applyDue.rewind h.applyDue
    · exact h.applyDue
  have h4 : s₀.Keeps s4 := (h2.foldl fun _ _ h => h.missed).markCounts
  have h7 : s₀.Keeps s7 := h4.wr64.setFld.stretched.update.markEnters
  have h8 : s₀.Keeps s8 := .ite h7.completeOp h7
  have h9 : s₀.Keeps s9 := by
    unfold s9
    split
    · exact .ite h8.update h8
    · exact h8
  have h10 : s₀.Keeps s10 := .markNodes (.ite h9.forwardStretch h9)
  have h11 : s₀.Keeps s11 := h10.foldl fun _ _ h => .ite h.redStep h
  exact .ite (h11.foldl fun _ _ h => .ite h.startBlock h) h11

theorem Kept.localMark (h : s₀.Keeps s) : s₀.Kept (execLocalMark s) := by
  unfold execLocalMark
  refine .next ?_
  split
  · exact .ite h.mark h
  · exact h

theorem Keeps.commitBar {site n blk : Nat} {p : Nat × Bool × Option Nat} (h : s₀.Keeps s) : s₀.Keeps (s.commitBar site n blk p) := by
  unfold State.commitBar
  extract_lets
  split
  · exact h.raiseAt
  · exact h.setFld.setFld.modSlot.countArrival.showBarSlot

theorem Keeps.commitSums {site : Nat} {b : Blk} {src : Nat} (h : s₀.Keeps s) : s₀.Keeps (s.commitSums site b src) :=
  (h.foldl (fun _ _ h => h.objSum)).foldl fun _ _ h => h.tobjSum

theorem Keeps.commit {site n : Nat} (h : s₀.Keeps s) : s₀.Keeps (s.commit site n) :=
  .ite (.closeWindow (.foldl (.foldl (.commitSums (.ite ((((((h.foldl (fun _ _ h => h.setFld)).foldl (fun _ _ h => h.landFill)).foldl (fun
    _ _ h => h.setFlag)).modCl).modSlot).setSlotState) (((((((h.foldl (fun _ _ h => h.setFld)).foldl (fun _ _ h => h.landFill)).foldl (fun
    _ _ h => h.setFlag)).modCl).modSlot).setSlotState).setFld))) (fun _ _ h => h.deliver)) (fun _ _ h => h.commitBar))) (.foldl (.foldl
    (.commitSums (.ite ((((((h.foldl (fun _ _ h => h.setFld)).foldl (fun _ _ h => h.landFill)).foldl (fun _ _ h =>
    h.setFlag)).modCl).modSlot).setSlotState) (((((((h.foldl (fun _ _ h => h.setFld)).foldl (fun _ _ h => h.landFill)).foldl (fun _ _ h =>
    h.setFlag)).modCl).modSlot).setSlotState).setFld))) (fun _ _ h => h.deliver)) (fun _ _ h => h.commitBar))

theorem Kept.blockCommit {site : Site} {n : SlotId} (h : s₀.Keeps s) : s₀.Kept (execBlockCommit site n s) := .next (.ite h.commit h)

theorem Kept.clWdog {site : Site} (h : s₀.Keeps s) : s₀.Kept (execClWdog site s) := by
  unfold execClWdog
  extract_lets
  refine .next (.ite ?_ h)
  split
  · exact h.modCl.raise
  · exact h

theorem Kept.tileWdog (h : s₀.Keeps s) : s₀.Kept (execTileWdog s) := .next (.ite h.log.fail h)

theorem Keeps.bankTick {cycles : Nat} (h : s₀.Keeps s) : s₀.Keeps (s.bankTick cycles) :=
  .ite h.update (h.update.foldl (fun _ _ h => h.foldl (fun _ _ h => h.ageBanks)))

theorem Keeps.clockTick (h : s₀.Keeps s) : s₀.Keeps s.clockTick := .ite h.tick (.bankTick (.ite h.tick.ageWaits h.tick))

end State

end Sys2Proof.Machine
end

section
/-! What is kept (`State.Keeps`), operation by operation: the sideband, the boot ROM, the control space, the queues and the monitor. Each proof follows its definition: the state's way
through the operations that the definition applies, in their order. -/

namespace Sys2Proof.Machine

open Host (Cell)

-- One theorem at a time: theorems checked side by side reserve a stack each, and together more memory than a check may take.
set_option Elab.async false

namespace State

variable {s₀ s t : State}

/-! ## The sideband -/

theorem Keeps.nextCandidate (h : s₀.Keeps s) : s₀.Keeps s.nextCandidate := by
  unfold State.nextCandidate
  split
  · exact h.setFld.setFld
  · exact h.setFld.setFld.update.sbQueue

theorem Keeps.claimFail (h : s₀.Keeps s) : s₀.Keeps s.claimFail := .nextCandidate (.ite h.update.setFlag.setFlag h.update)

theorem Keeps.defend (h : s₀.Keeps s) : s₀.Keeps s.defend := h.sbQueue.count

theorem Keeps.rstRecord {addr result : Nat} (h : s₀.Keeps s) : s₀.Keeps (s.rstRecord addr result) := .ite h h.setFld.setFld

theorem Keeps.relNext {left : List Nat} (h : s₀.Keeps s) : s₀.Keeps (s.relNext left) := by
  unfold State.relNext
  split
  · exact h.update
  · exact h.update.sbQueue

theorem Keeps.relAsk {left marked : List Nat} (h : s₀.Keeps s) : s₀.Keeps (s.relAsk left marked) := by
  unfold State.relAsk
  split
  · exact h.relNext
  · exact h.update.sbQueue

theorem Keeps.relStart (h : s₀.Keeps s) : s₀.Keeps s.relStart := .ite h.relAsk h

theorem Keeps.setAssign {lo w v : Nat} (h : s₀.Keeps s) : s₀.Keeps (s.setAssign lo w v) := h.wrWide

theorem Keeps.usePkg (h : s₀.Keeps s) : s₀.Keeps s.usePkg := .ite h.setFld h

theorem Keeps.useConfig (h : s₀.Keeps s) : s₀.Keeps s.useConfig := .ite (.setFld (.ite h.setFld.setFld h.setFld.setFld.opStart)) h

theorem Keeps.useQueue0 (h : s₀.Keeps s) : s₀.Keeps s.useQueue0 := .ite h.wr.wr.wr.setFld.setFld.setFld.setFld.setFld.queueEnable h

theorem Keeps.useAssign (h : s₀.Keeps s) : s₀.Keeps s.useAssign := h.usePkg.useConfig.useQueue0

theorem Keeps.readyAgain (h : s₀.Keeps s) : s₀.Keeps s.readyAgain := h.sendBootStatus.useAssign

theorem Keeps.assigned {use : State → State} (h : s₀.Keeps s) (huse : ∀ s, s₀.Keeps s → s₀.Keeps (use s)) : s₀.Keeps (s.assigned use) := by
  unfold State.assigned
  exact .ite (huse s h) h.update

theorem Kept.wakeDone (h : s₀.Keeps s) : s₀.Kept (execWakeDone s) :=
  .next (.ite (.ite (.ite h (h.wakeFields.foldl (fun _ _ h => h.trainStart))) (.ite (.useAssign (.update (.wakeEnd (.ite h
    (h.wakeFields.foldl (fun _ _ h => h.trainStart)))))) (.wakeEnd (.ite h (h.wakeFields.foldl (fun _ _ h => h.trainStart)))))) h)

theorem Keeps.sbHear {ty : Nat} {f : Frame} (h : s₀.Keeps s) : s₀.Keeps (s.sbHear ty f) :=
  .ite (.cmpFire (.ite (.count (.ite h.defend h)) (.ite h.defend h))) (.ite (.count (.ite h.defend h)) (.ite h.defend h))

theorem Keeps.sbFrame {ty len : Nat} {ok : Bool} {f : Frame} {act : State → State} (h : s₀.Keeps s)
    (hact : ∀ s, s₀.Keeps s → s₀.Keeps (act s)) : s₀.Keeps (s.sbFrame ty len ok f act) := by
  unfold State.sbFrame
  exact .ite h (.ite h.sbHear (.ite (hact _ h.sbHear) h.sbHear.count))

theorem Keeps.peerRecord {a : Nat} (h : s₀.Keeps s) : s₀.Keeps (s.peerRecord a) := by
  unfold State.peerRecord
  refine .ite h ?_
  split
  · exact h.setFld.setFlag
  · exact h

theorem Keeps.claimSeen {f : Frame} (h : s₀.Keeps s) : s₀.Keeps (s.claimSeen f) := .ite (.ite h.defend (.ite h.claimFail h)) h

theorem Keeps.onClaim {f : Frame} (h : s₀.Keeps s) : s₀.Keeps (s.onClaim f) := h.peerRecord.claimSeen

theorem Kept.addrClaim {f : Frame} (h : s₀.Keeps s) : s₀.Kept (execAddrClaim f s) :=
  .next (.ite h.sbHear.claimSeen (h.sbFrame (fun _ h => h.onClaim)))

theorem Kept.sbClaimWindowEnd (h : s₀.Keeps s) : s₀.Kept (execSbClaimWindowEnd s) := .next (.ite h.update.setFld h)

theorem Kept.capQuery {f : Frame} (h : s₀.Keeps s) : s₀.Kept (execCapQuery f s) := .next (h.sbFrame (fun _ h => h.sbQueue))

theorem Keeps.onCapReply {f : Frame} (h : s₀.Keeps s) : s₀.Keeps (s.onCapReply f) := by
  unfold State.onCapReply
  split
  · exact .ite h h.relAsk
  · exact h

theorem Kept.capReply {f : Frame} (h : s₀.Keeps s) : s₀.Kept (execCapReply f s) := .next (h.sbFrame (fun _ h => .ite h.onCapReply h))

theorem Kept.resetHold {f : Frame} (h : s₀.Keeps s) : s₀.Kept (execResetHold f s) := .next (h.sbFrame (fun _ h => h.tileReset.update))

theorem Keeps.release (h : s₀.Keeps s) : s₀.Keeps s.release := h.enter.setFld.update

theorem Kept.resetRelease {f : Frame} (h : s₀.Keeps s) : s₀.Kept (execResetRelease f s) :=
  .next (h.sbFrame (fun _ h => .ite h.count (.ite h.release h)))

theorem Kept.selfRelease (h : s₀.Keeps s) : s₀.Kept (execSelfRelease s) := .next (.ite h.release h)

theorem Keeps.onBootStatus {f : Frame} (h : s₀.Keeps s) : s₀.Keeps (s.onBootStatus f) := by
  unfold State.onBootStatus
  extract_lets
  split
  · exact .ite h.rstRecord.relNext (.ite h.rstRecord h)
  · exact .ite h.rstRecord h

theorem Kept.bootStatus {f : Frame} (h : s₀.Keeps s) : s₀.Kept (execBootStatus f s) := .next (h.sbFrame (fun _ h => .ite h.onBootStatus h))

theorem Kept.followerReportTimeout (h : s₀.Keeps s) : s₀.Kept (execFollowerReportTimeout s) := by
  unfold execFollowerReportTimeout
  refine .next (.ite ?_ h)
  split
  · exact h.rstRecord.relNext
  · exact h.relNext
  · exact h.relAsk
  · exact h

theorem Keeps.onHealthReply {f : Frame} (h : s₀.Keeps s) : s₀.Keeps (s.onHealthReply f) := by
  unfold State.onHealthReply
  split
  · exact .ite h (.ite h.update.rstRecord.sbQueue h.rstRecord.relNext)
  · exact h

theorem Kept.healthReply {f : Frame} (h : s₀.Keeps s) : s₀.Kept (execHealthReply f s) :=
  .next (h.sbFrame (fun _ h => .ite h.onHealthReply h))

theorem Kept.healthQuery {f : Frame} (h : s₀.Keeps s) : s₀.Kept (execHealthQuery f s) := .next (h.sbFrame (fun _ h => h.sbQueue))

theorem Keeps.beatReply {refuse : Nat} (h : s₀.Keeps s) : s₀.Keeps (s.beatReply refuse) := h.sbQueue

theorem Kept.beatAppoint {f : Frame} (h : s₀.Keeps s) : s₀.Kept (execBeatAppoint f s) :=
  .next (h.sbFrame (fun _ h => .ite h.update.beatReply h.beatReply))

theorem Kept.beatAppointExpiry (h : s₀.Keeps s) : s₀.Kept (execBeatAppointExpiry s) := .next h.update

theorem Keeps.onCommit {a : Nat} (h : s₀.Keeps s) : s₀.Keeps (s.onCommit a) := .ite (.wr (.ite h.setFlag.setFld h.setFlag)) h.beatReply

theorem Kept.beatCommit {f : Frame} (h : s₀.Keeps s) : s₀.Kept (execBeatCommit f s) := .next (h.sbFrame (fun _ h => h.onCommit))

theorem Kept.wake {f : Frame} (h : s₀.Keeps s) : s₀.Kept (execWake f s) := .next (h.sbFrame (fun _ h => h))

theorem Kept.timeSet {f : Frame} (h : s₀.Keeps s) : s₀.Kept (execTimeSet f s) := .next (h.sbFrame (fun _ h => .ite h.setTime h.count))

theorem Kept.pkgAssign {f : Frame} (h : s₀.Keeps s) : s₀.Kept (execPkgAssign f s) := by
  unfold execPkgAssign
  exact .next (h.sbFrame fun _ h => h.setAssign.setAssign.assigned fun _ h => h.usePkg)

theorem Kept.queue0Cfg {f : Frame} (h : s₀.Keeps s) : s₀.Kept (execQueue0Cfg f s) := by
  unfold execQueue0Cfg
  exact .next (h.sbFrame fun _ h => h.setAssign.setAssign.setAssign.setAssign.setAssign.assigned fun _ h => h.useQueue0)

theorem Kept.pkgConfig {f : Frame} (h : s₀.Keeps s) : s₀.Kept (execPkgConfig f s) :=
  .next (h.sbFrame (fun _ h => .ite (h.setAssign.setAssign.setAssign.setAssign.setAssign.setAssign.setAssign.assigned (fun _ h =>
    h.useConfig.useQueue0)) h.count))

theorem Kept.sbUnknownFrame {ty : Byte} {f : Frame} (h : s₀.Keeps s) : s₀.Kept (execSbUnknownFrame ty f s) :=
  .next (h.sbFrame (fun _ h => h))

theorem Kept.sbFrameDiscard {_why : SbFault} (h : s₀.Keeps s) : s₀.Kept (execSbFrameDiscard _why s) := .next (.ite h.count h)

theorem Keeps.attempt {f : TxFrame} {o : SendEnd} (h : s₀.Keeps s) : s₀.Keeps (s.attempt f o) := by
  unfold State.attempt
  extract_lets
  split
  · exact h.update
  · exact .ite h.count.claimFail h.count
  · exact .ite (.ite h.update.count.claimFail h.update.count) h.update.count

theorem Keeps.claimAgain (h : s₀.Keeps s) : s₀.Keeps s.claimAgain := .ite h.sbQueue h

theorem Kept.sbFrameSend {o : SendEnd} (h : s₀.Keeps s) : s₀.Kept (execSbFrameSend o s) := by
  unfold execSbFrameSend
  refine .next (.ite h ?_)
  extract_lets
  split
  · exact .ite h.nextCandidate h.claimAgain
  · exact .attempt (.ite h.nextCandidate h.claimAgain)

/-! ## Boot -/

theorem Keeps.flashRead {off n : Nat} (h : s₀.Keeps s) : s₀.Keeps (s.flashRead off n) := h.send

theorem Keeps.bootEnter {n : Nat} (h : s₀.Keeps s) : s₀.Keeps (s.bootEnter n) :=
  .ite h.setFld.opStart (.ite h.setFld.checkStart (.ite h.setFld.update.flashRead (.ite h.setFld.flashRead h.setFld)))

theorem Keeps.toMonitor {reason : Nat} (h : s₀.Keeps s) : s₀.Keeps (s.toMonitor reason) := h.setFld.enter.update.sendBootStatus

theorem Keeps.startCores {entry : Nat} (h : s₀.Keeps s) : s₀.Keeps (s.startCores entry) := h.update

theorem Keeps.bootDone (h : s₀.Keeps s) : s₀.Keeps s.bootDone :=
  h.wrWide.wrString.wr.enter.sendBootStatus.update.startCores.useAssign.relStart

theorem Keeps.setPorts {up : Byte} {single : List (BitVec 13)} (h : s₀.Keeps s) : s₀.Keeps (s.setPorts up single) := by
  unfold State.setPorts
  exact (h.update.foldl (fun _ _ h => h.setFld.setFld)).showRemap

theorem Keeps.testModeBoot {good : Byte} (h : s₀.Keeps s) : s₀.Keeps (s.testModeBoot good) :=
  (((h.foldl (fun _ _ h => .ite h.setFld.setFlag.setFld h.setFld.setFlag.setFld)).update).foldl (fun _ _ h => h.setFld.setFld)).toMonitor

theorem Keeps.bodyData {bytes : List Byte} (h : s₀.Keeps s) : s₀.Keeps (s.bodyData bytes) := .ite h.update.flashRead h.update.bootEnter

theorem Keeps.flashTake {act : State → State} (h : s₀.Keeps s) (hact : ∀ s, s₀.Keeps s → s₀.Keeps (act s)) : s₀.Keeps (s.flashTake act) := by
  unfold State.flashTake
  split
  · exact .ite h.takeMsg.toMonitor (hact _ h.takeMsg)
  · exact hact s h

theorem Keeps.bootRun {b : BootIn} (h : s₀.Keeps s) : s₀.Keeps (s.bootRun b) := by
  unfold State.bootRun
  extract_lets
  split
  · exact .ite h.bootEnter h.setFld
  · exact .ite h.bootRetryLater (.ite h.bootEnter h)
  · split
    · exact .ite h.testModeBoot (.ite h.setPorts.bootRetryLater h.setPorts.bootEnter)
    · exact .ite h.testModeBoot h.bootRetryLater
    · exact h
  · exact .ite h.bootEnter (.ite h.bootRetryLater h)
  · split
    · exact h.flashTake (fun _ h => .ite h.toMonitor (.ite h.update.bootEnter h.update.toMonitor))
    · exact h.toMonitor
    · exact h
  · exact .ite h.bootEnter h.toMonitor
  · split
    · exact h.flashTake (fun _ h => h.bodyData)
    · exact h.toMonitor
    · exact h
  · exact .ite h.bootEnter h.toMonitor
  · exact h.bootDone
  · exact h

theorem Kept.bootRomStep {b : BootIn} (h : s₀.Keeps s) : s₀.Kept (execBootRomStep b s) := .next (.ite h.bootRun h)

theorem Kept.bootRetry (h : s₀.Keeps s) : s₀.Kept (execBootRetry s) := .next (.ite h.update.bootEnter h)

theorem Keeps.newChallenge (h : s₀.Keeps s) : s₀.Keeps s.newChallenge := h.update.setFlag

theorem Keeps.dropChallenge (h : s₀.Keeps s) : s₀.Keeps s.dropChallenge := h.update.setFlag

theorem Keeps.answer {sig : Nat} (h : s₀.Keeps s) : s₀.Keeps (s.answer sig).2 := by
  unfold State.answer
  split
  · exact h
  · exact .iteSnd h.dropChallenge (.iteSnd h.dropChallenge.setFlag h.dropChallenge.count)

theorem Keeps.lock (h : s₀.Keeps s) : s₀.Keeps s.lock := .ite h.setFlag h

theorem Kept.challengeLapse (h : s₀.Keeps s) : s₀.Kept (execChallengeLapse s) := .next (.ite h.dropChallenge h)

/-! ## Control-space accesses -/

theorem Keeps.pstoreNext {site : Nat} (h : s₀.Keeps s) : s₀.Keeps (s.pstoreNext site) := h.wr

theorem Keeps.pstoreRead {site : Nat} (h : s₀.Keeps s) : s₀.Keeps (s.pstoreRead site).2 := h.pstoreNext

theorem Keeps.pstoreWrite {site : Nat} {v : Word} (h : s₀.Keeps s) : s₀.Keeps (s.pstoreWrite site v) := by
  unfold State.pstoreWrite
  refine .pstoreNext ?_
  split
  · exact h.modCl
  · exact h

theorem Keeps.clearRc {o : Nat} (h : s₀.Keeps s) : s₀.Keeps (s.clearRc o) := by
  unfold State.clearRc
  split
  · exact .ite h h.wr
  · exact h

theorem Keeps.badAccess {o : Nat} (h : s₀.Keeps s) : s₀.Keeps (s.badAccess o) := h.logEvent

theorem Keeps.windowReady {site a : Nat} (h : s₀.Keeps s) : s₀.Keeps (s.windowReady site a) := .ite h.bankWake h

theorem Keeps.ctlRead {q : Requester} {o : Nat} (h : s₀.Keeps s) : s₀.Keeps (s.ctlRead q o).2 := by
  unfold State.ctlRead
  refine .iteSnd h.badAccess ?_
  split
  · exact h.windowReady.touchRead
  · exact h
  · exact h
  · refine .iteSnd h ?_
    split
    · exact h.pstoreRead
    · refine .iteSnd h.clearRc (.iteSnd h.update.clearRc.clearRc ?_)
      split
      · exact h
      · exact h.clearRc

theorem Keeps.ring {v : Nat} (h : s₀.Keeps s) : s₀.Keeps (s.ring v) :=
  .ite h.count.logEvent (.ite h.count (.ite (.ite h.doorbellError.logEvent h.setFld) (.ite h.doorbellError.logEvent h.setFld)))

theorem Kept.doorbell {v : DWord} (h : s₀.Keeps s) : s₀.Kept (execDoorbell v s) := .next (.ite h.takeCtl.ring h)

theorem Keeps.storeWord {o : Nat} {v : Word} {keep : Nat} (h : s₀.Keeps s) : s₀.Keeps (s.storeWord o v keep) := by
  unfold State.storeWord
  split
  · exact h.wr
  · exact h

theorem Keeps.edgeOut {e st : Nat} (h : s₀.Keeps s) : s₀.Keeps (s.edgeOut e st) := h.setFld.modEdge

theorem Keeps.linkOff {e : Nat} (h : s₀.Keeps s) : s₀.Keeps (s.linkOff e) := .ite h (.ite h.setFlag.modEdge.edgeOut h.setFlag.modEdge)

theorem Keeps.enable {w : Enable} {en : Fld} {on : Bool} {off : State → State} {starter : Option (Nat × Nat)} (h : s₀.Keeps s)
    (hoff : ∀ s, s₀.Keeps s → s₀.Keeps (off s)) : s₀.Keeps (s.enable w en on off starter) := by
  unfold State.enable
  exact .ite (hoff s h) (.ite h h.checkStart)

theorem Keeps.linkBeat {v : Nat} (h : s₀.Keeps s) : s₀.Keeps (s.linkBeat v) :=
  .ite h.storeWord.update.modEdge (.ite h.storeWord.update.setFld h.storeWord.update)

theorem Keeps.linkLoop {e v : Nat} (h : s₀.Keeps s) : s₀.Keeps (s.linkLoop e v) := .ite h.setFld.setFlag.setFld.modEdge h.setFld

theorem Keeps.vportLoop {p v : Nat} (h : s₀.Keeps s) : s₀.Keeps (s.vportLoop p v) := .ite h.setFld.setFlag.setFld.showRemap h.setFld

theorem Keeps.opWrite {v : Nat} {starter : Option (Nat × Nat)} (h : s₀.Keeps s) : s₀.Keeps (s.opWrite v starter) := h.opStart

theorem Keeps.writeCluster {o : Nat} {v : Word} (h : s₀.Keeps s) : s₀.Keeps (s.writeCluster o v) :=
  .ite h.pstoreWrite (.ite h.bankOffReq (.ite h.bankOnReq (.ite (.ite h.landClear h) h.storeWord)))

theorem Keeps.writeEdge {o : Nat} {v : Word} {starter : Option (Nat × Nat)} (h : s₀.Keeps s) : s₀.Keeps (s.writeEdge o v starter) :=
  .ite (.ite (h.storeWord.enable (fun _ h => h.linkOff)) (.ite h.linkLoop h.storeWord)) (.ite h.vportLoop (.ite h.linkBeat h.storeWord))

theorem Keeps.cmpWrite {n : Nat} {v : Word} (h : s₀.Keeps s) : s₀.Keeps (s.cmpWrite n v) := .ite h.storeWord.cmpFire h.storeWord

theorem Keeps.writeWord {o : Nat} {v : Word} {starter : Option (Nat × Nat)} (h : s₀.Keeps s) : s₀.Keeps (s.writeWord o v starter) := by
  unfold State.writeWord
  refine .ite h.writeCluster (.ite h.writeEdge (.ite (.ite h.storeWord.queueEnable h.storeWord.queueDisable) (.ite (h.enable (fun _ h =>
    h.setFlag)) (.ite (h.enable (fun _ h => h.setFlag)) (.ite h.ring (.ite h.opWrite (.ite h.regionWrite (.ite (.ite h.setFld h) (.ite
    (.ite h.lock h) (.ite h ?_))))))))))
  split
  · exact h.cmpWrite
  · exact h.storeWord

theorem Keeps.writePair {o : Nat} {lo : Option Word} {hi : Word} (h : s₀.Keeps s) : s₀.Keeps (s.writePair o lo hi) := by
  unfold State.writePair
  extract_lets s1 s2
  have h1 : s₀.Keeps s1 := by
    unfold s1
    split
    · exact h.storeWord
    · exact h
  have h2 : s₀.Keeps s2 := h1.storeWord
  exact .ite h2.setTime (.ite h2.wr64 (.ite h2.wr64.cmpSee (.ite h2.wr64.cmpSee (.ite h2.cmpSee h2))))

theorem Keeps.ctlPut {q : Requester} {o : Nat} {v : Word} {starter : Option (Nat × Nat)} (h : s₀.Keeps s) : s₀.Keeps (s.ctlPut q o v
    starter) := by
  unfold State.ctlPut
  split
  · exact h.windowReady.sliceWrite
  · exact h
  · refine .ite h (.ite h.writeWord (.ite h.update ?_))
    split
    · exact h.update.writePair
    · exact h.writePair

theorem Keeps.ctlWrite {q : Requester} {o : Nat} {v : Word} (h : s₀.Keeps s) : s₀.Keeps (s.ctlWrite q o v) :=
  .ite h (.ite h.badAccess (.ite h h.ctlPut))

theorem Keeps.readWords {q : Requester} {o n : Nat} (h : s₀.Keeps s) : s₀.Keeps (s.readWords q o n).2 := by
  induction n generalizing s o with
  | zero => exact h
  | succ n ih =>
    unfold State.readWords
    exact ih h.ctlRead

/-! ## Queues -/

theorem Keeps.refuse {f : Flight} {status reason : Nat} (h : s₀.Keeps s) : s₀.Keeps (s.refuse f status reason) :=
  .ite h.writeReply.queueError h.writeReply

theorem Keeps.join {f : Flight} (h : s₀.Keeps s) : s₀.Keeps (s.join f) := h.setFld.setFld.update

theorem Keeps.takeIn {f : Flight} {reserved : Bool} {plen : Nat} (h : s₀.Keeps s) : s₀.Keeps (s.takeIn f reserved plen) :=
  .ite h.refuse (.ite h.refuse (.ite h.refuse (.ite h.refuse (.ite h.join (.ite h.refuse h.join)))))

theorem Keeps.fetchPoison {q head : Nat} (h : s₀.Keeps s) : s₀.Keeps (s.fetchPoison q head) := h.update.writeReply.queueError.logEvent

theorem Keeps.fetchFrom {q : Nat} (h : s₀.Keeps s) : s₀.Keeps (s.fetchFrom q) :=
  .ite h.fetchPoison (.ite h.writeReply.queueError h.setFld.setFld.takeIn)

theorem Kept.commandFetch (h : s₀.Keeps s) : s₀.Kept (execCommandFetch s) := by
  unfold execCommandFetch
  refine .next (.ite ?_ h)
  split
  · exact h.update.fetchFrom
  · exact h

theorem Keeps.cmd {i : FlightId} {op : Nat} {act : Flight → State} (h : s₀.Keeps s) (hact : ∀ x0, s₀.Keeps (act x0)) : s₀.Keeps
    (s.cmd i op act) := by
  unfold State.cmd
  refine .ite ?_ h
  split
  · exact hact _
  · exact h

theorem Keeps.serialCmd {i : FlightId} {op : Nat} {act : Flight → State} (h : s₀.Keeps s) (hact : ∀ x0, s₀.Keeps (act x0)) :
    s₀.Keeps (s.serialCmd i op act) :=
  h.cmd (fun _ => .ite h (.ite h.complete (hact _)))

theorem Keeps.runOn {f : Flight} (h : s₀.Keeps s) : s₀.Keeps (s.runOn f) := h.setFlight

/-! ## The serial monitor -/

theorem Keeps.monState (h : s₀.Keeps s) : s₀.Keeps s.monState := h.print.sayOk

theorem Keeps.monLog {first count : Option Nat} (h : s₀.Keeps s) : s₀.Keeps (s.monLog first count) := .ite h.sayErr h.print.sayOk

theorem Keeps.monBoot {offset : Word} (h : s₀.Keeps s) : s₀.Keeps (s.monBoot offset) := .ite h.sayErr h.sayOk.enter.update.bootEnter

theorem Keeps.monBaud {rate : Nat} (h : s₀.Keeps s) : s₀.Keeps (s.monBaud rate) := .ite h.sayErr h.sayOk.update

theorem Keeps.monUnlock (h : s₀.Keeps s) : s₀.Keeps s.monUnlock := .ite h.sayErr h.newChallenge.print.sayOk

theorem Keeps.monAnswer {sig : List Byte} (h : s₀.Keeps s) : s₀.Keeps (s.monAnswer sig) :=
  .ite h.sayErr (.ite h.sayErr (.ite h.answer.sayOk h.answer.sayErr))

theorem Keeps.monLock (h : s₀.Keeps s) : s₀.Keeps s.monLock := h.lock.sayOk

theorem Keeps.monPeek {off count : Nat} (h : s₀.Keeps s) : s₀.Keeps (s.monPeek off count) :=
  .ite h.sayErr (.ite h.sayErr h.readWords.print.sayOk)

theorem Keeps.monPoke {off : Nat} {v : Word} (h : s₀.Keeps s) : s₀.Keeps (s.monPoke off v) :=
  .ite h.sayErr (.ite h.sayErr (.ite h.sayErr (.ite h.sayErr (.ite h.ctlPut.update h.ctlPut.sayOk))))

theorem Keeps.monSync {site : Option Site} {obj : Nat} (h : s₀.Keeps s) : s₀.Keeps (s.monSync site obj) := by
  unfold State.monSync
  refine .ite h.sayErr ?_
  split
  · exact .ite h.sayErr h.print.sayOk
  · exact .ite h.sayErr h.print.sayOk

theorem Keeps.monSelftest {kind index unit : Nat} (h : s₀.Keeps s) : s₀.Keeps (s.monSelftest kind index unit) := by
  unfold State.monSelftest
  refine .ite h.sayErr (.ite h.sayErr (.ite h.sayErr ?_))
  split
  · exact h.showFault.update
  · exact h.sayErr

theorem Keeps.monDo {i : Instr} (h : s₀.Keeps s) : s₀.Keeps (s.monDo i) := by
  cases i
  case monitorState => exact h.monState
  case monitorLog => exact h.monLog
  case monitorBoot => exact h.monBoot
  case monitorBaud => exact h.monBaud
  case monitorUnlock => exact h.monUnlock
  case monitorUnlockSignature => exact h.monAnswer
  case monitorLock => exact h.monLock
  case monitorPeek => exact h.monPeek
  case monitorPoke => exact h.monPoke
  case monitorSync => exact h.monSync
  case monitorSelftest => exact h.monSelftest
  all_goals exact h

theorem Keeps.monLine {i : Instr} (h : s₀.Keeps s) : s₀.Keeps (s.monLine i) := by
  unfold State.monLine
  split
  · refine .ite h ?_
    split
    · exact h.monDo
    · exact h.sayErr
  · exact h.monDo

theorem Keeps.monGo {l : List Instr} (h : s₀.Keeps s) : s₀.Keeps (State.monGo l s) := by
  induction l generalizing s with
  | nil => exact h.update
  | cons i l ih =>
    unfold State.monGo
    exact .ite h.update (ih h.monLine)

theorem Keeps.monResume (h : s₀.Keeps s) : s₀.Keeps s.monResume := .ite h h.monGo

theorem Keeps.monServe {i : Instr} (h : s₀.Keeps s) : s₀.Keeps (s.monServe i) := .ite h (.ite h.sayErr h.monGo)

theorem Kept.monitorState (h : s₀.Keeps s) : s₀.Kept (execMonitorState s) := .next h.monServe

theorem Kept.monitorLog {first count : Option Nat} (h : s₀.Keeps s) : s₀.Kept (execMonitorLog first count s) := .next h.monServe

theorem Kept.monitorBoot {offset : Word} (h : s₀.Keeps s) : s₀.Kept (execMonitorBoot offset s) := .next h.monServe

theorem Kept.monitorBaud {rate : Nat} (h : s₀.Keeps s) : s₀.Kept (execMonitorBaud rate s) := .next h.monServe

theorem Kept.baudSwitch (h : s₀.Keeps s) : s₀.Kept (execBaudSwitch s) := by
  unfold execBaudSwitch
  refine .next ?_
  split
  · exact h.update.setFld
  · exact h

theorem Kept.monitorUnlock (h : s₀.Keeps s) : s₀.Kept (execMonitorUnlock s) := .next h.monServe

theorem Kept.monitorUnlockSignature {sig : List Byte} (h : s₀.Keeps s) : s₀.Kept (execMonitorUnlockSignature sig s) := .next h.monServe

theorem Kept.monitorLock (h : s₀.Keeps s) : s₀.Kept (execMonitorLock s) := .next h.monServe

theorem Kept.monitorPeek {off count : Nat} (h : s₀.Keeps s) : s₀.Kept (execMonitorPeek off count s) := .next h.monServe

theorem Kept.monitorPoke {off : Nat} {v : Word} (h : s₀.Keeps s) : s₀.Kept (execMonitorPoke off v s) := .next h.monServe

theorem Kept.monitorSync {site : Option Site} {obj : Nat} (h : s₀.Keeps s) : s₀.Kept (execMonitorSync site obj s) := .next h.monServe

theorem Kept.monitorSelftest {kind index unit : Nat} (h : s₀.Keeps s) : s₀.Kept (execMonitorSelftest kind index unit s) := .next h.monServe

theorem Kept.monitorLineError {line : List Byte} (h : s₀.Keeps s) : s₀.Kept (execMonitorLineError line s) := .next h.monServe

theorem Kept.selftestDone {u : TestUnit} {r : TestEnd} (h : s₀.Keeps s) : s₀.Kept (execSelftestDone u r s) :=
  .next (.ite h.selftestDone.monResume h)

/-! ## Writes that start something -/

theorem Keeps.portWrite {q : Requester} {o : Nat} {v : Word} (h : s₀.Keeps s) : s₀.Keeps (s.portWrite q o v) := h.ctlWrite.monResume

theorem Keeps.inWidth {q : Requester} {w : Width} {o : Nat} {s1 : State} (h : s₀.Keeps s) (h1 : s₀.Keeps s1) :
    s₀.Keeps (s.inWidth q w o s1) := by
  unfold State.inWidth
  exact .ite h1 (.ite h.badAccess h)

theorem Kept.registerWrite {a : Access} {off : Nat} {v : Word} (h : s₀.Keeps s) : s₀.Kept (execRegisterWrite a off v s) := by
  unfold execRegisterWrite
  exact .next (h.inWidth h.portWrite)

theorem Kept.pwrOpReq {q : Requester} {v : Word} (h : s₀.Keeps s) : s₀.Kept (execPwrOpReq q v s) := .next h.portWrite

theorem Kept.pwrRegionWrite {q : Requester} {v : Word} (h : s₀.Keeps s) : s₀.Kept (execPwrRegionWrite q v s) := .next h.portWrite

theorem Kept.pwrSleepReq {q : Requester} {v : Word} (h : s₀.Keeps s) : s₀.Kept (execPwrSleepReq q v s) := .next h.portWrite

theorem Kept.bankOffReqWrite {q : Requester} {site : Site} {v : Word} (h : s₀.Keeps s) : s₀.Kept (execBankOffReqWrite q site v s) :=
  .next h.portWrite

theorem Kept.bankOnReqWrite {q : Requester} {site : Site} {v : Word} (h : s₀.Keeps s) : s₀.Kept (execBankOnReqWrite q site v s) :=
  .next h.portWrite

theorem Kept.landCtlClear {q : Requester} {site : Site} {v : Word} (h : s₀.Keeps s) : s₀.Kept (execLandCtlClear q site v s) :=
  .next h.portWrite

theorem Kept.vePstoreDataAccess {a : Access} {site : Site} {v : Option Word} (h : s₀.Keeps s) :
    s₀.Kept (execVePstoreDataAccess a site v s) := by
  unfold execVePstoreDataAccess
  refine .next (h.inWidth ?_)
  split
  · exact h.portWrite
  · exact .ite h.ctlRead h

theorem Kept.qdbWrite {q : Requester} {v : Word} (h : s₀.Keeps s) : s₀.Kept (execQdbWrite q v s) := .next h.portWrite

theorem Kept.queueCtlEnSet {r : Requester} {q : QueueId} {v : Word} (h : s₀.Keeps s) : s₀.Kept (execQueueCtlEnSet r q v s) :=
  .next h.portWrite

theorem Kept.queueCtlEnClear {r : Requester} {q : QueueId} {v : Word} (h : s₀.Keeps s) : s₀.Kept (execQueueCtlEnClear r q v s) :=
  .next h.portWrite

theorem Kept.jobEnSet {r : Requester} {v : Word} (h : s₀.Keeps s) : s₀.Kept (execJobEnSet r v s) := .next h.portWrite

theorem Kept.linkCtlEnSet {r : Requester} {e : Edge} {v : Word} (h : s₀.Keeps s) : s₀.Kept (execLinkCtlEnSet r e v s) := .next h.portWrite

theorem Kept.linkCtlEnClear {r : Requester} {e : Edge} {v : Word} (h : s₀.Keeps s) : s₀.Kept (execLinkCtlEnClear r e v s) :=
  .next h.portWrite

theorem Kept.reduceCtlEnSet {r : Requester} {v : Word} (h : s₀.Keeps s) : s₀.Kept (execReduceCtlEnSet r v s) := .next h.portWrite

theorem Kept.dbgStateLock {q : Requester} {v : Word} (h : s₀.Keeps s) : s₀.Kept (execDbgStateLock q v s) := .next h.portWrite

theorem Kept.linkBeatWrite {q : Requester} {v : Word} (h : s₀.Keeps s) : s₀.Kept (execLinkBeatWrite q v s) := .next h.portWrite

theorem Kept.linkLoopRun {q : Requester} {e : Edge} {v : Word} (h : s₀.Keeps s) : s₀.Kept (execLinkLoopRun q e v s) := .next h.portWrite

theorem Kept.vportLoopRun {q : Requester} {p : VPort} {v : Word} (h : s₀.Keeps s) : s₀.Kept (execVportLoopRun q p v s) := .next h.portWrite

theorem Kept.consistencyCheckEnd {k : BitVec 5} {mode : Bool} {delay : BitVec 16} (h : s₀.Keeps s) : s₀.Kept (execConsistencyCheckEnd k
    mode delay s) :=
  .next (.ite h.checkEnd.monResume h)

theorem Kept.ackV {w : Word} {crc : Byte} (h : s₀.Keeps s) : s₀.Kept (execAckV w crc s) := .next (.ite h.moveAck.monResume h)

theorem Kept.vreqNack (h : s₀.Keeps s) : s₀.Kept (execVreqNack s) :=
  .next (.ite h (.ite h.moveNack.bootRetryLater.monResume h.moveNack.monResume))

end State

end Sys2Proof.Machine
end

section
/-! What is kept (`State.Keeps`), operation by operation: host commands, jobs, links, pads, the test access port and the wire. Each proof follows its definition: the state's way
through the operations that the definition applies, in their order. -/

namespace Sys2Proof.Machine

open Host (Cell)

-- One theorem at a time: theorems checked side by side reserve a stack each, and together more memory than a check may take.
set_option Elab.async false

namespace State

variable {s₀ s t : State}

/-! ## Host commands -/

theorem Kept.nop {f : FlightId} (h : s₀.Keeps s) : s₀.Kept (execNop f s) := .next (h.cmd (fun _ => h.complete))

theorem Kept.fence {f : FlightId} (h : s₀.Keeps s) : s₀.Kept (execFence f s) := .next (h.cmd (fun _ => .ite h h.complete))

theorem Kept.regRead {f : FlightId} (h : s₀.Keeps s) : s₀.Kept (execRegRead f s) := .next (h.cmd (fun _ => h.readWords.complete))

theorem Kept.regWrite {f : FlightId} (h : s₀.Keeps s) : s₀.Kept (execRegWrite f s) := by
  unfold execRegWrite
  refine .next ((h.cmd (fun _ => ?_)).monResume)
  split
  · exact h.complete
  · exact .ite ((h.runOn.foldl (fun _ _ h => h.ctlPut)).complete) ((h.runOn.foldl (fun _ _ h => h.ctlPut)).setFlight)

theorem Kept.copy {f : FlightId} (h : s₀.Keeps s) : s₀.Kept (execCopy f s) := .next (h.cmd (fun _ => h.runOn))

theorem Kept.fill {f : FlightId} (h : s₀.Keeps s) : s₀.Kept (execFill f s) := .next (h.cmd (fun _ => h.runOn))

theorem Kept.transpose {f : FlightId} (h : s₀.Keeps s) : s₀.Kept (execTranspose f s) := .next (h.cmd (fun _ => h.runOn))

theorem Keeps.awRead {w a n : Nat} {who : Who} (h : s₀.Keeps s) : s₀.Keeps (s.awRead w a n who).2 := .iteSnd h h.touchRead

theorem Keeps.awWrite {w a : Nat} {bs : List Byte} {who : Who} (h : s₀.Keeps s) : s₀.Keeps (s.awWrite w a bs who) :=
  .ite h.pkgWrite h.sliceWrite

theorem Keeps.awPoison {w dst n src : Nat} (h : s₀.Keeps s) : s₀.Keeps (s.awPoison w dst n src) :=
  .ite h.pkgPoison (h.foldl (fun _ _ h => h.markPoison))

theorem Keeps.movePiece {u : State} {f : Flight} {p : Nat × Nat × Nat} (h : s₀.Keeps s) : s₀.Keeps (State.movePiece u s f p) := by
  unfold State.movePiece
  exact .ite h.awWrite (.ite h.awRead.awWrite (h.awRead.awWrite.foldl fun _ _ h => h.awPoison))

theorem Keeps.dataSignal {f : Flight} (h : s₀.Keeps s) : s₀.Keeps (s.dataSignal f) := .ite h (.ite h.tobjAdd (.ite h.objAdd h.logEvent))

theorem Keeps.coverGood {f : Flight} (h : s₀.Keeps s) : s₀.Keeps (s.coverGood f) := .ite h h.makeGood

theorem Keeps.dataMove {x : Flight} (h : s₀.Keeps s) : s₀.Keeps (s.dataMove x) := by
  unfold State.dataMove
  extract_lets s1
  have h1 : s₀.Keeps s1 := h.coverGood.foldl fun _ _ h => h.movePiece
  split
  · exact h1.complete
  · exact h1.dataSignal.complete

theorem Kept.dataCommandComplete {f : FlightId} (h : s₀.Keeps s) : s₀.Kept (execDataCommandComplete f s) := by
  unfold execDataCommandComplete
  refine .next ?_
  split
  · exact h
  · exact .ite h (.ite h.dataMove (.ite h.spend.spend.dataMove h.spend.spend.setFlight))

theorem Kept.prefetchCancel {f : FlightId} (h : s₀.Keeps s) : s₀.Kept (execPrefetchCancel f s) :=
  .next (h.cmd (fun _ => (h.foldl (fun _ _ h => h.cancelCtx)).complete))

theorem Keeps.hostAdd {f : Flight} {inc : ℤ} (h : s₀.Keeps s) : s₀.Keeps (s.hostAdd f inc) := .ite h.tobjAdd h.objAdd

theorem Kept.signal {f : FlightId} (h : s₀.Keeps s) : s₀.Kept (execSignal f s) := .next (h.cmd (fun _ => h.hostAdd.complete))

theorem Kept.wait {f : FlightId} (h : s₀.Keeps s) : s₀.Kept (execWait f s) := .next (h.cmd (fun _ => h.runOn))

theorem Kept.hostWaitMet {f : FlightId} (h : s₀.Keeps s) : s₀.Kept (execHostWaitMet f s) := by
  unfold execHostWaitMet
  refine .next ?_
  split
  · exact h
  · exact .ite h (.complete (.ite h.hostAdd h))

theorem Kept.hostWaitTmo {f : FlightId} (h : s₀.Keeps s) : s₀.Kept (execHostWaitTmo f s) := by
  unfold execHostWaitTmo
  refine .next ?_
  split
  · exact h.complete
  · exact h

theorem Kept.query {f : FlightId} (h : s₀.Keeps s) : s₀.Kept (execQuery f s) := .next (h.cmd (fun _ => h.complete))

theorem Kept.reduceCfg {f : FlightId} (h : s₀.Keeps s) : s₀.Kept (execReduceCfg f s) := by
  unfold execReduceCfg
  refine .next (h.serialCmd (fun _ => ?_))
  split
  · exact h.complete
  · exact (h.foldl (fun _ _ h => h.storeWord)).complete

theorem Kept.reduceBucket {f : FlightId} (h : s₀.Keeps s) : s₀.Kept (execReduceBucket f s) :=
  .next (h.cmd (fun _ => .ite h.complete (.ite h.runOn.doSeal h.runOn)))

theorem Kept.deferredSeal {g : Fin 16} (h : s₀.Keeps s) : s₀.Kept (execDeferredSeal g s) := .next (.ite h.doSeal h)

theorem Kept.errQuery {f : FlightId} (h : s₀.Keeps s) : s₀.Kept (execErrQuery f s) :=
  .next (h.cmd (fun _ => ((h.foldl (fun _ _ h => h.pkgWrite)).memRange).complete))

theorem Kept.selftest {f : FlightId} (h : s₀.Keeps s) : s₀.Kept (execSelftest f s) := by
  unfold execSelftest
  refine .next (h.serialCmd (fun _ => ?_))
  split
  · exact h.runOn.showFault
  · exact h.complete

theorem Kept.spareSwap {f : FlightId} (h : s₀.Keeps s) : s₀.Kept (execSpareSwap f s) := .next (h.serialCmd (fun _ => h.swapSite.complete))

theorem Kept.capSet {f : FlightId} (h : s₀.Keeps s) : s₀.Kept (execCapSet f s) := .next (h.cmd (fun _ => h.setFld.complete))

theorem Kept.energyRead {f : FlightId} (h : s₀.Keeps s) : s₀.Kept (execEnergyRead f s) := .next (h.cmd (fun _ => h.complete))

theorem Keeps.pkgLines {a : Nat} {bs : List Byte} (h : s₀.Keeps s) : s₀.Keeps (s.pkgLines a bs) := h.foldl fun _ _ h => h.pkgWrite

theorem Kept.attest {f : FlightId} (h : s₀.Keeps s) : s₀.Kept (execAttest f s) :=
  .next (h.cmd (fun _ => h.pkgLines.update.memRange.complete))

theorem Kept.fwInfo {f : FlightId} (h : s₀.Keeps s) : s₀.Kept (execFwInfo f s) := .next (h.cmd (fun _ => h.complete))

theorem Kept.debugUnlock {f : FlightId} (h : s₀.Keeps s) : s₀.Kept (execDebugUnlock f s) :=
  .next (h.serialCmd (fun _ => .ite h.newChallenge.complete (.ite h.lock.complete (.ite h.memRange.answer.complete (.ite
    h.memRange.answer.complete h.memRange.answer.complete)))))

/-! ## Jobs -/

theorem Keeps.imageRange {f : Flight} (h : s₀.Keeps s) : s₀.Keeps (s.imageRange f) := .ite h.memRange h.memRange

theorem Keeps.undoStart (h : s₀.Keeps s) : s₀.Keeps s.undoStart :=
  .ite h.update (h.update.foldl (fun _ _ h => h.foldl (fun _ _ h => .ite h.setSlotState.modSlot h)))

theorem Keeps.loadSwaps (h : s₀.Keeps s) : s₀.Keeps s.loadSwaps := h.foldl (fun _ _ h => .ite h.swapSite h)

theorem Kept.jobLoad {f : FlightId} (h : s₀.Keeps s) : s₀.Kept (execJobLoad f s) := by
  unfold execJobLoad
  refine .next (h.serialCmd (fun _ => ?_))
  split
  · exact h.imageRange.complete
  · exact .update (.ite h.runOn.regionWrite.imageRange.loadSwaps.jobReset.showVcqs.setFlag
      h.runOn.regionWrite.imageRange.loadSwaps.enter.jobReset.showVcqs.setFlag.readyAgain)

theorem Keeps.failLoad {f : Flight} {status reason words : Nat} (h : s₀.Keeps s) : s₀.Keeps (s.failLoad f status reason words) :=
  h.jobReset.setFld.setFld.complete

theorem Keeps.loadWord {w : Nat × Nat} (h : s₀.Keeps s) : s₀.Keeps (s.loadWord w) := .ite h.ctlPut h

theorem Keeps.loadWords {l : List (Nat × Nat)} (h : s₀.Keeps s) : s₀.Keeps (s.loadWords l).1 := by
  induction l generalizing s with
  | nil => exact h
  | cons w l ih =>
    unfold State.loadWords
    exact .iteFst h.memRange (ih h.loadWord)

theorem Kept.jobLoadCopyDone (h : s₀.Keeps s) : s₀.Kept (execJobLoadCopyDone s) := by
  unfold execJobLoadCopyDone
  refine .next ?_
  split
  · exact h
  · exact .ite h.loadWords.failLoad h.loadWords.setFld.setFlag.enter.complete

theorem Kept.jobLoadTmo (h : s₀.Keeps s) : s₀.Kept (execJobLoadTmo s) := by
  unfold execJobLoadTmo
  refine .next ?_
  split
  · exact h.failLoad
  · exact h

theorem Keeps.firstBlocks (h : s₀.Keeps s) : s₀.Keeps s.firstBlocks :=
  h.foldl (fun _ _ h => h.foldl (fun _ _ h => .ite h.setSlotState.copyEntry h))

theorem Kept.jobStart {f : FlightId} (h : s₀.Keeps s) : s₀.Kept (execJobStart f s) :=
  .next (h.serialCmd (fun _ => .send (.ite h.runOn.update.firstBlocks h.runOn.update)))

theorem Keeps.startMismatch (h : s₀.Keeps s) : s₀.Keeps s.startMismatch := h.undoStart.completeOp

theorem Keeps.judgeReports (h : s₀.Keeps s) : s₀.Keeps s.judgeReports := .ite h (.ite h.tell.startMismatch.update (.ite h.update.tell h))

theorem Kept.readyReport {tile : Fin 8} {tiles : Byte} (h : s₀.Keeps s) : s₀.Kept (execReadyReport tile tiles s) := by
  unfold execReadyReport
  dsimp only
  refine .next (.ite ?_ (.ite h (.ite h.takeCtl.startMismatch ?_)))
  · split
    · exact h
    · exact .ite h.takeCtlMsg h.takeCtlMsg.update.judgeReports
  · split
    · exact h
    · exact .ite h.takeMsg.startMismatch h.takeMsg.update

theorem Kept.startTmo (h : s₀.Keeps s) : s₀.Kept (execStartTmo s) := .next (.ite h.undoStart.completeOp.update h)

theorem Kept.jobPause {f : FlightId} (h : s₀.Keeps s) : s₀.Kept (execJobPause f s) := .next (h.serialCmd (fun _ => h.runOn.setFlag.update))

theorem Kept.pauseEntry (h : s₀.Keeps s) : s₀.Kept (execPauseEntry s) := .next (.ite h.setFlag.setFlag.enter.update.completeOp h)

theorem Keeps.dropBuckets (h : s₀.Keeps s) : s₀.Keeps s.dropBuckets := h.update.foldl fun _ _ h => h.showRed

theorem Keeps.endWindows (h : s₀.Keeps s) : s₀.Keeps s.endWindows := h.foldl fun _ _ h => h.setFld.setFld

theorem Kept.jobStop {f : FlightId} (h : s₀.Keeps s) : s₀.Kept (execJobStop f s) :=
  .next (h.serialCmd (fun _ => h.runOn.completeWhere.setFlag.update.dropWork.dropBuckets.endWindows.showVcqs))

theorem Kept.jobStopIdle (h : s₀.Keeps s) : s₀.Kept (execJobStopIdle s) := by
  unfold execJobStopIdle
  refine .next ?_
  split
  · exact h
  · exact h.jobReset.setFlag.setFld.setFlag.setFlag.enter.readyAgain.complete

theorem Kept.stopHung (h : s₀.Keeps s) : s₀.Kept (execStopHung s) := by
  unfold execStopHung
  refine .next ?_
  split
  · exact h
  · exact h.complete.enterFailed

theorem Keeps.beginStep {step : Nat} (h : s₀.Keeps s) : s₀.Keeps (s.beginStep step) := by
  unfold State.beginStep
  extract_lets s1 job s2
  have h1 : s₀.Keeps s1 := h.redBegin.wr.setFlag
  clear_value s1
  have h2 : s₀.Keeps s2 := (h1.mapClusters (f := Cluster.stepBegin)).update
  exact h2.foldl fun _ _ h => h.setFld

theorem Kept.stepBegin {f : FlightId} (h : s₀.Keeps s) : s₀.Kept (execStepBegin f s) := .next (h.serialCmd (fun _ => h.beginStep.complete))

theorem Kept.stepEnd {f : FlightId} (h : s₀.Keeps s) : s₀.Kept (execStepEnd f s) := .next (h.cmd (fun _ => h.runOn))

theorem Kept.stepEndDone {f : FlightId} (h : s₀.Keeps s) : s₀.Kept (execStepEndDone f s) := by
  unfold execStepEndDone
  refine .next ?_
  split
  · exact h
  · dsimp only
    split
    · exact h.complete.setFlag
    · exact .ite h (.ite h.complete.setFlag h.complete.setFlag)

theorem Kept.stepTmo {f : FlightId} (h : s₀.Keeps s) : s₀.Kept (execStepTmo f s) := by
  unfold execStepTmo
  refine .next ?_
  split
  · exact .ite h.complete h
  · exact h

/-! ## Links -/

theorem Keeps.sendCap {e : Nat} {data : List Byte} (h : s₀.Keeps s) : s₀.Keeps (s.sendCap e data) := h.edgeSend

theorem Keeps.useCredit {e : Nat} {m : GMsg} (h : s₀.Keeps s) : s₀.Keeps (s.useCredit e m) := .ite h h.modEdge

theorem Keeps.refund {e : Nat} {m : GMsg} (h : s₀.Keeps s) : s₀.Keeps (s.refund e m) := .ite h h.useCredit.modEdge

theorem Keeps.arrive {e : Nat} {m : GMsg} (h : s₀.Keeps s) : s₀.Keeps (s.arrive e m) :=
  .ite (.ite h.refund.count h.refund.count.modEdge.logEvent) (.ite h.refund.logEvent h.useCredit.modEdge.showVcq)

theorem Keeps.setLane {e l : Nat} {on : Bool} (h : s₀.Keeps s) : s₀.Keeps (s.setLane e l on) := h.setFld64

theorem Keeps.useSpare {e k logical : Nat} (h : s₀.Keeps s) : s₀.Keeps (s.useSpare e k logical) := h.setFld64.setFld64.setLane.setFld

theorem Keeps.linkError {e lane reason : Nat} (h : s₀.Keeps s) : s₀.Keeps (s.linkError e lane reason) := h.raise

theorem Keeps.dropSpare {e k : Nat} (h : s₀.Keeps s) : s₀.Keeps (s.dropSpare e k) := h.setFld64.setFld64.setFld

/-- The definition as an equation of functions: applied to its arguments the kernel would first compute with `physOf`. -/
theorem dropLane_eq : @State.dropLane = fun s e l =>
    match s.physOf e l with
    | some p => if p < 32 then s.setLane e p false else (s.setLane e p false).dropSpare e (p - 32)
    | none => s := rfl

theorem Keeps.dropLane {e l : Nat} (h : s₀.Keeps s) : s₀.Keeps (s.dropLane e l) := by
  rw [dropLane_eq]
  beta_reduce
  cases s.physOf e l with
  | some p => exact .ite h.setLane h.setLane.dropSpare
  | none => exact h

theorem Keeps.applyPlan {e : Nat} {p : LanePlan} (h : s₀.Keeps s) : s₀.Keeps (s.applyPlan e p) := by
  unfold State.applyPlan
  extract_lets
  split
  · exact h.dropLane.modEdge.useSpare
  · exact .ite (.edgeTest (.ite h.dropLane.modEdge.setFld.setFld h.dropLane.modEdge.setFld)) (.ite h.dropLane.modEdge.setFld.setFld
      h.dropLane.modEdge.setFld)

theorem Keeps.plansDue {e seq : Nat} {own : Bool} (h : s₀.Keeps s) : s₀.Keeps (s.plansDue e seq own) := h.foldl fun _ _ h => h.applyPlan

theorem Keeps.announce {e logical : Nat} {spare : Option Nat} (h : s₀.Keeps s) : s₀.Keeps (s.announce e logical spare) := by
  unfold State.announce
  exact h.modEdge

/-- The definition as an equation of functions: applied to its arguments the kernel would first compute with the spares that are free. -/
theorem laneFail_eq : @State.laneFail = fun s e l =>
    let logical := s.logicalOf e l
    let s1 := s.modEdge e fun x => { x with train := { x.train with bad := x.train.bad ||| (1#34 <<< l) } }
    let plans := (s.edge e).plans.filter fun p => p.own
    match (s1.freeSpares e).filter fun k => !plans.any fun p => p.spare == some k with
    | k :: _ => (s1.announce e logical (some k)).logEvent 0x26 0 (s.agentAddr (0x10 + e)) (e + logical * 4 + (32 + k) * 2 ^ 8)
    | [] =>
      if 17 ≤ s.fld (Reg.LINK_STATUS_LANES e) - (plans.filter fun p => p.spare.isNone).length then
        (s1.announce e logical none).linkError e l 0x0307
      else (s1.edgeOut e 4).linkError e l 0x0308 := rfl

theorem Keeps.laneFail {e l : Nat} (h : s₀.Keeps s) : s₀.Keeps (s.laneFail e l) := by
  rw [laneFail_eq]
  beta_reduce
  extract_lets logical s1 plans
  have h1 : s₀.Keeps s1 := h.modEdge
  cases (s1.freeSpares e).filter fun k => !plans.any fun p => p.spare == some k with
  | cons k l => exact h1.announce.logEvent
  | nil => exact .ite h1.announce.linkError h1.edgeOut.linkError

theorem Kept.laneFailure {e : Edge} {lane : Fin 34} {why : LaneFail} (h : s₀.Keeps s) : s₀.Kept (execLaneFailure e lane why s) :=
  .next (.ite h (.ite (.ite h.modEdge h) (.ite h.laneFail h)))

theorem Keeps.resend {e : Nat} (h : s₀.Keeps s) : s₀.Keeps (s.resend e) := h.modEdge.count

theorem Keeps.takeAck {e ack : Nat} {nak : Bool} (h : s₀.Keeps s) : s₀.Keeps (s.takeAck e ack nak) :=
  .ite (.edgeOut (.ite h.modEdge.resend h.modEdge)) (.ite h.modEdge.resend h.modEdge)

theorem Keeps.takeCredit {e c : Nat} (h : s₀.Keeps s) : s₀.Keeps (s.takeCredit e c) := h.modEdge

theorem Keeps.keepSym {e : Nat} {v : Word} (h : s₀.Keeps s) : s₀.Keeps (s.keepSym e v) := h.modEdge

theorem Keeps.putSym {e v : Nat} (h : s₀.Keeps s) : s₀.Keeps (s.putSym e v) := h.modEdge

theorem Keeps.laneControl {e v : Nat} (h : s₀.Keeps s) : s₀.Keeps (s.laneControl e v) := by
  unfold State.laneControl
  split
  · exact .ite h.modEdge h
  · exact .ite h.putSym (.ite h.update.putSym h)
  · exact h.keepSym
  · exact h

theorem Keeps.hearSym {e : Nat} {v : Word} (h : s₀.Keeps s) : s₀.Keeps (s.hearSym e v) := by
  unfold State.hearSym
  split
  · exact .ite h h.keepSym.modEdge
  · exact h.keepSym
  · exact h.laneControl
  · exact h

theorem Keeps.laneCount {e seq : Nat} {bad : Bool} (h : s₀.Keeps s) : s₀.Keeps (s.laneCount e seq bad) := by
  unfold State.laneCount
  exact h.modEdge

theorem Keeps.refuseFlit {e seq : Nat} {damaged : Bool} (h : s₀.Keeps s) : s₀.Keeps (s.refuseFlit e seq damaged) := by
  unfold State.refuseFlit
  exact .modEdge (.ite h.count h)

theorem Keeps.acceptFlit {e : Nat} {f : Flit} (h : s₀.Keeps s) : s₀.Keeps (s.acceptFlit e f) :=
  .takeAck (.ite (h.plansDue.modEdge.hearSym.takeCredit.takeCredit.modEdge.foldl (fun _ _ h => h.arrive))
    h.plansDue.modEdge.hearSym.takeCredit.takeCredit)

theorem Kept.flitReceipt {e : Edge} {f : Flit} (h : s₀.Keeps s) : s₀.Kept (execFlitReceipt e f s) :=
  .next (.ite (.ite h.count.laneCount.refuseFlit (.ite h.count.laneCount.refuseFlit h.count.laneCount.acceptFlit)) h)

theorem Keeps.trainFail {e reason : Nat} (h : s₀.Keeps s) : s₀.Keeps (s.trainFail e reason) := .ite h.modEdge h.modEdge.setFld

theorem Keeps.trainNext {e : Nat} (h : s₀.Keeps s) : s₀.Keeps (s.trainNext e) := by
  unfold State.trainNext
  refine .ite (.setFld ?_) (.ite h.modEdge.sendCap h.modEdge)
  split
  · exact h.modEdge
  · exact h.modEdge

theorem Keeps.laneTest {e : Nat} {found : BitVec 34} {partner : Nat} (h : s₀.Keeps s) : s₀.Keeps (s.laneTest e found partner) :=
  .ite ((((h.wr64.setFld.foldl (fun _ _ h => h.useSpare)).setFld).modEdge).trainFail) ((((h.wr64.setFld.foldl (fun _ _ h =>
    h.useSpare)).setFld).modEdge).trainNext)

theorem Kept.linkTrainingStep {e : Edge} {i : TrainIn} (h : s₀.Keeps s) : s₀.Kept (execLinkTrainingStep e i s) := by
  unfold execLinkTrainingStep
  extract_lets
  refine .next (.ite h ?_)
  split
  · exact h.trainFail
  · exact .ite h.laneTest h
  · exact .ite h.setFld.trainNext h
  · exact .ite h h.trainNext

theorem Keeps.limitLanes {e n : Nat} (h : s₀.Keeps s) : s₀.Keeps (s.limitLanes e n) := .ite h ((h.foldl (fun _ _ h => h.dropLane)).setFld)

theorem Keeps.descriptor {e : Nat} {data : List Byte} (h : s₀.Keeps s) : s₀.Keeps (s.descriptor e data) :=
  .ite (.ite h.trainFail h.modEdge.sendCap) (.ite h.trainFail (.ite h.wrWide.setFlag.modEdge.limitLanes.trainFail
    h.wrWide.setFlag.modEdge.limitLanes.trainNext))

theorem Kept.cap {e : Edge} {m : GMsg} (h : s₀.Keeps s) : s₀.Kept (execCap e m s) :=
  .next (.ite h (.ite h.drain.sendCap (.ite h.drain.descriptor h.drain)))

theorem Kept.capDescriptorTimeout {e : Edge} (h : s₀.Keeps s) : s₀.Kept (execCapDescriptorTimeout e s) :=
  .next (.ite h.wrWide.setFlag.modEdge.trainNext h)

theorem Kept.messageForward {m : GMsg} (h : s₀.Keeps s) : s₀.Kept (execMessageForward m s) := .next (.ite h h.takeMsg.send)

theorem Keeps.sendReply {m : GMsg} (h : s₀.Keeps s) : s₀.Keeps (s.sendReply m) := h.update.send

theorem Keeps.memServe {m : GMsg} (h : s₀.Keeps s) : s₀.Keeps (s.memServe m) :=
  .ite h.pkgWrite.memRangeAt.sendReply (h.memRangeAt.foldl (fun _ _ h => h.sendReply))

theorem Kept.memForward {e : Edge} {m : GMsg} (h : s₀.Keeps s) : s₀.Kept (execMemForward e m s) :=
  .next (.ite h (.ite h.drain.logEvent (.memServe (.ite h.drain.spend h.drain))))

theorem Keeps.completeDone {site d n : Nat} (h : s₀.Keeps s) : s₀.Keeps (State.completeDone site d n s) := by
  induction n generalizing s with
  | zero => exact h
  | succ n ih =>
    unfold State.completeDone
    split
    · exact ih h.completeXfer
    · exact h

theorem Kept.memAck {m : GMsg} (h : s₀.Keeps s) : s₀.Kept (execMemAck m s) := by
  unfold execMemAck
  extract_lets
  refine .next (.ite h ?_)
  extract_lets
  split
  · exact h.takeMsg
  · exact h.takeMsg.storeAck.completeDone

theorem Kept.probeReply {latency : BitVec 24} (h : s₀.Keeps s) : s₀.Kept (execProbeReply latency s) := by
  unfold execProbeReply
  extract_lets
  refine .next (.ite ?_ h)
  extract_lets
  split
  · exact h.takeSym.setFld.update.putSym
  · exact h.takeSym.setFld.update

theorem Kept.loopbackRunDone {u : TestUnit} {failed : BitVec 34} (h : s₀.Keeps s) : s₀.Kept (execLoopbackRunDone u failed s) := by
  unfold execLoopbackRunDone
  extract_lets
  refine .next (.ite h ?_)
  split
  · exact .ite h.setFlag.wr64.setFld.modEdge h
  · exact .ite h.setFlag.setFld.setFld.showRemap h
  · exact h

/-! ## The test access port -/

theorem Keeps.irScan {code : BitVec 8} (h : s₀.Keeps s) : s₀.Keeps (s.irScan code) := h.update

theorem Keeps.drScan {n v : Nat} (h : s₀.Keeps s) : s₀.Keeps (s.drScan n v) := h.update

theorem Keeps.bypassScan {l : List Bool} (h : s₀.Keeps s) : s₀.Keeps (s.bypassScan l) := h.update

theorem Keeps.bsrScan {scanIn pads : BitVec 15} (h : s₀.Keeps s) : s₀.Keeps (s.bsrScan scanIn pads) := h.drScan.update

theorem Kept.extest {scanIn pads : BitVec 15} (h : s₀.Keeps s) : s₀.Kept (execExtest scanIn pads s) :=
  .next (.ite h (.ite h.irScan.bsrScan h.irScan.bypassScan))

theorem Kept.samplePreload {scanIn pads : BitVec 15} (h : s₀.Keeps s) : s₀.Kept (execSamplePreload scanIn pads s) :=
  .next (.ite h.irScan.bsrScan h)

theorem Kept.idcode (h : s₀.Keeps s) : s₀.Kept (execIdcode s) := .next (.ite h.irScan.drScan h)

theorem Kept.highz (h : s₀.Keeps s) : s₀.Kept (execHighz s) := .next (.ite h.irScan h)

theorem Kept.clamp (h : s₀.Keeps s) : s₀.Kept (execClamp s) := .next (.ite h.irScan h)

theorem Kept.bypass {x : JBypass} (h : s₀.Keeps s) : s₀.Kept (execBypass x s) := .next (.ite (.ite h.irScan.bypassScan h.irScan) h)

theorem Kept.dbgAccess {dr : BitVec 66} (h : s₀.Keeps s) : s₀.Kept (execDbgAccess dr s) :=
  .next (.ite h (.ite h.irScan.drScan (.ite h.irScan.drScan.update (.ite h.irScan.drScan.portWrite.update h.irScan.drScan.ctlRead.update))))

theorem Kept.tapReset (h : s₀.Keeps s) : s₀.Kept (execTapReset s) := .next (.ite h.update h)

/-! ## The wire -/

theorem Keeps.edgeFlit {e : Nat} (h : s₀.Keeps s) : s₀.Keeps (s.edgeFlit e) := .ite h.plansDue.modEdge h

theorem Keeps.idleTick (h : s₀.Keeps s) : s₀.Keeps s.idleTick := .ite (h.clockTick.foldl (fun _ _ h => h.edgeFlit)) h.clockTick

end State

end Sys2Proof.Machine
end


section
/-! Every command keeps what `State.Keeps` names, but POR, which samples the straps; the invariants of a step follow. -/

namespace Sys2Proof.Machine

namespace State

/-- A command other than POR answers a next state and keeps the queue of commands, the straps, the fuses and the canonical forms. -/
theorem kept_exec {s₀ s : State} (h : s₀.Keeps s) : ∀ i : Instr, (∀ st, i ≠ .vddAonRise st) → s₀.Kept (exec i s)
  | .vddAonRise st, hi => absurd rfl (hi st)
  | .vddAonFall, _ => .vddAonFall h
  | .refclkLoss, _ => .refclkLoss h
  | .selfRelease, _ => .selfRelease h
  | .bootRomStep _, _ => .bootRomStep h
  | .bootRetry, _ => .bootRetry h
  | .followerReportTimeout, _ => .followerReportTimeout h
  | .addrClaim _, _ => .addrClaim h
  | .sbClaimWindowEnd, _ => .sbClaimWindowEnd h
  | .sbFrameSend _, _ => .sbFrameSend h
  | .capQuery _, _ => .capQuery h
  | .capReply _, _ => .capReply h
  | .resetHold _, _ => .resetHold h
  | .resetRelease _, _ => .resetRelease h
  | .bootStatus _, _ => .bootStatus h
  | .beatAppoint _, _ => .beatAppoint h
  | .beatAppointExpiry, _ => .beatAppointExpiry h
  | .beatCommit _, _ => .beatCommit h
  | .wake _, _ => .wake h
  | .timeSet _, _ => .timeSet h
  | .healthQuery _, _ => .healthQuery h
  | .healthReply _, _ => .healthReply h
  | .pkgAssign _, _ => .pkgAssign h
  | .queue0Cfg _, _ => .queue0Cfg h
  | .pkgConfig _, _ => .pkgConfig h
  | .sbUnknownFrame _ _, _ => .sbUnknownFrame h
  | .comparatorFire _ _, _ => .comparatorFire h
  | .thermalTrip _ _, _ => .thermalTrip h
  | .trip _ _, _ => .trip h
  | .ackV _ _, _ => .ackV h
  | .vreqNack, _ => .vreqNack h
  | .telem _ _ _, _ => .telem h
  | .limiterSample _ _, _ => .limiterSample h
  | .stretchRequest _ _, _ => .stretchRequest h
  | .droopTrip _, _ => .droopTrip h
  | .droopRecover, _ => .droopRecover h
  | .pwrOpReq _ _, _ => .pwrOpReq h
  | .pwrRegionWrite _ _, _ => .pwrRegionWrite h
  | .regionPowerUpDone _, _ => .regionPowerUpDone h
  | .pwrSleepReq _ _, _ => .pwrSleepReq h
  | .sleepEntryDone, _ => .sleepEntryDone h
  | .wakeDone, _ => .wakeDone h
  | .markIssue, _ => .markIssue h
  | .markReceipt _ _ _, _ => .markReceipt h
  | .beatLoss, _ => .beatLoss h
  | .resyncTimeout, _ => .resyncTimeout h
  | .localMark, _ => .localMark h
  | .lateBlockStart _ _, _ => .lateBlockStart h
  | .blockCommit _ _, _ => .blockCommit h
  | .batchLimitRelease _ _, _ => .batchLimitRelease h
  | .linkSlotStart _ _, _ => .linkSlotStart h
  | .neighbourArrival _ _, _ => .neighbourArrival h
  | .sendHeldTmo _ _, _ => .sendHeldTmo h
  | .rv64imac _ _, _ => .rv64imac h
  | .bzAload _ _, _ => .bzAload h
  | .bzAstream _ _, _ => .bzAstream h
  | .bzAinit _ _, _ => .bzAinit h
  | .bzAbank _ _, _ => .bzAbank h
  | .bzAstat _ _, _ => .bzAstat h
  | .bzVsetvl _ _, _ => .bzVsetvl h
  | .bzVrun _ _, _ => .bzVrun h
  | .bzVred _ _, _ => .bzVred h
  | .bzVperm _ _, _ => .bzVperm h
  | .bzVcmpx _ _, _ => .bzVcmpx h
  | .bzVstat _ _, _ => .bzVstat h
  | .bzYmv _ _, _ => .bzYmv h
  | .bzSarm _ _, _ => .bzSarm h
  | .bzDep _ _, _ => .bzDep h
  | .bzScancel _ _, _ => .bzScancel h
  | .bzSend _ _, _ => .bzSend h
  | .bzFill _ _, _ => .bzFill h
  | .bzCopy _ _, _ => .bzCopy h
  | .bzSig _ _, _ => .bzSig h
  | .bzWait _ _, _ => .bzWait h
  | .waitMet _ _, _ => .waitMet h
  | .waitTmo _ _, _ => .waitTmo h
  | .bzBar _ _, _ => .bzBar h
  | .bzEndb _ _, _ => .bzEndb h
  | .bzBatch _ _, _ => .bzBatch h
  | .bzBflush _ _, _ => .bzBflush h
  | .bzMark _ _, _ => .bzMark h
  | .arrayOpStart _ _, _ => .arrayOpStart h
  | .arrayRowEntry _ _, _ => .arrayRowEntry h
  | .arrayCheckFail _ _ _ _ _, _ => .arrayCheckFail h
  | .loadComplete _ _, _ => .loadComplete h
  | .streamComplete _ _, _ => .streamComplete h
  | .ainitComplete _ _, _ => .ainitComplete h
  | .dummyRow _ _, _ => .dummyRow h
  | .arrayIdle _ _, _ => .arrayIdle h
  | .vectorOpStart _ _, _ => .vectorOpStart h
  | .vectorOpComplete _ _, _ => .vectorOpComplete h
  | .dummyOperation _ _, _ => .dummyOperation h
  | .vectorEngineIdle _ _, _ => .vectorEngineIdle h
  | .streamTransferIssue _ _, _ => .streamTransferIssue h
  | .streamTransferComplete _ _, _ => .streamTransferComplete h
  | .depMarkerMet _ _, _ => .depMarkerMet h
  | .loadLineArrival _ _, _ => .loadLineArrival h
  | .remoteArrival _, _ => .remoteArrival h
  | .remoteHeldTmo _, _ => .remoteHeldTmo h
  | .fillCopyComplete _ _, _ => .fillCopyComplete h
  | .bankOffReqWrite _ _ _, _ => .bankOffReqWrite h
  | .bankOnReqWrite _ _ _, _ => .bankOnReqWrite h
  | .bankPowerDown _ _, _ => .bankPowerDown h
  | .bankPdRefused _ _, _ => .bankPdRefused h
  | .bankWakeDone _ _, _ => .bankWakeDone h
  | .landCtlClear _ _ _, _ => .landCtlClear h
  | .vePstoreDataAccess _ _ _, _ => .vePstoreDataAccess h
  | .remoteSignal _, _ => .remoteSignal h
  | .barrierArrival _ _ _, _ => .barrierArrival h
  | .dataBarrierRelease _ _, _ => .dataBarrierRelease h
  | .controlRelease _ _ _, _ => .controlRelease h
  | .releaseApply _, _ => .releaseApply h
  | .clWdog _, _ => .clWdog h
  | .tileWdog, _ => .tileWdog h
  | .bucketSeal _, _ => .bucketSeal h
  | .reductionLineArrival _ _, _ => .reductionLineArrival h
  | .reductionTrailerArrival _ _, _ => .reductionTrailerArrival h
  | .reductionDeadline _, _ => .reductionDeadline h
  | .downLineArrival _, _ => .downLineArrival h
  | .downTrailerArrival _, _ => .downTrailerArrival h
  | .repeatRequest _ _ _, _ => .repeatRequest h
  | .repeatReceipt _ _, _ => .repeatReceipt h
  | .repeatApply, _ => .repeatApply h
  | .restartReady, _ => .restartReady h
  | .stepAbandon, _ => .stepAbandon h
  | .selftestDone _ _, _ => .selftestDone h
  | .clusterSwap, _ => .clusterSwap h
  | .doorbell _, _ => .doorbell h
  | .qdbWrite _ _, _ => .qdbWrite h
  | .commandFetch, _ => .commandFetch h
  | .queueCtlEnSet _ _ _, _ => .queueCtlEnSet h
  | .queueCtlEnClear _ _ _, _ => .queueCtlEnClear h
  | .jobEnSet _ _, _ => .jobEnSet h
  | .linkCtlEnSet _ _ _, _ => .linkCtlEnSet h
  | .linkCtlEnClear _ _ _, _ => .linkCtlEnClear h
  | .reduceCtlEnSet _ _, _ => .reduceCtlEnSet h
  | .consistencyCheckEnd _ _ _, _ => .consistencyCheckEnd h
  | .registerWrite _ _ _, _ => .registerWrite h
  | .nop _, _ => .nop h
  | .fence _, _ => .fence h
  | .regRead _, _ => .regRead h
  | .regWrite _, _ => .regWrite h
  | .jobLoad _, _ => .jobLoad h
  | .jobLoadCopyDone, _ => .jobLoadCopyDone h
  | .jobLoadTmo, _ => .jobLoadTmo h
  | .jobStart _, _ => .jobStart h
  | .readyReport _ _, _ => .readyReport h
  | .startTmo, _ => .startTmo h
  | .jobPause _, _ => .jobPause h
  | .pauseEntry, _ => .pauseEntry h
  | .jobStop _, _ => .jobStop h
  | .jobStopIdle, _ => .jobStopIdle h
  | .stopHung, _ => .stopHung h
  | .stepBegin _, _ => .stepBegin h
  | .stepEnd _, _ => .stepEnd h
  | .stepEndDone _, _ => .stepEndDone h
  | .stepTmo _, _ => .stepTmo h
  | .copy _, _ => .copy h
  | .fill _, _ => .fill h
  | .transpose _, _ => .transpose h
  | .dataCommandComplete _, _ => .dataCommandComplete h
  | .prefetchCancel _, _ => .prefetchCancel h
  | .signal _, _ => .signal h
  | .wait _, _ => .wait h
  | .hostWaitMet _, _ => .hostWaitMet h
  | .hostWaitTmo _, _ => .hostWaitTmo h
  | .query _, _ => .query h
  | .reduceCfg _, _ => .reduceCfg h
  | .reduceBucket _, _ => .reduceBucket h
  | .deferredSeal _, _ => .deferredSeal h
  | .errQuery _, _ => .errQuery h
  | .selftest _, _ => .selftest h
  | .spareSwap _, _ => .spareSwap h
  | .capSet _, _ => .capSet h
  | .energyRead _, _ => .energyRead h
  | .attest _, _ => .attest h
  | .fwInfo _, _ => .fwInfo h
  | .debugUnlock _, _ => .debugUnlock h
  | .challengeLapse, _ => .challengeLapse h
  | .dbgStateLock _ _, _ => .dbgStateLock h
  | .flitReceipt _ _, _ => .flitReceipt h
  | .laneFailure _ _ _, _ => .laneFailure h
  | .linkTrainingStep _ _, _ => .linkTrainingStep h
  | .cap _ _, _ => .cap h
  | .capDescriptorTimeout _, _ => .capDescriptorTimeout h
  | .memForward _ _, _ => .memForward h
  | .memAck _, _ => .memAck h
  | .messageForward _, _ => .messageForward h
  | .linkBeatWrite _ _, _ => .linkBeatWrite h
  | .probeReply _, _ => .probeReply h
  | .linkLoopRun _ _ _, _ => .linkLoopRun h
  | .vportLoopRun _ _ _, _ => .vportLoopRun h
  | .loopbackRunDone _ _, _ => .loopbackRunDone h
  | .monitorState, _ => .monitorState h
  | .monitorLog _ _, _ => .monitorLog h
  | .monitorBoot _, _ => .monitorBoot h
  | .monitorBaud _, _ => .monitorBaud h
  | .baudSwitch, _ => .baudSwitch h
  | .monitorUnlock, _ => .monitorUnlock h
  | .monitorUnlockSignature _, _ => .monitorUnlockSignature h
  | .monitorLock, _ => .monitorLock h
  | .monitorPeek _ _, _ => .monitorPeek h
  | .monitorPoke _ _, _ => .monitorPoke h
  | .monitorSync _ _, _ => .monitorSync h
  | .monitorSelftest _ _ _, _ => .monitorSelftest h
  | .monitorLineError _, _ => .monitorLineError h
  | .extest _ _, _ => .extest h
  | .samplePreload _ _, _ => .samplePreload h
  | .idcode, _ => .idcode h
  | .highz, _ => .highz h
  | .clamp, _ => .clamp h
  | .bypass _, _ => .bypass h
  | .dbgAccess _, _ => .dbgAccess h
  | .refclkReturn, _ => .refclkReturn h
  | .sbFrameDiscard why, _ => .sbFrameDiscard (_why := why) h
  | .conversionDone _, _ => .conversionDone h
  | .restartArrival _, _ => .restartArrival h
  | .tapReset, _ => .tapReset h

/-- POR keeps package memory, and starts with an empty register store and without clusters (R13). -/
theorem por_eq (s : State) (st : Straps) : (s.por st).pending = s.pending ∧ (s.por st).pkgMem = s.pkgMem ∧ (s.por st).regs = []
    ∧ (s.por st).clusters = [] := ⟨rfl, rfl, rfl, rfl⟩

/-- What a step does to a state: a tick, a command other than POR, or POR. -/
theorem step_cases {s t : State} (h : step s = .next t) :
    s.Keeps t ∨ ({ s with pending := s.pending.tail } : State).Keeps t ∨ ∃ st rest, t = ({ s with pending := rest } : State).por st := by
  unfold step at h
  split at h
  · cases h
    exact .inl (Keeps.refl s).idleTick
  · next i rest hp =>
    by_cases hi : ∃ st, i = .vddAonRise st
    · obtain ⟨st, rfl⟩ := hi
      cases h
      exact .inr (.inr ⟨st, rest, rfl⟩)
    · obtain ⟨u, hu, hk⟩ := kept_exec (Keeps.refl { s with pending := rest }) i (not_exists.mp hi)
      cases hu.symm.trans h
      exact .inr (.inl (by rwa [hp]))

end State

/-- Settles O56: by `kept_exec`, and for POR by its definition. -/
theorem everyCommandAnswers : Obligations.EveryCommandAnswers := by
  unfold Obligations.EveryCommandAnswers
  intro i s
  by_cases hi : ∃ st, i = .vddAonRise st
  · obtain ⟨st, rfl⟩ := hi
    exact ⟨_, rfl, (s.por_eq st).1⟩
  · obtain ⟨t, ht, hk⟩ := State.kept_exec (.refl s) i (not_exists.mp hi)
    exact ⟨t, ht, hk.pendingEq⟩

/-- Settles O58. -/
theorem memoryStaysCanonical : Obligations.MemoryStaysCanonical := by
  unfold Obligations.MemoryStaysCanonical
  intro s t hs h
  obtain hk | hk | ⟨st, rest, rfl⟩ := State.step_cases h
  · exact hk.memOk hs
  · exact hk.memOk hs
  · exact hs

/-- Settles O59. -/
theorem registersStayCanonical : Obligations.RegistersStayCanonical := by
  unfold Obligations.RegistersStayCanonical
  intro s t hs h
  obtain hk | hk | ⟨st, rest, rfl⟩ := State.step_cases h
  · exact hk.regsWf hs
  · exact hk.regsWf hs
  · exact ⟨List.Pairwise.nil, by simp [State.por]⟩

/-- Settles O60. -/
theorem slicesStayCanonical : Obligations.SlicesStayCanonical := by
  unfold Obligations.SlicesStayCanonical
  intro s t hs h
  obtain hk | hk | ⟨st, rest, rfl⟩ := State.step_cases h
  · exact hk.slicesOk hs
  · exact hk.slicesOk hs
  · exact fun p hp => absurd hp (by simp [State.por])

/-- Settles O1: `step` is defined so. -/
theorem stepRunsFrontCommand : Obligations.StepRunsFrontCommand := by
  unfold Obligations.StepRunsFrontCommand
  intro s i rest h
  rw [step, h]

/-- Settles O4: the reset state lists no byte, no register and no cluster. -/
theorem resetMeetsInvariants : Obligations.ResetMeetsInvariants := by
  unfold Obligations.ResetMeetsInvariants
  exact ⟨memOk_reset, regsWf_reset, slicesOk_reset⟩

/-- Settles O5: that no command but POR changes the straps or the fuses is `kept_exec`; the rest is what four definitions say. -/
theorem suppliesAndClocks : Obligations.SuppliesAndClocks := by
  unfold Obligations.SuppliesAndClocks
  refine ⟨fun s st => ?_, fun i s t hi h => ?_, fun s => ?_, fun s => ?_, fun s => ?_⟩
  · exact ⟨_, rfl, rfl, rfl, rfl, rfl, rfl, rfl, rfl, rfl, rfl, rfl, rfl, fun _ => rfl, rfl⟩
  · obtain ⟨u, hu, hk⟩ := State.kept_exec (.refl s) i hi
    cases hu.symm.trans h
    exact hk.devEq
  · exact ⟨_, rfl, State.fld_setFld_same _ _ (by decide), rfl, rfl, rfl, fun _ => rfl, rfl⟩
  · refine ⟨_, rfl, rfl, fun h => ?_, fun h hsl => ?_, fun h hst => ?_, rfl, rfl, fun _ => rfl, rfl⟩
    · simp [h]
    · have hne : s.sleep ≠ 2 := by omega
      simp [h, hne]
    · simp [h, hst]
  · exact ⟨_, rfl, rfl, rfl, rfl, rfl, rfl, fun _ => rfl, rfl⟩

end Sys2Proof.Machine
end

section
/-! The state that a command answers, to run a statement on a concrete state. -/

namespace Sys2Proof.Machine

/-- The state that a command answers. -/
def State.after (s : State) (c : Instr) : State :=
  match exec c s with
  | .next t => t
  | _ => s

/-- What a command promises holds of the state that it runs to. -/
theorem Answers.after {c : Instr} {s : State} {P : State → Prop} (h : Answers c s P) : P (s.after c) := by
  obtain ⟨t, ht, hp⟩ := h
  unfold State.after
  rw [ht]
  exact hp

end Sys2Proof.Machine
end

section
/-! One slot of a control core: what issuing, retiring and stalling change, and what they leave. -/

namespace Sys2Proof.Machine

-- Each theorem in turn: side by side they would reserve more stacks than a check has memory for.
set_option Elab.async false

/-- From `s` to `t` nothing but one slot of a cluster, its status word and the cores' issue records may differ. -/
structure State.SlotFrame (s t : State) (site n : Nat) : Prop where
  slots : ∀ k m, ¬ (k = site ∧ m = n) → t.slot k m = s.slot k m
  clusters : ∀ k, k ≠ site → t.cl k = s.cl k
  slices : ∀ k, (t.cl k).slice = (s.cl k).slice
  mem : t.pkgMem = s.pkgMem ∧ t.poison = s.poison
  tile : t.tile = s.tile
  regs : ∀ o, o ≠ Reg.SLOT_STATUS site n → t.rd o = s.rd o

namespace State

variable {s t u : State} {site n : Nat}

namespace SlotFrame

theorem refl : s.SlotFrame s site n := ⟨fun _ _ _ => rfl, fun _ _ => rfl, fun _ => rfl, ⟨rfl, rfl⟩, rfl, fun _ _ => rfl⟩

theorem trans (h : s.SlotFrame t site n) (k : t.SlotFrame u site n) : s.SlotFrame u site n where
  slots a m hm := (k.slots a m hm).trans (h.slots a m hm)
  clusters a ha := (k.clusters a ha).trans (h.clusters a ha)
  slices a := (k.slices a).trans (h.slices a)
  mem := ⟨k.mem.1.trans h.mem.1, k.mem.2.trans h.mem.2⟩
  tile := k.tile.trans h.tile
  regs o ho := (k.regs o ho).trans (h.regs o ho)

theorem sameMem (h : s.SlotFrame t site n) : s.sameMem t := ⟨fun _ => by rw [h.mem.1], h.mem.2⟩

theorem onlySlot (h : s.SlotFrame t site n) : s.onlySlot t site n :=
  ⟨fun m hm => h.slots site m fun k => hm k.2, h.clusters, h.sameMem, h.tile⟩

theorem sameRegs (h : s.SlotFrame t site n) : s.sameRegs t (· = Reg.SLOT_STATUS site n) := h.regs

theorem sameSlices (h : s.SlotFrame t site n) : s.sameSlices t := fun k _ => by rw [h.slices k]

theorem modSlot (f : SlotSt → SlotSt) : s.SlotFrame (s.modSlot site n f) site n where
  slots k m h := by rw [slot_modSlot, if_neg h]
  clusters k h := by rw [State.modSlot, cl_modCl, if_neg h]
  slices k := by rw [State.modSlot, cl_modCl]; split <;> simp_all
  mem := ⟨rfl, rfl⟩
  tile := rfl
  regs _ _ := rfl

theorem setFld {f : Fld} (v : Nat) (hf : f.off = Reg.SLOT_STATUS site n) : s.SlotFrame (s.setFld f v) site n :=
  ⟨fun _ _ _ => rfl, fun _ _ => rfl, fun _ => rfl, ⟨rfl, rfl⟩, rfl, fun _ ho => rd_setFld_other _ _ (hf ▸ ho)⟩

theorem setSlotState (v : Nat) : s.SlotFrame (s.setSlotState site n v) site n := setFld v rfl

theorem showSlot (v : Nat) : s.SlotFrame (s.showSlot site n v) site n := setFld _ rfl

end SlotFrame

/-- A change of a cluster that keeps its slots and its slice. -/
theorem SlotFrame.modCl {f : Cluster → Cluster} (hs : (f (s.cl site)).slots = (s.cl site).slots)
    (hl : (f (s.cl site)).slice = (s.cl site).slice) : s.SlotFrame (s.modCl site f) site n where
  slots k m _ := by unfold State.slot; rw [cl_modCl]; split
                    · next h => rw [h, hs]
                    · rfl
  clusters k h := by rw [cl_modCl, if_neg h]
  slices k := by rw [cl_modCl]; split
                 · next h => rw [h, hl]
                 · rfl
  mem := ⟨rfl, rfl⟩
  tile := rfl
  regs _ _ := rfl

theorem slot_modCl {f : Cluster → Cluster} (hs : (f (s.cl site)).slots = (s.cl site).slots) (k m : Nat) :
    (s.modCl site f).slot k m = s.slot k m := by
  unfold State.slot
  rw [cl_modCl]
  split
  · next h => rw [h, hs]
  · rfl

namespace SlotFrame

theorem issue : s.SlotFrame (s.issue site n) site n := .modCl rfl rfl

theorem leave : s.SlotFrame (s.leave site n) site n := by
  unfold State.leave
  split
  · exact .modCl rfl rfl
  · exact .refl

theorem retire (pc : Nat) : s.SlotFrame (s.retire site n pc) site n := (modSlot _).trans (showSlot _)

theorem retireX (len rd : Nat) (v : DWord) : s.SlotFrame (s.retireX site n len rd v) site n := (modSlot _).trans (retire _)

theorem stall (w : Option StallOn) : s.SlotFrame (s.stall site n w) site n := (leave.trans (modSlot _)).trans (showSlot _)

end SlotFrame

@[simp] theorem slot_issue (k m : Nat) : (s.issue site n).slot k m = s.slot k m := slot_modCl rfl k m

@[simp] theorem slot_leave (k m : Nat) : (s.leave site n).slot k m = s.slot k m := by
  unfold State.leave
  split
  · exact slot_modCl rfl k m
  · rfl

@[simp] theorem slot_setFld (f : Fld) (v k m : Nat) : (s.setFld f v).slot k m = s.slot k m := rfl

@[simp] theorem slot_showSlot (v k m : Nat) : (s.showSlot site n v).slot k m = s.slot k m := rfl

@[simp] theorem slot_setSlotState (v k m : Nat) : (s.setSlotState site n v).slot k m = s.slot k m := rfl

@[simp] theorem slot_modSlot_same (f : SlotSt → SlotSt) : (s.modSlot site n f).slot site n = f (s.slot site n) := by
  rw [slot_modSlot, if_pos ⟨rfl, rfl⟩]

@[simp] theorem slot_retire (pc : Nat) : (s.retire site n pc).slot site n =
    { s.slot site n with pc := pc % 2 ^ 64, instret := (s.slot site n).instret + 1, stallOn := none } :=
  s.slot_modSlot_same _

@[simp] theorem slot_retireX (len rd : Nat) (v : DWord) : (s.retireX site n len rd v).slot site n =
    { (s.slot site n).setX rd v with pc := ((s.slot site n).pc + len) % 2 ^ 64, instret := (s.slot site n).instret + 1, stallOn := none } := by
  unfold State.retireX
  rw [slot_retire, slot_modSlot_same]
  unfold SlotSt.setX
  split <;> rfl

end State

/-! ## Registers of a slot -/

@[simp] theorem SlotSt.getX_zero (x : SlotSt) : x.getX 0 = 0 := rfl

theorem SlotSt.getX_setX (x : SlotSt) (r k : Nat) (v : DWord) : (x.setX r v).getX k = if k = r then (if r = 0 then 0 else v) else x.getX k := by
  unfold SlotSt.setX SlotSt.getX
  by_cases hk : k = 0
  · by_cases hr : r = 0 <;> simp_all
  · by_cases hr : r = 0
    · simp [hk, hr]
    · by_cases hkr : k = r
      · subst hkr; simp [hk]
      · simp [hk, hr, hkr, Store.get_putD_other _ _ _ hkr]

@[simp] theorem SlotSt.setX_y (x : SlotSt) (r : Nat) (v : DWord) : (x.setX r v).y = x.y := by
  unfold SlotSt.setX
  split <;> rfl

namespace State

variable {s t : State} {site n : Nat}

/-- A slot whose registers are those of before with one written holds the result that the word names. -/
theorem result_of_setX {w : Nat} {v : DWord} (hx : (t.slot site n).x = ((s.slot site n).setX (wRd w) v).x)
    (hy : (t.slot site n).y = (s.slot site n).y) : s.result t site n w v := by
  have hg : ∀ r, (t.slot site n).getX r = ((s.slot site n).setX (wRd w) v).getX r := fun r => by unfold SlotSt.getX; rw [hx]
  refine ⟨?_, rfl, fun r hr => ?_, hy⟩
  · rw [hg, SlotSt.getX_setX, if_pos rfl]
  · rw [hg, SlotSt.getX_setX, if_neg hr]

theorem retired_retireX (len rd : Nat) (v : DWord) : s.retired (s.retireX site n len rd v) site n len := by
  constructor <;> rw [slot_retireX]

theorem result_retireX (len w : Nat) (v : DWord) : s.result (s.retireX site n len (wRd w) v) site n w v :=
  result_of_setX (by rw [slot_retireX]) (by rw [slot_retireX]; exact SlotSt.setX_y _ _ _)

/-- What an issued instruction does that retires with a result. -/
theorem issue_retireX (len w : Nat) (v : DWord) : let t := (s.issue site n).retireX site n len (wRd w) v
    s.retired t site n len ∧ s.result t site n w v ∧ s.onlySlot t site n ∧ s.sameRegs t (· = Reg.SLOT_STATUS site n) := by
  have hf : s.SlotFrame ((s.issue site n).retireX site n len (wRd w) v) site n := SlotFrame.issue.trans (.retireX _ _ _)
  have hr := (s.issue site n).retired_retireX (site := site) (n := n) len (wRd w) v
  have hv := (s.issue site n).result_retireX (site := site) (n := n) len w v
  unfold State.retired at hr
  unfold State.result at hv
  rw [slot_issue] at hr hv
  exact ⟨hr, hv, hf.onlySlot, hf.sameRegs⟩

end State

end Sys2Proof.Machine
end
section
/-! O19: the integer instructions. -/

namespace Sys2Proof.Machine

-- Each theorem in turn: side by side they would reserve more stacks than a check has memory for.
set_option Elab.async false

/-! ## Arithmetic of the instruction tables -/

theorem alu64_of_opTable (a b : DWord) : ∀ p ∈ opTable, alu64 false p.1 p.2.1 a b = some (p.2.2 a b) := by
  have hu : rvDivu a b = if b = 0 then BitVec.allOnes 64 else BitVec.ofNat 64 (a.toNat / b.toNat) := by
    unfold rvDivu; split
    · rfl
    · exact BitVec.eq_of_toNat_eq (by simp [Nat.mod_eq_of_lt (Nat.lt_of_le_of_lt (Nat.div_le_self _ _) a.isLt)])
  have hm : rvRemu a b = if b = 0 then a else BitVec.ofNat 64 (a.toNat % b.toNat) := by
    unfold rvRemu; split
    · rfl
    · exact BitVec.eq_of_toNat_eq (by simp [Nat.mod_eq_of_lt (Nat.lt_of_le_of_lt (Nat.mod_le _ _) a.isLt)])
  unfold opTable
  simp [alu64, hu, hm, rvDiv, rvRem, BitVec.slt_eq_decide, BitVec.ult_eq_decide]

theorem alu32_of_op32Table (a b : DWord) :
    ∀ p ∈ op32Table, alu32 false p.1 p.2.1 a b = some ((p.2.2 (a.setWidth 32) (b.setWidth 32)).signExtend 64) := by
  have hs : (b.setWidth 32).toNat % 32 = b.toNat % 32 := by simp
  have ha : (a + b).setWidth 32 = a.setWidth 32 + b.setWidth 32 := BitVec.setWidth_add _ _ (by decide)
  have hm : (a * b).setWidth 32 = a.setWidth 32 * b.setWidth 32 := BitVec.setWidth_mul _ _ (by decide)
  have hb : (a - b).setWidth 32 = a.setWidth 32 - b.setWidth 32 := 
    BitVec.eq_of_toNat_eq (by simp only [BitVec.toNat_setWidth, BitVec.toNat_sub]; omega)
  have hd : ∀ x y : Word, rvDivu x y = if y = 0 then BitVec.allOnes 32 else BitVec.ofNat 32 (x.toNat / y.toNat) := fun x y => by
    unfold rvDivu; split
    · rfl
    · exact BitVec.eq_of_toNat_eq (by simp [Nat.mod_eq_of_lt (Nat.lt_of_le_of_lt (Nat.div_le_self _ _) x.isLt)])
  have hr : ∀ x y : Word, rvRemu x y = if y = 0 then x else BitVec.ofNat 32 (x.toNat % y.toNat) := fun x y => by
    unfold rvRemu; split
    · rfl
    · exact BitVec.eq_of_toNat_eq (by simp [Nat.mod_eq_of_lt (Nat.lt_of_le_of_lt (Nat.mod_le _ _) x.isLt)])
  simp only [op32Table, List.forall_mem_cons]
  rw [← ha, ← hb, ← hm, hs, ← hd, ← hr]
  exact ⟨rfl, rfl, rfl, rfl, rfl, rfl, rfl, rfl, rfl, rfl, fun _ h => absurd h List.not_mem_nil⟩

theorem alu64_of_immTable (a b : DWord) : ∀ p ∈ immTable, p.1 ≠ 1 ∧ p.1 ≠ 5 ∧ alu64 true p.1 0 a b = some (p.2 a b) := by
  unfold immTable
  simp [alu64, BitVec.slt_eq_decide, BitVec.ult_eq_decide]

theorem alu64_of_shTable (a : DWord) (f7 k : Nat) (hk : k < 64) :
    ∀ p ∈ shTable, f7 / 2 = p.2.1 → (p.1 = 1 ∨ p.1 = 5) ∧ alu64 true p.1 f7 a (BitVec.ofNat 64 k) = some (p.2.2 a k) := by
  have h : k % 2 ^ 64 = k := Nat.mod_eq_of_lt (by omega)
  unfold shTable
  simp +contextual [alu64, Nat.mod_eq_of_lt hk]

theorem alu32_of_sh32Table (a : DWord) (k : Nat) (hk : k < 32) :
    ∀ p ∈ sh32Table, (p.1 = 1 ∨ p.1 = 5) ∧ alu32 true p.1 p.2.1 a (BitVec.ofNat 64 k) = some ((p.2.2 (a.setWidth 32) k).signExtend 64) := by
  have h : (BitVec.ofNat 64 k).toNat % 32 = k := by rw [BitVec.toNat_ofNat]; omega
  simp only [sh32Table, List.forall_mem_cons]
  refine ⟨⟨.inl trivial, ?_⟩, ⟨.inr trivial, ?_⟩, ⟨.inr trivial, ?_⟩, fun _ h => absurd h List.not_mem_nil⟩
  · exact congrArg (fun j => some ((a.setWidth 32 <<< j).signExtend 64)) h
  · exact congrArg (fun j => some ((a.setWidth 32 >>> j).signExtend 64)) h
  · exact congrArg (fun j => some (((a.setWidth 32).sshiftRight j).signExtend 64)) h

theorem branch_of_brTable (a b : DWord) : ∀ p ∈ brTable, branch p.1 a b = some (p.2 a b) := by
  have hs : decide (b.toInt ≤ a.toInt) = !a.slt b := by rw [BitVec.slt_eq_decide, ← decide_not]; simp
  have hu : decide (b.toNat ≤ a.toNat) = !a.ult b := by rw [BitVec.ult_eq_decide, ← decide_not]; simp
  simp only [brTable, List.forall_mem_cons]
  rw [hs, hu]
  exact ⟨rfl, rfl, rfl, rfl, rfl, rfl, fun _ h => absurd h List.not_mem_nil⟩
/-! ## Words from fields, and the fields of words -/

theorem sext_emod {off : Int} {w : Nat} (hw : 0 < w) (h0 : -(2 ^ (w - 1)) ≤ off) (h1 : off < 2 ^ (w - 1)) :
    sext (off % 2 ^ w).toNat w = off := by
  obtain ⟨k, rfl⟩ : ∃ k, w = k + 1 := ⟨w - 1, by omega⟩
  simp only [Nat.add_sub_cancel] at *
  have hp : (2 : Int) ^ (k + 1) = 2 * 2 ^ k := by rw [pow_succ]; omega
  have hn : (2 : Nat) ^ (k + 1) = 2 * 2 ^ k := by rw [pow_succ]; omega
  have hc : ((2 ^ k : Nat) : Int) = (2 : Int) ^ k := by push_cast; rfl
  have hpos : 0 < 2 ^ k := Nat.two_pow_pos k
  unfold sext
  simp only [Nat.add_sub_cancel, hn, hp]
  generalize (2 : Int) ^ k = a at *
  generalize 2 ^ k = b at *
  subst hc
  have hm : off % (2 * (b : Int)) = if off < 0 then off + 2 * b else off := by
    split
    · rw [← Int.add_emod_right, Int.emod_eq_of_lt (by omega) (by omega)]
    · exact Int.emod_eq_of_lt (by omega) (by omega)
  rw [hm]
  have hlt : (if off < 0 then off + 2 * (b : Int) else off).toNat < 2 * b := by split <;> omega
  rw [Nat.mod_eq_of_lt hlt]
  split <;> split <;> omega

/-- The fields of a branch's word. -/
theorem encB_fields {f3 rs1 rs2 : Nat} {off : Int} (h3 : f3 < 8) (h1 : rs1 < 32) (h2 : rs2 < 32) (h : off % 2 = 0) :
    let w := encB f3 rs1 rs2 off
    w % 128 = 0x63 ∧ bits w 12 3 = f3 ∧ wRs1 w = rs1 ∧ wRs2 w = rs2
      ∧ bits w 8 4 * 2 + bits w 25 6 * 32 + bits w 7 1 * 2048 + bits w 31 1 * 4096 = (off % 2 ^ 13).toNat := by
  have hi : (off % 2 ^ 13).toNat < 2 ^ 13 ∧ (off % 2 ^ 13).toNat % 2 = 0 := by omega
  unfold encB wRs1 wRs2 bits
  generalize (off % 2 ^ 13).toNat = i at hi
  have hs : i / 2 ^ 1 % 2 ^ 4 * 2 + i / 2 ^ 5 % 2 ^ 6 * 32 + i / 2 ^ 11 % 2 ^ 1 * 2048 + i / 2 ^ 12 % 2 ^ 1 * 4096 = i := by omega
  have hp : i / 2 ^ 1 % 2 ^ 4 < 16 ∧ i / 2 ^ 5 % 2 ^ 6 < 64 ∧ i / 2 ^ 11 % 2 ^ 1 < 2 ∧ i / 2 ^ 12 % 2 ^ 1 < 2 := by omega
  simp only [Nat.reducePow]
  simp only [Nat.reducePow] at hs hp
  generalize i / 2 % 16 = a at *
  generalize i / 32 % 64 = b at *
  generalize i / 2048 % 2 = c at *
  generalize i / 4096 % 2 = d at *
  generalize hw : 99 + c * 128 + a * 256 + f3 * 4096 + rs1 * 32768 + rs2 * 1048576 + b * 33554432 + d * 2147483648 = w
  have h7 : w / 128 = c + 2 * (a + 16 * (f3 + 8 * (rs1 + 32 * (rs2 + 32 * (b + 64 * d))))) := by omega
  have h8 : w / 256 = a + 16 * (f3 + 8 * (rs1 + 32 * (rs2 + 32 * (b + 64 * d)))) := by omega
  have h12 : w / 4096 = f3 + 8 * (rs1 + 32 * (rs2 + 32 * (b + 64 * d))) := by omega
  have h15 : w / 32768 = rs1 + 32 * (rs2 + 32 * (b + 64 * d)) := by omega
  have h20 : w / 1048576 = rs2 + 32 * (b + 64 * d) := by omega
  have h25 : w / 33554432 = b + 64 * d := by omega
  have h31 : w / 2147483648 = d := by omega
  rw [h7, h8, h12, h15, h20, h25, h31, show w % 128 = 0x63 by omega]
  clear h7 h8 h12 h15 h20 h25 h31 hw
  simp only [Nat.add_mul_mod_self_left, true_and]
  omega

/-- The fields of a jump's word. -/
theorem encJ_fields {rd : Nat} {off : Int} (hr : rd < 32) (h : off % 2 = 0) :
    let w := encJ rd off
    w % 128 = 0x6F ∧ wRd w = rd
      ∧ bits w 21 10 * 2 + bits w 20 1 * 2048 + bits w 12 8 * 4096 + bits w 31 1 * 2 ^ 20 = (off % 2 ^ 21).toNat := by
  have hi : (off % 2 ^ 21).toNat < 2 ^ 21 ∧ (off % 2 ^ 21).toNat % 2 = 0 := by omega
  unfold encJ wRd bits
  generalize (off % 2 ^ 21).toNat = i at hi
  have hs : i / 2 ^ 1 % 2 ^ 10 * 2 + i / 2 ^ 11 % 2 ^ 1 * 2048 + i / 2 ^ 12 % 2 ^ 8 * 4096 + i / 2 ^ 20 % 2 ^ 1 * 2 ^ 20 = i := by omega
  have hp : i / 2 ^ 1 % 2 ^ 10 < 1024 ∧ i / 2 ^ 11 % 2 ^ 1 < 2 ∧ i / 2 ^ 12 % 2 ^ 8 < 256 ∧ i / 2 ^ 20 % 2 ^ 1 < 2 := by omega
  simp only [Nat.reducePow]
  simp only [Nat.reducePow] at hs hp
  generalize i / 2 % 1024 = a at *
  generalize i / 2048 % 2 = b at *
  generalize i / 4096 % 256 = c at *
  generalize i / 1048576 % 2 = d at *
  generalize hw : 111 + rd * 128 + c * 4096 + b * 1048576 + a * 2097152 + d * 2147483648 = w
  have h7 : w / 128 = rd + 32 * (c + 256 * (b + 2 * (a + 1024 * d))) := by omega
  have h12 : w / 4096 = c + 256 * (b + 2 * (a + 1024 * d)) := by omega
  have h20 : w / 1048576 = b + 2 * (a + 1024 * d) := by omega
  have h21 : w / 2097152 = a + 1024 * d := by omega
  have h31 : w / 2147483648 = d := by omega
  rw [h7, h12, h20, h21, h31, show w % 128 = 0x6F by omega]
  clear h7 h12 h20 h21 h31 hw
  simp only [Nat.add_mul_mod_self_left, true_and]
  omega

/-- The fields of a store's word. -/
theorem encS_fields {f3 rs1 rs2 : Nat} {off : Int} (h3 : f3 < 8) (h1 : rs1 < 32) (h2 : rs2 < 32) :
    let w := encS 0x23 f3 rs1 rs2 off
    w % 128 = 0x23 ∧ bits w 12 3 = f3 ∧ wRs1 w = rs1 ∧ wRs2 w = rs2 ∧ bits w 7 5 + bits w 25 7 * 32 = (off % 2 ^ 12).toNat := by
  have hi : (off % 2 ^ 12).toNat < 2 ^ 12 := by omega
  unfold encS wRs1 wRs2 bits
  generalize (off % 2 ^ 12).toNat = i at hi
  simp only [Nat.reducePow]
  generalize hl : i % 32 = a
  generalize hh : i / 32 = b
  generalize hw : 35 + a * 128 + f3 * 4096 + rs1 * 32768 + rs2 * 1048576 + b * 33554432 = w
  have h7 : w / 128 = a + 32 * (f3 + 8 * (rs1 + 32 * (rs2 + 32 * b))) := by omega
  have h12 : w / 4096 = f3 + 8 * (rs1 + 32 * (rs2 + 32 * b)) := by omega
  have h15 : w / 32768 = rs1 + 32 * (rs2 + 32 * b) := by omega
  have h20 : w / 1048576 = rs2 + 32 * b := by omega
  have h25 : w / 33554432 = b := by omega
  rw [h7, h12, h15, h20, h25, show w % 128 = 0x23 by omega]
  clear h7 h12 h15 h20 h25 hw
  simp only [Nat.add_mul_mod_self_left, true_and]
  omega

theorem toNat_ofNat_add_ofInt (pc : Nat) (off : Int) : ((BitVec.ofNat 64 pc + BitVec.ofInt 64 off).toNat : Int) = (pc + off) % 2 ^ 64 := by
  rw [BitVec.toNat_add, BitVec.toNat_ofNat, BitVec.toNat_ofInt]
  omega

theorem toNat_clearBit0 (x : DWord) : (x &&& ~~~1#64).toNat = x.toNat / 2 * 2 := by
  have h : x &&& ~~~1#64 = (x >>> 1) <<< 1 := by
    apply BitVec.eq_of_getLsbD_eq
    intro i hi
    cases i with
    | zero => simp
    | succ i => 
      rw [BitVec.getLsbD_and, BitVec.getLsbD_not, BitVec.getLsbD_shiftLeft, BitVec.getLsbD_ushiftRight, BitVec.getLsbD_one]
      simp [hi, Nat.add_comm]
  rw [h, BitVec.toNat_shiftLeft, BitVec.toNat_ushiftRight]
  simp only [Nat.shiftRight_eq_div_pow, Nat.shiftLeft_eq]
  omega

theorem barza_eq_none {w k : Nat} (h : w % 128 = k) (hk : k ≠ 0x0B ∧ k ≠ 0x2B ∧ k ≠ 0x5B ∧ k ≠ 0x7B) : barza w = none := by
  obtain ⟨h1, h2, h3, h4⟩ := hk
  unfold barza
  split <;> first | omega | rfl

end Sys2Proof.Machine
end
section
/-! The standard instructions of a slot, opcode by opcode. -/

namespace Sys2Proof.Machine

-- Each theorem in turn: side by side they would reserve more stacks than a check has memory for.
set_option Elab.async false

namespace State

variable {s : State} {site : Site} {n : SlotId} {w len : Nat}

@[simp] theorem x_issue (k m r a b : Nat) : (s.issue a b).x k m r = s.x k m r := by
  unfold State.x
  rw [slot_issue]

/-- A slot that fetches a standard word issues and executes it. -/
theorem exec_rv64imac_of_fetches (hf : s.fetches site n w len) (hb : Machine.barza w = none) :
    exec (.rv64imac site n) s = .next ((s.issue site n).rvExec site n w len) := by
  obtain ⟨hr, ⟨rfl, h⟩ | ⟨rfl, c, h, hc⟩⟩ := hf
  · simp [exec, execRv64imac, hr, h, hb]
  · simp [exec, execRv64imac, hr, h, hc]

variable {k m : Nat} {v : DWord}

theorem rvExec_op (h : w % 128 = 0x33) (hv : alu64 false (w / 2 ^ 12 % 8) (wF7 w) (s.x k m (wRs1 w)) (s.x k m (wRs2 w)) = some v) :
    s.rvExec k m w len = s.retireX k m len (wRd w) v := by
  have hv' : alu64 false (bits w 12 3) (bits w 25 7) ((s.slot k m).getX (bits w 15 5)) ((s.slot k m).getX (bits w 20 5)) = some v := hv
  simp only [State.rvExec, h, hv']
  rfl

theorem rvExec_op32 (h : w % 128 = 0x3B) (hv : alu32 false (w / 2 ^ 12 % 8) (wF7 w) (s.x k m (wRs1 w)) (s.x k m (wRs2 w)) = some v) :
    s.rvExec k m w len = s.retireX k m len (wRd w) v := by
  have hv' : alu32 false (bits w 12 3) (bits w 25 7) ((s.slot k m).getX (bits w 15 5)) ((s.slot k m).getX (bits w 20 5)) = some v := hv
  simp only [State.rvExec, h, hv']
  rfl

theorem rvExec_imm (h : w % 128 = 0x13) (h1 : w / 2 ^ 12 % 8 ≠ 1) (h5 : w / 2 ^ 12 % 8 ≠ 5)
    (hv : alu64 true (w / 2 ^ 12 % 8) 0 (s.x k m (wRs1 w)) (wImm w) = some v) :
    s.rvExec k m w len = s.retireX k m len (wRd w) v := by
  have hs : ¬ (bits w 12 3 = 1 ∨ bits w 12 3 = 5) := not_or.mpr ⟨h1, h5⟩
  have hv' : alu64 true (bits w 12 3) 0 ((s.slot k m).getX (bits w 15 5)) (BitVec.ofInt 64 (sext (bits w 20 12) 12)) = some v := by
    rw [← hv]
    unfold wImm sext bits
    simp only [Nat.mod_mod]
    rfl
  simp only [State.rvExec, h, if_neg hs, hv']
  rfl

theorem rvExec_shift (h : w % 128 = 0x13) (hs : w / 2 ^ 12 % 8 = 1 ∨ w / 2 ^ 12 % 8 = 5)
    (hv : alu64 true (w / 2 ^ 12 % 8) (wF7 w) (s.x k m (wRs1 w)) (BitVec.ofNat 64 (w / 2 ^ 20 % 64)) = some v) :
    s.rvExec k m w len = s.retireX k m len (wRd w) v := by
  have hs' : bits w 12 3 = 1 ∨ bits w 12 3 = 5 := hs
  have hv' : alu64 true (bits w 12 3) (bits w 25 7) ((s.slot k m).getX (bits w 15 5)) (BitVec.ofNat 64 (bits w 20 6)) = some v := hv
  simp only [State.rvExec, h, if_pos hs', hv']
  rfl

theorem rvExec_addiw (h : w % 128 = 0x1B) (h3 : w / 2 ^ 12 % 8 = 0) :
    s.rvExec k m w len = s.retireX k m len (wRd w) (((s.x k m (wRs1 w) + wImm w).setWidth 32).signExtend 64) := by
  have h3' : bits w 12 3 = 0 := h3
  have hi : BitVec.ofInt 64 (sext (bits w 20 12) 12) = wImm w := by
    unfold wImm sext bits
    simp only [Nat.mod_mod]
  simp only [State.rvExec, h, h3', hi]
  rfl

theorem rvExec_shift32 (h : w % 128 = 0x1B) (hs : w / 2 ^ 12 % 8 = 1 ∨ w / 2 ^ 12 % 8 = 5)
    (hv : alu32 true (w / 2 ^ 12 % 8) (wF7 w) (s.x k m (wRs1 w)) (BitVec.ofNat 64 (wRs2 w)) = some v) :
    s.rvExec k m w len = s.retireX k m len (wRd w) v := by
  have hs' : bits w 12 3 = 1 ∨ bits w 12 3 = 5 := hs
  have hv' : alu32 true (bits w 12 3) (bits w 25 7) ((s.slot k m).getX (bits w 15 5)) (BitVec.ofNat 64 (bits w 20 5)) = some v := hv
  simp only [State.rvExec, h, if_pos hs', hv']
  rfl

theorem rvExec_upper (h : w % 128 = 0x37 ∨ w % 128 = 0x17) :
    s.rvExec k m w len = s.retireX k m len (wRd w) ((if w % 128 = 0x17 then BitVec.ofNat 64 (s.slot k m).pc else 0)
      + BitVec.ofInt 64 (sext (w / 2 ^ 12 % 2 ^ 20 * 2 ^ 12) 32)) := by
  obtain h | h := h
  · simp only [State.rvExec, h]
    rw [if_neg (by decide), zero_add]
    rfl
  · simp only [State.rvExec, h]
    rfl

theorem rvExec_branch {taken : Bool} (h : w % 128 = 0x63) (hv : branch (bits w 12 3) (s.x k m (wRs1 w)) (s.x k m (wRs2 w)) = some taken)
    {off : Int} (ho : bits w 8 4 * 2 + bits w 25 6 * 32 + bits w 7 1 * 2048 + bits w 31 1 * 4096 = (off % 2 ^ 13).toNat)
    (h0 : -4096 ≤ off) (h1 : off < 4096) :
    s.rvExec k m w len = s.retire k m (if taken then (BitVec.ofNat 64 (s.slot k m).pc + BitVec.ofInt 64 off).toNat else (s.slot k m).pc + len) := by
  have hv' : branch (bits w 12 3) ((s.slot k m).getX (bits w 15 5)) ((s.slot k m).getX (bits w 20 5)) = some taken := hv
  have hx : sext (off % 2 ^ 13).toNat 13 = off := sext_emod (by decide) h0 h1
  simp only [State.rvExec, h, hv', ho, hx]

theorem rvExec_jal (h : w % 128 = 0x6F)
    {off : Int} (ho : bits w 21 10 * 2 + bits w 20 1 * 2048 + bits w 12 8 * 4096 + bits w 31 1 * 2 ^ 20 = (off % 2 ^ 21).toNat)
    (h0 : -(2 ^ 20) ≤ off) (h1 : off < 2 ^ 20) :
    s.rvExec k m w len = (s.modSlot k m fun x => x.setX (wRd w) (BitVec.ofNat 64 (s.slot k m).pc + BitVec.ofNat 64 len)).retire k m
      (BitVec.ofNat 64 (s.slot k m).pc + BitVec.ofInt 64 off).toNat := by
  have hx : sext (off % 2 ^ 21).toNat 21 = off := sext_emod (by decide) h0 h1
  simp only [State.rvExec, h, ho, hx]
  rfl

theorem rvExec_jalr (h : opcodeIs w 0x67 0) :
    s.rvExec k m w len = (s.modSlot k m fun x => x.setX (wRd w) (BitVec.ofNat 64 (s.slot k m).pc + BitVec.ofNat 64 len)).retire k m
      ((s.x k m (wRs1 w) + wImm w).toNat / 2 * 2) := by
  have h3 : bits w 12 3 = 0 := h.2
  have hi : BitVec.ofInt 64 (sext (bits w 20 12) 12) = wImm w := by
    unfold wImm sext bits
    simp only [Nat.mod_mod]
  simp only [State.rvExec, h.1, h3, if_true, hi]
  rw [toNat_clearBit0]
  rfl

theorem rvExec_fence (h : opcodeIs w 0x0F 0) : s.rvExec k m w len = s.retire k m ((s.slot k m).pc + len) := by
  have h3 : bits w 12 3 = 0 := h.2
  simp only [State.rvExec, h.1, h3, if_true]

theorem rvExec_counter {j : Nat} (h : w % 128 = 0x73) (h3 : w / 2 ^ 12 % 8 = 2 ∨ w / 2 ^ 12 % 8 = 3 ∨ w / 2 ^ 12 % 8 = 6 ∨ w / 2 ^ 12 % 8 = 7)
    (h1 : wRs1 w = 0) (hj : j < 3) (hc : w / 2 ^ 20 % 2 ^ 12 = 0xC00 + j) :
    s.rvExec k m w len = s.retireX k m len (wRd w)
      (BitVec.ofNat 64 (if j = 0 then s.clk.aclk else if j = 1 then s.rd64 Reg.TIME_NOW else (s.slot k m).instret)) := by
  have hr : ((bits w 12 3 == 2 || bits w 12 3 == 3 || bits w 12 3 == 6 || bits w 12 3 == 7) && bits w 15 5 == 0) = true := by
    have h1' : bits w 15 5 = 0 := h1
    have h3' : bits w 12 3 = 2 ∨ bits w 12 3 = 3 ∨ bits w 12 3 = 6 ∨ bits w 12 3 = 7 := h3
    simp [h1', h3', or_assoc]
  have hc' : bits w 20 12 = 0xC00 + j := hc
  have hn : w ≠ 0x73 ∧ w ≠ 0x100073 := by omega
  simp only [State.rvExec, h, State.rvSystem, hr, hc', if_neg hn.1, if_neg hn.2, Bool.true_and]
  match j, hj with
  | 0, _ => rfl
  | 1, _ => rfl
  | 2, _ => rfl

/-- The rule for an instruction that retires with a result. -/
theorem answers_retireX {op : Nat} (hf : s.fetches site n w len) (ho : w % 128 = op)
    (hb : op ≠ 0x0B ∧ op ≠ 0x2B ∧ op ≠ 0x5B ∧ op ≠ 0x7B)
    (hv : (s.issue site n).rvExec site n w len = (s.issue site n).retireX site n len (wRd w) v) :
    Answers (.rv64imac site n) s fun t => s.retired t site n len ∧ s.result t site n w v ∧ s.onlySlot t site n
      ∧ s.sameRegs t (· = Reg.SLOT_STATUS site n) := by
  refine ⟨_, exec_rv64imac_of_fetches hf (barza_eq_none ho hb), ?_⟩
  rw [hv]
  exact issue_retireX len w v

/-- The rule for an instruction that writes the address of the next one and goes elsewhere. -/
theorem issue_jump (len pc w : Nat) :
    let t := ((s.issue site n).modSlot site n fun x =>
      x.setX (wRd w) (BitVec.ofNat 64 (s.slot site n).pc + BitVec.ofNat 64 len)).retire site n pc
    (t.slot site n).pc = pc % 2 ^ 64 ∧ s.result t site n w (BitVec.ofNat 64 ((s.slot site n).pc + len)) ∧ s.onlySlot t site n := by
  have hf : s.SlotFrame (((s.issue site n).modSlot site n fun x =>
      x.setX (wRd w) (BitVec.ofNat 64 (s.slot site n).pc + BitVec.ofNat 64 len)).retire site n pc) site n :=
    (SlotFrame.issue.trans (.modSlot _)).trans (.retire _)
  refine ⟨by rw [slot_retire], result_of_setX ?_ ?_, hf.onlySlot⟩
  · rw [slot_retire, slot_modSlot_same, slot_issue, BitVec.ofNat_add]
  · rw [slot_retire, slot_modSlot_same, slot_issue, SlotSt.setX_y]

end State

/-- Settles O19: each table names what `rvExec` computes, and every instruction retires by the same two rules. -/
theorem integerInstructionsExecute : Obligations.IntegerInstructionsExecute := by
  unfold Obligations.IntegerInstructionsExecute
  refine ⟨?_, ?_, ?_, ?_, ?_, ?_, ?_, ?_, ?_, ?_, ?_, ?_⟩
  · rintro s site n w len f3 f7 f hf ho rfl rfl ht
    refine State.answers_retireX hf ho (by decide) (State.rvExec_op ho ?_)
    simpa only [State.x_issue] using alu64_of_opTable _ _ _ ht
  · rintro s site n w len f3 f7 f hf ho rfl rfl ht
    refine State.answers_retireX hf ho (by decide) (State.rvExec_op32 ho ?_)
    simpa only [State.x_issue] using alu32_of_op32Table _ _ _ ht
  · rintro s site n w len f3 f hf ho rfl ht
    obtain ⟨h1, h5, hv⟩ := alu64_of_immTable (s.x site n (wRs1 w)) (wImm w) _ ht
    refine State.answers_retireX hf ho (by decide) (State.rvExec_imm ho h1 h5 ?_)
    simpa only [State.x_issue] using hv
  · rintro s site n w len f3 top f hf ho rfl htop ht
    have h7 : wF7 w / 2 = top := by rw [← htop]; unfold wF7; omega
    obtain ⟨hs, hv⟩ := alu64_of_shTable (s.x site n (wRs1 w)) (wF7 w) (w / 2 ^ 20 % 64) (Nat.mod_lt _ (by decide)) _ ht h7
    refine State.answers_retireX hf ho (by decide) (State.rvExec_shift ho hs ?_)
    simpa only [State.x_issue] using hv
  · intro s site n w len hf ho h3
    refine State.answers_retireX hf ho (by decide) ?_
    rw [State.rvExec_addiw ho h3, State.x_issue]
  · rintro s site n w len f3 f7 f hf ho rfl rfl ht
    obtain ⟨hs, hv⟩ := alu32_of_sh32Table (s.x site n (wRs1 w)) (wRs2 w) (Nat.mod_lt _ (by decide)) _ ht
    refine State.answers_retireX hf ho (by decide) (State.rvExec_shift32 ho hs ?_)
    simpa only [State.x_issue] using hv
  · intro s site n w len hf ho
    have hv := State.rvExec_upper (s := s.issue site n) (k := site) (m := n) (len := len) ho
    rw [State.slot_issue] at hv
    obtain ho | ho := ho
    · exact State.answers_retireX hf ho (by decide) hv
    · exact State.answers_retireX hf ho (by decide) hv
  · intro s site n len f3 rs1 rs2 off f h1 h2 hlo hhi heven ht hf hpc
    have hb := branch_of_brTable (s.x site n rs1) (s.x site n rs2) _ ht
    have h3 : f3 < 8 := by
      by_contra hge
      have : branch f3 (s.x site n rs1) (s.x site n rs2) = none := by unfold branch; split <;> first | omega | rfl
      rw [this] at hb
      cases hb
    obtain ⟨ho, hf3, hr1, hr2, himm⟩ := encB_fields (off := off) h3 h1 h2 heven
    have hv := State.rvExec_branch (s := s.issue site n) (k := site) (m := n) (len := len) ho
      (by rw [hf3, hr1, hr2, State.x_issue, State.x_issue]; exact hb) himm hlo hhi
    refine ⟨_, State.exec_rv64imac_of_fetches hf (barza_eq_none ho (by decide)), ?_⟩
    rw [hv]
    dsimp only
    rw [State.slot_retire, State.slot_issue]
    refine ⟨rfl, (State.SlotFrame.issue.trans (.retire _)).onlySlot, ?_⟩
    split
    · have := toNat_ofNat_add_ofInt (s.slot site n).pc off
      dsimp only
      omega
    · dsimp only
      omega
  · intro s site n len rd off hrd hlo hhi heven hf hpc
    obtain ⟨ho, hd, himm⟩ := encJ_fields (off := off) hrd heven
    have hv := State.rvExec_jal (s := s.issue site n) (k := site) (m := n) (len := len) ho himm hlo hhi
    rw [State.slot_issue] at hv
    obtain ⟨hp, hr, ho'⟩ := State.issue_jump (s := s) (site := site) (n := n) len
      (BitVec.ofNat 64 (s.slot site n).pc + BitVec.ofInt 64 off).toNat (encJ rd off)
    refine ⟨_, State.exec_rv64imac_of_fetches hf (barza_eq_none ho (by decide)), ?_⟩
    rw [hv]
    refine ⟨?_, ?_, ho'⟩
    · rw [hp]
      have := toNat_ofNat_add_ofInt (s.slot site n).pc off
      omega
    · have hx := hr.1
      simp only [hd] at hx ⊢
      exact hx
  · intro s site n w len hf ho
    have hv := State.rvExec_jalr (s := s.issue site n) (k := site) (m := n) (len := len) ho
    rw [State.slot_issue, State.x_issue] at hv
    obtain ⟨hp, hr, ho'⟩ := State.issue_jump (s := s) (site := site) (n := n) len
      ((s.x site n (wRs1 w) + wImm w).toNat / 2 * 2) w
    refine ⟨_, State.exec_rv64imac_of_fetches hf (barza_eq_none ho.1 (by decide)), ?_⟩
    rw [hv]
    refine ⟨?_, hr, ho'⟩
    rw [hp]
    exact Nat.mod_eq_of_lt (by omega)
  · intro s site n w len hf ho
    have hfr := State.SlotFrame.issue.trans (.retire ((s.slot site n).pc + len)) (s := s) (site := site) (n := n)
    refine ⟨_, State.exec_rv64imac_of_fetches hf (barza_eq_none ho.1 (by decide)), ?_⟩
    rw [State.rvExec_fence ho, State.slot_issue]
    refine ⟨⟨?_, ?_⟩, ?_, hfr.onlySlot, hfr.sameSlices, hfr.sameRegs⟩ <;> rw [State.slot_retire, State.slot_issue]
  · intro s site n w len k hf ho h3 h1 hk hc
    have hv := State.rvExec_counter (s := s.issue site n) (k := site) (m := n) (len := len) ho h3 h1 hk hc
    rw [State.slot_issue] at hv
    exact State.answers_retireX hf ho (by decide) hv

end Sys2Proof.Machine
end

section
/-! A slice that reads without error while one of its banks waits for its self-test (R337): every access of the bank stalls. -/

namespace Sys2Proof.Machine

-- Each theorem in turn: side by side they would reserve more stacks than a check has memory for.
set_option Elab.async false

/-- A bank error of site 1 whose block has been discarded: bank 0 is under test. -/
def bankUnderTest : PErr :=
  { cls := 0x01, site := some 1, unit := .bank 1 0, source := 0, beat := 0, step := 0, attempt := 0, level := 0, ready := true }

/-- LW x1, 0(x0). -/
def loadWord0 : Nat := 0x2083

/-- A running tile whose slot 0 of site 1 is at `loadWord0`; bank 0 of the site is under test for an error met before. -/
def loadFromTestedBank : State :=
  let s := (State.reset.setFld Reg.TILE_STATE_STATE tsRunning).setSlotState 1 0 slRun
  let s := s.modSlot 1 0 fun x => { x with buf := leBytes 4 loadWord0, blk := { id := 1 } }
  { s with tile := { s.tile with errs := [bankUnderTest] } }

/-- The premises of the clause on loads. -/
theorem loadFromTestedBank_fetches : loadFromTestedBank.fetches (1 : Site) (0 : SlotId) loadWord0 4 ∧ opcodeIs loadWord0 0x03 2
    ∧ loadFromTestedBank.clean (1 : Site) ∧ (loadFromTestedBank.x (1 : Site) (0 : SlotId) (wRs1 loadWord0) + wImm loadWord0).toNat = 0 := by
  refine ⟨⟨?_, .inl ⟨rfl, ?_⟩⟩, ?_, ⟨?_, ?_, ?_⟩, ?_⟩ <;> decide +kernel

/-- The load stalls until the test ends. -/
theorem instret_loadFromTestedBank : ((loadFromTestedBank.after (.rv64imac 1 0)).slot (1 : Site) (0 : SlotId)).instret = 0 := by
  decide +kernel

/-- Refutes O20, in its first clause: no premise excludes a self-test of the bank that the load reads, and meanwhile the load stalls
(`State.waking`) and does not retire. -/
theorem not_memoryInstructionsAndTraps : ¬ Obligations.MemoryInstructionsAndTraps := by
  unfold Obligations.MemoryInstructionsAndTraps
  rintro ⟨hload, -⟩
  obtain ⟨hf, ho, hc, ha⟩ := loadFromTestedBank_fetches
  obtain ⟨⟨-, hretired⟩, -⟩ := (hload loadFromTestedBank 1 0 loadWord0 4 2 hf ho (by decide) hc (by rw [ha]; decide) (by rw [ha]; decide)).after
  rw [instret_loadFromTestedBank] at hretired
  cases hretired

end Sys2Proof.Machine
end

section
/-! A wait that is met while the synchronisation unit of its cluster waits for its self-test (R337): it ends once the test has. -/

namespace Sys2Proof.Machine

-- Each theorem in turn: side by side they would reserve more stacks than a check has memory for.
set_option Elab.async false

/-- An error of site 1's synchronisation unit, charged to no block. -/
def syncUnderTest : PErr :=
  { cls := 0x08, site := some 1, unit := .unit 1 9, source := 0, beat := 0, step := 0, attempt := 0, level := 0, ready := true }

/-- A running tile whose slot 0 of site 1 waits for object 0 to reach 0, as it has; the cluster's synchronisation unit is under test. -/
def metWaitUnderTest : State :=
  let s := State.reset.setFld Reg.TILE_STATE_STATE tsRunning
  let s := s.modSlot 1 0 fun x => { x with wait := some (.object 0 0 false, 0) }
  { s with tile := { s.tile with errs := [syncUnderTest] } }

/-- The premises of the clause on a wait that is met. -/
theorem metWaitUnderTest_waits : metWaitUnderTest.alive = true
    ∧ (metWaitUnderTest.slot (1 : Site) (0 : SlotId)).wait = some (.object 0 0 false, 0)
    ∧ ((0 : Nat) : Int) ≤ metWaitUnderTest.seen (1 : Site) (0 : SlotId) 0 := by
  refine ⟨?_, ?_, ?_⟩ <;> decide +kernel

/-- The wait goes on. -/
theorem wait_metWaitUnderTest :
    ((metWaitUnderTest.after (.waitMet 1 0)).slot (1 : Site) (0 : SlotId)).wait = some (.object 0 0 false, 0) := by
  decide +kernel

/-- Refutes O26, in its clause on a wait that is met: no premise excludes a self-test of the cluster's synchronisation unit, which WAIT_MET
waits for. -/
theorem not_waitsEnd : ¬ Obligations.WaitsEnd := by
  unfold Obligations.WaitsEnd
  rintro ⟨-, -, -, -, hmet, -⟩
  obtain ⟨ha, hw, hs⟩ := metWaitUnderTest_waits
  obtain ⟨-, hnone, -⟩ := (hmet metWaitUnderTest 1 0 0 0 0 ha hw hs).after
  rw [wait_metWaitUnderTest] at hnone
  cases hnone

end Sys2Proof.Machine
end

section
/-! A Barza opcode at a slot's pc, and the units' records that a retired or stalled instruction leaves. -/

namespace Sys2Proof.Machine

-- Each theorem in turn: side by side they would reserve more stacks than a check has memory for.
set_option Elab.async false

theorem barza_custom3 {w f3 : Nat} (h : opcodeIs w 0x7B f3) (hf : f3 < 7) : Machine.barza w = some (18 + f3) := by
  have h3 : bits w 12 3 = f3 := h.2
  simp only [Machine.barza, h.1, h3, if_pos hf]

namespace State

variable {s t : State} {site n k : Nat}

theorem fld_count_of_apart {f g : Fld} {m : Nat} (h : apart f g) : (s.count f m).fld g = s.fld g := fld_setFld_of_apart s _ h

theorem barza_of_atWord {w : Nat} {f : Nat → SlotSt → State} (h : s.atWord site n w) (hb : Machine.barza w = some k) :
    s.barza site n k f = (f w (s.slot site n)).issue site n := by
  obtain ⟨hr, hf⟩ := h
  unfold State.barza
  rw [if_pos hr, hf]
  exact if_pos hb

theorem arr_modCl {f : Cluster → Cluster} (ha : (f (s.cl site)).arrs = (s.cl site).arrs) (c a : Nat) :
    (s.modCl site f).arr c a = s.arr c a := by
  unfold State.arr
  rw [cl_modCl]
  split
  · next h => rw [h, ha]
  · rfl

@[simp] theorem arr_modSlot (f : SlotSt → SlotSt) (c a : Nat) : (s.modSlot site n f).arr c a = s.arr c a := arr_modCl rfl c a
@[simp] theorem arr_issue (c a : Nat) : (s.issue site n).arr c a = s.arr c a := arr_modCl rfl c a
@[simp] theorem arr_setFld (f : Fld) (v c a : Nat) : (s.setFld f v).arr c a = s.arr c a := rfl
@[simp] theorem arr_retire (pc c a : Nat) : (s.retire site n pc).arr c a = s.arr c a := arr_modSlot _ _ _
@[simp] theorem arr_retireX (len rd : Nat) (v : DWord) (c a : Nat) : (s.retireX site n len rd v).arr c a = s.arr c a :=
  (arr_retire _ _ _).trans (arr_modSlot _ _ _)
@[simp] theorem arr_done4 (c a : Nat) : (s.done4 site n).arr c a = s.arr c a := arr_retire _ _ _
@[simp] theorem arr_leave (c a : Nat) : (s.leave site n).arr c a = s.arr c a := by
  unfold State.leave
  split
  · exact arr_modCl rfl c a
  · rfl
@[simp] theorem arr_stall (o : Option StallOn) (c a : Nat) : (s.stall site n o).arr c a = s.arr c a :=
  (arr_modSlot (s := s.leave site n) _ c a).trans (arr_leave c a)

theorem arr_modArr (a : Nat) (f : Arr → Arr) (c b : Nat) :
    (s.modArr site a f).arr c b = if c = site ∧ b = a then f (s.arr site a) else s.arr c b := by
  unfold State.modArr State.arr
  rw [cl_modCl]
  by_cases hc : c = site
  · subst hc
    by_cases hb : b = a
    · subst hb; simp
    · simp [hb, Store.get_upd_other _ _ _ hb]
  · simp [hc]

/-- The slot after an instruction that stalled. -/
theorem slot_stall (o : Option StallOn) : (s.stall site n o).slot site n = { s.slot site n with stallOn := o } := by
  unfold State.stall
  rw [slot_showSlot, slot_modSlot_same, slot_leave]

theorem slotState_showSlot (v : Nat) (hv : v < 8) :
    (s.showSlot site n v).slotState site n = if (s.slot site n).late then slLate else v := by
  unfold State.slotState State.showSlot State.setSlotState
  rw [fld_setFld_same _ _ (by simp)]
  apply Nat.mod_eq_of_lt
  split
  · exact (by decide : slLate < 8)
  · exact hv

theorem slotState_stall (o : Option StallOn) :
    (s.stall site n o).slotState site n = if (s.slot site n).late then slLate else slStall := by
  unfold State.stall
  rw [slotState_showSlot _ (by decide), slot_modSlot_same, slot_leave]

theorem slotState_issue (a b : Nat) : (s.issue a b).slotState site n = s.slotState site n := rfl

theorem stalled_issue_stall (o : Option StallOn) : s.stalled ((s.stall site n o).issue site n) site n := by
  have hf : s.SlotFrame ((s.stall site n o).issue site n) site n := SlotFrame.trans (.stall o) .issue
  refine ⟨slotState_stall o, ?_, ?_, hf.onlySlot, hf.sameRegs, hf.sameSlices⟩ <;> rw [slot_issue, slot_stall]

theorem retired4_done4_issue : s.retired4 ((s.done4 site n).issue site n) site n := by
  constructor <;> rw [slot_issue, State.done4, slot_retire]

theorem SlotFrame.done4_issue : s.SlotFrame ((s.done4 site n).issue site n) site n := SlotFrame.trans (.retire _) .issue

/-- What an opcode does that retires with a result. -/
theorem retireX_issue (w : Nat) (v : DWord) : let t := (s.retireX site n 4 (wRd w) v).issue site n
    s.retired4 t site n ∧ s.result t site n w v ∧ s.onlySlot t site n ∧ s.sameRegs t (· = Reg.SLOT_STATUS site n) := by
  have hf : s.SlotFrame ((s.retireX site n 4 (wRd w) v).issue site n) site n := SlotFrame.trans (.retireX _ _ _) .issue
  refine ⟨⟨?_, ?_⟩, result_of_setX ?_ ?_, hf.onlySlot, hf.sameRegs⟩
  · rw [slot_issue, slot_retireX]
  · rw [slot_issue, slot_retireX]
  · rw [slot_issue, slot_retireX]
  · rw [slot_issue, slot_retireX]; exact SlotSt.setX_y _ _ _

end State

end Sys2Proof.Machine
end

section
/-! The batcher (R68, R69): what a release changes. -/

namespace Sys2Proof.Machine

-- Each theorem in turn: side by side they would reserve more stacks than a check has memory for.
set_option Elab.async false

namespace State

variable {s t u : State} {site n a : Nat}

/-- From `s` to `t` nothing but registers and the arrays' records of a cluster may differ. -/
structure ArrFrame (s t : State) (site : Nat) : Prop where
  slots : ∀ c m, t.slot c m = s.slot c m
  clusters : ∀ c, c ≠ site → t.cl c = s.cl c
  slices : ∀ c, (t.cl c).slice = (s.cl c).slice
  mem : t.pkgMem = s.pkgMem ∧ t.poison = s.poison
  tile : t.tile = s.tile

namespace ArrFrame

theorem trans (h : s.ArrFrame t site) (k : t.ArrFrame u site) : s.ArrFrame u site :=
  ⟨fun c m => (k.slots c m).trans (h.slots c m), fun c hc => (k.clusters c hc).trans (h.clusters c hc),
    fun c => (k.slices c).trans (h.slices c), ⟨k.mem.1.trans h.mem.1, k.mem.2.trans h.mem.2⟩, k.tile.trans h.tile⟩

theorem of_onlyRegs (h : OnlyRegs s t) : s.ArrFrame t site := by
  obtain ⟨_, rfl⟩ := h
  exact ⟨fun _ _ => rfl, fun _ _ => rfl, fun _ => rfl, ⟨rfl, rfl⟩, rfl⟩

theorem modCl {f : Cluster → Cluster} (hs : (f (s.cl site)).slots = (s.cl site).slots)
    (hl : (f (s.cl site)).slice = (s.cl site).slice) : s.ArrFrame (s.modCl site f) site where
  slots := slot_modCl hs
  clusters c hc := by rw [cl_modCl, if_neg hc]
  slices c := by
    rw [cl_modCl]
    split
    · next h => rw [h, hl]
    · rfl
  mem := ⟨rfl, rfl⟩
  tile := rfl

theorem modArr (a : Nat) (f : Arr → Arr) : s.ArrFrame (s.modArr site a f) site := modCl rfl rfl

theorem onlySlot (h : s.ArrFrame t site) (m : Nat) : s.onlySlot t site m :=
  ⟨fun k _ => h.slots site k, h.clusters, ⟨fun _ => by rw [h.mem.1], h.mem.2⟩, h.tile⟩

theorem sameSlices (h : s.ArrFrame t site) : s.sameSlices t := fun c _ => by rw [h.slices c]

end ArrFrame

theorem arr_of_onlyRegs (h : OnlyRegs s t) (c b : Nat) : t.arr c b = s.arr c b := by
  obtain ⟨_, rfl⟩ := h
  rfl

/-- From `s` to `t` the batch of an array has become a stream of its rows at the end of the array's issue queue. -/
structure Released (s t : State) (site a : Nat) : Prop where
  batch : (t.arr site a).batch = []
  queue : ∃ o, (t.arr site a).queue = (s.arr site a).queue ++ [o] ∧ o.kind = .astream ∧ o.batch = some (s.arr site a).batch
    ∧ o.arg = (s.arr site a).batch.length ∧ o.desc = s.fld (Reg.BATCH_DESC_ADDR site a) ∧ o.slot = s.fld (Reg.BATCH_CFG_SLOT site)
  arrs : ∀ b, b ≠ a → t.arr site b = s.arr site b
  frame : s.ArrFrame t site
  rows : t.fld (Reg.BATCH_STATUS_ROWS site a) = 0
  waited : t.fld (Reg.BATCH_STATUS_WAITED site a) = 0

theorem arr_bump (c b : Nat) : (s.bump site).arr c b = s.arr c b := arr_modCl rfl c b

theorem maskOf_two_pow (ha : a < 4) : maskOf (2 ^ a) = [a] := by
  have : ∀ a, a < 4 → maskOf (2 ^ a) = [a] := by decide
  exact this a ha

/-- Room in the array's queue: the operation joins it. -/
theorem queueArr_single {o : Op} (ha : a < 4) (ho : o.f7 = 2 ^ a) (hr : roomIn (s.arr site a).queue o.slot = true) :
    s.queueArr site o = some (((s.bump site).modArr site a fun x => { x with queue := x.queue ++ [o] }).showQueues site) := by
  unfold State.queueArr
  rw [ho, maskOf_two_pow ha]
  simp [hr]

theorem queueArr_single_full {o : Op} (ha : a < 4) (ho : o.f7 = 2 ^ a) (hr : roomIn (s.arr site a).queue o.slot = false) :
    s.queueArr site o = none := by
  unfold State.queueArr
  rw [ho, maskOf_two_pow ha]
  simp [hr]

theorem batchRelease_empty (hb : (s.arr site a).batch = []) : s.batchRelease site a = some s := by
  unfold State.batchRelease
  simp [hb]

theorem batchRelease_full (ha : a < 4) (hb : (s.arr site a).batch ≠ [])
    (hr : roomIn (s.arr site a).queue (s.fld (Reg.BATCH_CFG_SLOT site)) = false) : s.batchRelease site a = none := by
  unfold State.batchRelease
  dsimp only
  rw [if_neg (by simpa using hb), queueArr_single_full ha rfl hr]
  rfl

/-- The stream of a batch. -/
def batchOp (s : State) (site a : Nat) : Op :=
  { id := (s.cl site).nextOp, kind := .astream, slot := s.fld (Reg.BATCH_CFG_SLOT site)
    blk := (s.slot site (s.fld (Reg.BATCH_CFG_SLOT site))).blk.id, f7 := 2 ^ a, desc := s.fld (Reg.BATCH_DESC_ADDR site a)
    arg := (s.arr site a).batch.length, batch := some (s.arr site a).batch }

/-- The state with the batch of an array in its queue, before registers show it. -/
def batchMoved (s : State) (site a : Nat) : State :=
  (s.bump site).modArr site a fun x => { x with queue := x.queue ++ [batchOp s site a] }

/-- A release with room in the queue, step by step. -/
theorem batchRelease_eq (ha : a < 4) (hb : (s.arr site a).batch ≠ [])
    (hr : roomIn (s.arr site a).queue (s.fld (Reg.BATCH_CFG_SLOT site)) = true) :
    s.batchRelease site a = some ((((((s.batchMoved site a).showQueues site).modArr site a fun x => { x with batch := [] }).setFld
      (Reg.BATCH_STATUS_ROWS site a) 0).setFld (Reg.BATCH_STATUS_WAITED site a) 0).count (Reg.BATCH_STATUS_RELEASED site a) 1) := by
  unfold State.batchRelease
  dsimp only
  rw [if_neg (by simpa using hb), queueArr_single ha rfl hr]
  rfl

/-- Room in the array's queue: the batch is released. -/
theorem batchRelease_room (ha : a < 4) (hb : (s.arr site a).batch ≠ [])
    (hr : roomIn (s.arr site a).queue (s.fld (Reg.BATCH_CFG_SLOT site)) = true) :
    ∃ t, s.batchRelease site a = some t ∧ s.Released t site a := by
  refine ⟨_, batchRelease_eq ha hb hr, ?_⟩
  have hq : OnlyRegs (s.batchMoved site a) ((s.batchMoved site a).showQueues site) := showQueues_only _ _
  generalize (s.batchMoved site a).showQueues site = u at hq
  have hu : ∀ b, u.arr site b = if b = a then { s.arr site a with queue := (s.arr site a).queue ++ [batchOp s site a] } else s.arr site b := by
    intro b
    rw [arr_of_onlyRegs hq, batchMoved, arr_modArr, arr_bump, arr_bump]
    simp
  have hf : s.ArrFrame u site := ((ArrFrame.modCl rfl rfl).trans (.modArr _ _)).trans (.of_onlyRegs hq)
  generalize hv : (u.modArr site a fun x => { x with batch := [] }) = v
  have hva : ∀ b, v.arr site b = if b = a then { s.arr site a with queue := (s.arr site a).queue ++ [batchOp s site a], batch := [] }
      else s.arr site b := by
    intro b
    rw [← hv, arr_modArr, hu, hu]
    by_cases h : b = a <;> simp [h]
  have hvf : s.ArrFrame v site := hv ▸ hf.trans (.modArr _ _)
  have h4 := ((setFld_only v (Reg.BATCH_STATUS_ROWS site a) 0).trans (setFld_only _ (Reg.BATCH_STATUS_WAITED site a) 0)).trans
    (count_only _ (Reg.BATCH_STATUS_RELEASED site a) 1)
  have hrows : ((((v.setFld (Reg.BATCH_STATUS_ROWS site a) 0).setFld (Reg.BATCH_STATUS_WAITED site a) 0).count
      (Reg.BATCH_STATUS_RELEASED site a) 1).fld (Reg.BATCH_STATUS_ROWS site a)) = 0 := by
    rw [fld_count_of_apart (.inr ⟨by simp, by simp⟩), fld_setFld_of_apart _ _ (.inr ⟨by simp, by simp⟩), fld_setFld_same _ _ (by simp)]
    rfl
  have hwaited : ((((v.setFld (Reg.BATCH_STATUS_ROWS site a) 0).setFld (Reg.BATCH_STATUS_WAITED site a) 0).count
      (Reg.BATCH_STATUS_RELEASED site a) 1).fld (Reg.BATCH_STATUS_WAITED site a)) = 0 := by
    rw [fld_count_of_apart (.inr ⟨by simp, by simp⟩), fld_setFld_same _ _ (by simp)]
    rfl
  generalize ((v.setFld (Reg.BATCH_STATUS_ROWS site a) 0).setFld (Reg.BATCH_STATUS_WAITED site a) 0).count
      (Reg.BATCH_STATUS_RELEASED site a) 1 = t at *
  have hta : ∀ b, t.arr site b = v.arr site b := fun b => arr_of_onlyRegs h4 _ _
  refine ⟨?_, ⟨batchOp s site a, ?_, rfl, rfl, rfl, rfl, rfl⟩, fun b hb => ?_, hvf.trans (.of_onlyRegs h4), hrows, hwaited⟩
  · rw [hta, hva, if_pos rfl]
  · rw [hta, hva, if_pos rfl]
  · rw [hta, hva, if_neg hb]

end State

end Sys2Proof.Machine
end

section
/-! The batcher's commands (R68, R69). -/

namespace Sys2Proof.Machine

-- Each theorem in turn: side by side they would reserve more stacks than a check has memory for.
set_option Elab.async false

namespace State

variable {s t : State} {site n a : Nat}

/-- The register of a slot after one of its registers was written and it retired. -/
theorem slot_retireX_issue (len rd : Nat) (v : DWord) : ((s.retireX site n len rd v).issue site n).slot site n =
    { (s.slot site n).setX rd v with pc := ((s.slot site n).pc + len) % 2 ^ 64, instret := (s.slot site n).instret + 1, stallOn := none } := by
  rw [slot_issue, slot_retireX]

/-- An opcode that changes the arrays and then retires with a result. -/
theorem retireX_of_arrFrame (h : s.ArrFrame t site) (w : Nat) (v : DWord) : let u := (t.retireX site n 4 (wRd w) v).issue site n
    s.retired4 u site n ∧ s.result u site n w v ∧ s.onlySlot u site n ∧ s.sameSlices u := by
  have hs := h.slots site n
  have hf : t.SlotFrame ((t.retireX site n 4 (wRd w) v).issue site n) site n := SlotFrame.trans (.retireX _ _ _) .issue
  refine ⟨⟨?_, ?_⟩, result_of_setX ?_ ?_, ⟨?_, ?_, ?_, ?_⟩, ?_⟩
  · rw [slot_retireX_issue, hs]
  · rw [slot_retireX_issue, hs]
  · rw [slot_retireX_issue, hs]
  · rw [slot_retireX_issue, hs]; exact SlotSt.setX_y _ _ _
  · exact fun m hm => (hf.slots site m fun k => hm k.2).trans (h.slots site m)
  · exact fun c hc => (hf.clusters c hc).trans (h.clusters c hc)
  · exact ⟨fun _ => by rw [hf.mem.1, h.mem.1], hf.mem.2.trans h.mem.2⟩
  · exact hf.tile.trans h.tile
  · exact fun c _ => by rw [hf.slices c, h.slices c]

/-- An opcode that changes the arrays and then retires without a result. -/
theorem done4_of_arrFrame (h : s.ArrFrame t site) : let u := (t.done4 site n).issue site n
    s.retired4 u site n ∧ s.onlySlot u site n ∧ s.sameSlices u := by
  have hs := h.slots site n
  have hf : t.SlotFrame ((t.done4 site n).issue site n) site n := .done4_issue
  refine ⟨⟨?_, ?_⟩, ⟨?_, ?_, ?_, ?_⟩, ?_⟩
  · rw [slot_issue, State.done4, slot_retire, hs]
  · rw [slot_issue, State.done4, slot_retire, hs]
  · exact fun m hm => (hf.slots site m fun k => hm k.2).trans (h.slots site m)
  · exact fun c hc => (hf.clusters c hc).trans (h.clusters c hc)
  · exact ⟨fun _ => by rw [hf.mem.1, h.mem.1], hf.mem.2.trans h.mem.2⟩
  · exact hf.tile.trans h.tile
  · exact fun c _ => by rw [hf.slices c, h.slices c]

/-- The row joins the batch, and BATCH_STATUS shows it. -/
def batchJoin (s : State) (site a row : Nat) : State :=
  (s.modArr site a fun x => { x with batch := (s.arr site a).batch ++ [row] }).setFld (Reg.BATCH_STATUS_ROWS site a)
    ((s.arr site a).batch.length + 1)

theorem batchJoin_frame (row : Nat) : s.ArrFrame (s.batchJoin site a row) site := (ArrFrame.modArr _ _).trans (.of_onlyRegs (setFld_only _ _ _))

theorem arr_batchJoin (row b : Nat) : (s.batchJoin site a row).arr site b =
    if b = a then { s.arr site a with batch := (s.arr site a).batch ++ [row] } else s.arr site b := by
  rw [batchJoin, arr_setFld, arr_modArr]
  simp

variable {k m : Nat} {site : Site} {n : SlotId} {w : Nat}

/-- BZ.BATCH with no reserved field. -/
theorem exec_bzBatch (h : s.atWord site n w) (ho : opcodeIs w 0x7B 4) (hv : isVector site = false) (h2 : wRs2 w = 0) (h7 : wF7 w < 4) :
    exec (.bzBatch site n) s = .next (State.issue (
      if s.flag (Reg.BATCH_CFG_EN site) = false then s.retireX site n 4 (wRd w) (BitVec.ofNat 64 (s.arr site (wF7 w)).batch.length)
      else if 128 ≤ (s.arr site (wF7 w)).batch.length then s.stall site n (some (.batch (wF7 w)))
      else
        let s1 := s.batchJoin site (wF7 w) (s.x site n (wRs1 w)).toNat
        (if (s.arr site (wF7 w)).batch.length + 1 = 128 then (s1.batchRelease site (wF7 w)).getD s1 else s1).retireX site n 4 (wRd w)
          (BitVec.ofNat 64 ((s.arr site (wF7 w)).batch.length + 1))) site n) := by
  have h7' : f7 w % 4 = wF7 w := Nat.mod_eq_of_lt h7
  have h7d : f7 w / 4 = 0 := Nat.div_eq_of_lt h7
  have h2' : fRs2 w = 0 := h2
  have hb := barza_custom3 ho (by decide)
  simp only [exec, execBzBatch, barza_of_atWord h hb, h7', h7d, h2', hv, bne_self_eq_false, Bool.or_self, Bool.false_eq_true, if_false,
    Bool.not_eq_true']
  rfl

/-- BZ.BFLUSH with no reserved field. -/
theorem exec_bzBflush (h : s.atWord site n w) (ho : opcodeIs w 0x7B 5) (hv : isVector site = false) (hd : wRd w = 0) (h1 : wRs1 w = 0)
    (h2 : wRs2 w = 0) (h7 : wF7 w < 4) :
    exec (.bzBflush site n) s = .next (State.issue (
      match s.batchRelease site (wF7 w) with
      | some s1 => s1.done4 site n
      | none => s.stall site n (some (.flush (wF7 w)))) site n) := by
  have h7' : f7 w % 4 = wF7 w := Nat.mod_eq_of_lt h7
  have h7d : f7 w / 4 = 0 := Nat.div_eq_of_lt h7
  have hd' : fRd w = 0 := hd
  have h1' : fRs1 w = 0 := h1
  have h2' : fRs2 w = 0 := h2
  have hb := barza_custom3 ho (by decide)
  simp only [exec, execBzBflush, barza_of_atWord h hb, h7', h7d, hd', h1', h2', hv, bne_self_eq_false, Bool.or_self, Bool.false_eq_true,
    if_false] <;> rfl

/-- The batch limit's release, for a batch that is to leave. -/
theorem exec_batchLimitRelease {a : ArrId} (ha : s.alive = true) (hl : s.live site = true) (hv : isVector site = false)
    (hw : s.fld (Reg.BATCH_CFG_LIMIT_BEATS site) ≠ 0 ∧ s.fld (Reg.BATCH_CFG_LIMIT_BEATS site) ≤ s.fld (Reg.BATCH_STATUS_WAITED site a)
      ∨ 128 ≤ (s.arr site a).batch.length) :
    exec (.batchLimitRelease site a) s = .next ((s.batchRelease site a).getD s) := by
  simp only [exec, execBatchLimitRelease, ha, hl, hv]
  rw [if_pos (by simpa using hw)]

theorem fld_batchCfg_batchJoin (site a row : Nat) :
    (s.batchJoin site a row).fld (Reg.BATCH_CFG_SLOT site) = s.fld (Reg.BATCH_CFG_SLOT site) :=
  fld_setFld_of_apart _ _ (.inl (by simp only [ne_eq]; omega))

theorem fld_batchDesc_batchJoin (site a row : Nat) :
    (s.batchJoin site a row).fld (Reg.BATCH_DESC_ADDR site a) = s.fld (Reg.BATCH_DESC_ADDR site a) :=
  fld_setFld_of_apart _ _ (.inl (by simp))

/-- `BATCH_STATUS` lies before the words of the slots. -/
theorem fld_rows_batchJoin_retireX {site n a row rd : Nat} {v : DWord} (hn : n < 4) (hl : (s.arr site a).batch.length + 1 < 256) :
    (((s.batchJoin site a row).retireX site n 4 rd v).issue site n).fld (Reg.BATCH_STATUS_ROWS site a) = (s.arr site a).batch.length + 1 := by
  have hf : (s.batchJoin site a row).SlotFrame (((s.batchJoin site a row).retireX site n 4 rd v).issue site n) site n :=
    SlotFrame.trans (.retireX _ _ _) .issue
  have hr := hf.regs (Reg.BATCH_STATUS_ROWS site a).off (by simp only [ne_eq, Reg.SLOT_STATUS]; omega)
  have hs : (s.batchJoin site a row).fld (Reg.BATCH_STATUS_ROWS site a) = (s.arr site a).batch.length + 1 := by
    rw [batchJoin, fld_setFld_same _ _ (by simp)]
    exact Nat.mod_eq_of_lt hl
  unfold State.fld at *
  rw [hr, hs]

theorem rd_batchJoin_retireX {site n a row rd : Nat} {v : DWord} :
    s.sameRegs (((s.batchJoin site a row).retireX site n 4 rd v).issue site n)
      (fun o => o = Reg.SLOT_STATUS site n ∨ o = Reg.BATCH_STATUS site a) := by
  intro o ho
  have hf : (s.batchJoin site a row).SlotFrame (((s.batchJoin site a row).retireX site n 4 rd v).issue site n) site n :=
    SlotFrame.trans (.retireX _ _ _) .issue
  rw [hf.regs o fun h => ho (.inl h)]
  exact rd_setFld_other _ _ fun h => ho (.inr h)

end State

open State in
/-- Settles O28: a release is `State.Released`; a stalled or retired opcode touches its slot alone. -/
theorem batcherGathersRows : Obligations.BatcherGathersRows := by
  unfold Obligations.BatcherGathersRows
  refine ⟨?_, ?_, ?_, ?_, ?_, ?_, ?_, ?_, ?_⟩
  · intro s site n w h ho hv h2 h7 hen hlen
    refine ⟨_, exec_bzBatch h ho hv h2 h7, ?_⟩
    simp only [hen, Bool.true_eq_false, if_false, if_neg (show ¬ 128 ≤ (s.arr site (wF7 w)).batch.length by omega),
      if_neg (show ¬ (s.arr site (wF7 w)).batch.length + 1 = 128 by omega)]
    obtain ⟨hr, hres, hon, -⟩ := retireX_of_arrFrame (n := n) (batchJoin_frame (s.x site n (wRs1 w)).toNat (s := s) (site := site) (a := wF7 w)) w
      (BitVec.ofNat 64 ((s.arr site (wF7 w)).batch.length + 1))
    refine ⟨hr, ?_, hres, ?_, ?_, hon, ?_⟩
    · rw [arr_issue, arr_retireX, arr_batchJoin, if_pos rfl]
    · exact fld_rows_batchJoin_retireX n.isLt (by omega)
    · intro a ha
      rw [arr_issue, arr_retireX, arr_batchJoin, if_neg ha]
    · exact rd_batchJoin_retireX
  · intro s site n w rows h ho hv h2 h7 hen hrows hlen
    have hl : (s.arr site (wF7 w)).batch.length = 127 := by
      rw [hrows, List.length_append, List.length_singleton] at hlen
      omega
    refine ⟨_, exec_bzBatch h ho hv h2 h7, ?_⟩
    simp only [hen, Bool.true_eq_false, if_false, hl, show ¬ 128 ≤ 127 by decide, if_true]
    have hj := batchJoin_frame (s.x site n (wRs1 w)).toNat (s := s) (site := site) (a := wF7 w)
    have hja : (s.batchJoin site (wF7 w) (s.x site n (wRs1 w)).toNat).arr site (wF7 w) = { s.arr site (wF7 w) with batch := rows } := by
      rw [arr_batchJoin, if_pos rfl, hrows]
    have hjo : ∀ b, b ≠ wF7 w → (s.batchJoin site (wF7 w) (s.x site n (wRs1 w)).toNat).arr site b = s.arr site b := fun b hb => by
      rw [arr_batchJoin, if_neg hb]
    have hjs := fld_batchCfg_batchJoin (s := s) site (wF7 w) (s.x site n (wRs1 w)).toNat
    have hjd := fld_batchDesc_batchJoin (s := s) site (wF7 w) (s.x site n (wRs1 w)).toNat
    generalize s.batchJoin site (wF7 w) (s.x site n (wRs1 w)).toNat = s1 at *
    have hne : (s1.arr site (wF7 w)).batch ≠ [] := by
      rw [hja]
      exact List.ne_nil_of_length_pos (by rw [hlen]; decide)
    by_cases hroom : roomIn (s.arr site (wF7 w)).queue (s.fld (Reg.BATCH_CFG_SLOT site)) = true
    · obtain ⟨u, hu, hrel⟩ := batchRelease_room h7 hne (by rw [hja, hjs]; exact hroom)
      rw [hu, Option.getD_some, if_pos hroom]
      obtain ⟨hr, hres, hon, hsl⟩ := retireX_of_arrFrame (n := n) (hj.trans hrel.frame) w 128
      obtain ⟨o, hq, hk, hb, harg, hd, hs⟩ := hrel.queue
      refine ⟨hr, hres, ⟨?_, o, ?_, hk, ?_, ?_, ?_, ?_⟩, ?_, hon, hsl⟩
      · rw [arr_issue, arr_retireX, hrel.batch]
      · rw [arr_issue, arr_retireX, hq, hja]
      · rw [hb, hja]
      · rw [harg, hja, hlen]
      · rw [hd, hjd]
      · rw [hs, hjs]
      · intro b hb'
        rw [arr_issue, arr_retireX, hrel.arrs b hb', hjo b hb']
    · rw [Bool.not_eq_true] at hroom
      rw [batchRelease_full h7 hne (by rw [hja, hjs]; exact hroom), Option.getD_none, if_neg (by rw [hroom]; decide)]
      obtain ⟨hr, hres, hon, hsl⟩ := retireX_of_arrFrame (n := n) hj w 128
      refine ⟨hr, hres, ⟨?_, ?_⟩, ?_, hon, hsl⟩
      · rw [arr_issue, arr_retireX, hja]
      · rw [arr_issue, arr_retireX, hja]
      · intro b hb
        rw [arr_issue, arr_retireX, hjo b hb]
  · intro s site n w h ho hv h2 h7 hen hlen
    refine ⟨_, exec_bzBatch h ho hv h2 h7, ?_⟩
    simp only [hen, Bool.true_eq_false, if_false, if_pos hlen]
    exact ⟨stalled_issue_stall _, fun a => by rw [arr_issue, arr_stall]⟩
  · intro s site n w h ho hv h2 h7 hen
    refine ⟨_, exec_bzBatch h ho hv h2 h7, ?_⟩
    simp only [hen, if_true]
    obtain ⟨hr, hres, hon, hreg⟩ := retireX_issue (s := s) (site := site) (n := n) w (BitVec.ofNat 64 (s.arr site (wF7 w)).batch.length)
    exact ⟨hr, hres, fun a => by rw [arr_issue, arr_retireX], hon, hreg⟩
  · intro s site n w h ho hv hd h1 h2 h7 hb hroom
    refine ⟨_, exec_bzBflush h ho hv hd h1 h2 h7, ?_⟩
    rw [batchRelease_full h7 hb hroom]
    exact ⟨stalled_issue_stall _, fun a => by rw [arr_issue, arr_stall]⟩
  · intro s site n w h ho hv hd h1 h2 h7 hb
    refine ⟨_, exec_bzBflush h ho hv hd h1 h2 h7, ?_⟩
    rw [batchRelease_empty hb]
    have hf := SlotFrame.done4_issue (s := s) (site := site) (n := n)
    exact ⟨retired4_done4_issue, fun a => by rw [arr_issue]; exact arr_done4 _ _, hf.onlySlot, hf.sameRegs⟩
  · intro s site n w h ho hv hd h1 h2 h7 hb hroom
    obtain ⟨t, ht, hrel⟩ := batchRelease_room h7 hb hroom
    refine ⟨_, exec_bzBflush h ho hv hd h1 h2 h7, ?_⟩
    rw [ht]
    obtain ⟨hr, hon, hsl⟩ := done4_of_arrFrame (n := n) hrel.frame
    obtain ⟨o, hq, hrest⟩ := hrel.queue
    refine ⟨hr, ?_, ⟨o, ?_, hrest⟩, hon, hsl⟩
    · rw [arr_issue]; exact (congrArg Arr.batch (arr_done4 _ _)).trans hrel.batch
    · rw [arr_issue]; exact (congrArg Arr.queue (arr_done4 _ _)).trans hq
  · intro s site a _ hb
    simp only [exec, execBatchLimitRelease, batchRelease_empty hb, Option.getD_some, ite_self]
  · intro s site a ha hl hv hw hb hroom
    obtain ⟨t, ht, hrel⟩ := batchRelease_room a.isLt hb hroom
    refine ⟨_, exec_batchLimitRelease ha hl hv hw, ?_⟩
    rw [ht]
    have hf := hrel.frame
    exact ⟨hrel.batch, hrel.queue, hrel.rows, hrel.waited,
      fun b hb => hrel.arrs b fun e => hb (Fin.ext e), hf.clusters, (hf.onlySlot 0).2.2.1, hf.sameSlices, hf.tile⟩

end Sys2Proof.Machine
end

section
/-! An init that has written its entries while the bank of its status record waits for its self-test (R216, R337): it completes once the
test has ended. -/

namespace Sys2Proof.Machine

-- Each theorem in turn: side by side they would reserve more stacks than a check has memory for.
set_option Elab.async false

/-- An init of array 0, charged to no block, whose status record goes to offset 0. -/
def initOfArray0 : Run := { op := { id := 1, kind := .ainit, slot := 0, blk := 0, f7 := 1, desc := 0 }, dv := 0 }

/-- A running tile in which array 0 of site 1 has `initOfArray0` to complete; bank 0 of the site is under test. -/
def initBeforeTestedBank : State :=
  let s := State.reset.setFld Reg.TILE_STATE_STATE tsRunning
  let s := s.modArr 1 0 fun x => { x with inits := [initOfArray0] }
  { s with tile := { s.tile with errs := [bankUnderTest] } }

/-- The premises of the clause on the completion of an init. -/
theorem initBeforeTestedBank_waits : initBeforeTestedBank.alive = true ∧ initBeforeTestedBank.live (1 : Site) = true
    ∧ (initBeforeTestedBank.arr (1 : Site) (0 : ArrId)).inits = initOfArray0 :: [] ∧ initOfArray0.op.arrays = [(0 : ArrId).val]
    ∧ initBeforeTestedBank.clean (1 : Site) := by
  refine ⟨?_, ?_, ?_, ?_, ?_, ?_, ?_⟩ <;> decide +kernel

/-- The init waits for the test. -/
theorem inits_initBeforeTestedBank :
    ((initBeforeTestedBank.after (.ainitComplete 1 0)).arr (1 : Site) (0 : ArrId)).inits = [initOfArray0] := by
  decide +kernel

/-- Refutes O29, in its clause on the completion of an init: no premise excludes a self-test of the bank that takes the status record. -/
theorem not_arrayOperationsRunAndComplete : ¬ Obligations.ArrayOperationsRunAndComplete := by
  unfold Obligations.ArrayOperationsRunAndComplete
  rintro ⟨-, -, -, -, -, -, -, -, -, -, -, -, -, -, hinit⟩
  obtain ⟨ha, hl, hi, harr, hc⟩ := initBeforeTestedBank_waits
  obtain ⟨hgone, -⟩ := (hinit initBeforeTestedBank 1 0 initOfArray0 [] ha hl hi harr hc).after
  rw [inits_initBeforeTestedBank] at hgone
  cases hgone

end Sys2Proof.Machine
end

section
/-! What a tick leaves beside the clocks: the tile's state, `TIME_NOW` once it has counted, package memory and the slices. -/

namespace Sys2Proof.Machine

-- Each theorem in turn: side by side they would reserve more stacks than a check has memory for.
set_option Elab.async false

/-- A word of `TILE_STATE` or `TIME_NOW`. -/
abbrev timeWord (o : Nat) : Prop := o = 0x8 ∨ o = 0x10030 ∨ o = 0x10034

/-- From `s` to `t` the tile's state, `TIME_NOW`, package memory and the slices are as before. -/
structure State.TimeFrame (s t : State) : Prop where
  regs : ∀ o, timeWord o → t.rd o = s.rd o
  mem : t.pkgMem = s.pkgMem
  poison : t.poison = s.poison
  slices : ∀ k, (t.cl k).slice = (s.cl k).slice

/-- What a dropped lane can come to. -/
theorem State.dropLane_cases {P : State → Prop} {s : State} {e l : Nat} (h0 : P s) (h1 : ∀ p, P (s.setLane e p false))
    (h2 : ∀ p, P ((s.setLane e p false).dropSpare e (p - 32))) : P (s.dropLane e l) := by
  rw [State.dropLane_eq]
  beta_reduce
  cases s.physOf e l with
  | some p =>
    dsimp only
    split
    · exact h1 p
    · exact h2 p
  | none => exact h0

namespace State.TimeFrame

variable {s₀ s t : State}

theorem refl (s : State) : s.TimeFrame s := ⟨fun _ _ => rfl, rfl, rfl, fun _ => rfl⟩

theorem trans (h : s₀.TimeFrame s) (k : s.TimeFrame t) : s₀.TimeFrame t :=
  ⟨fun o ho => (k.regs o ho).trans (h.regs o ho), k.mem.trans h.mem, k.poison.trans h.poison, fun c => (k.slices c).trans (h.slices c)⟩

theorem ite {c : Prop} [Decidable c] (hs : s₀.TimeFrame s) (ht : s₀.TimeFrame t) : s₀.TimeFrame (if c then s else t) := by
  split <;> assumption

/-- An update of parts that a tick's frame does not speak of. -/
theorem update (h : s₀.TimeFrame s) (hr : t.regs = s.regs := by rfl) (hd : t.dev = s.dev := by rfl) (hm : t.pkgMem = s.pkgMem := by rfl)
    (hp : t.poison = s.poison := by rfl) (hc : t.clusters = s.clusters := by rfl) : s₀.TimeFrame t :=
  h.trans ⟨fun o _ => by unfold State.rd; rw [hr, hd], hm, hp, fun k => by unfold State.cl; rw [hc]⟩

theorem foldl {β : Type} {f : State → β → State} (h : s₀.TimeFrame s) (l : List β) (hf : ∀ s b, State.TimeFrame s (f s b)) :
    s₀.TimeFrame (l.foldl f s) :=
  h.trans (foldl_keeps State.TimeFrame refl (fun a b => a.trans b) f hf l s)

theorem wr {o : Nat} (h : s₀.TimeFrame s) (v : Word) (ho : ¬ timeWord o) : s₀.TimeFrame (s.wr o v) :=
  h.trans ⟨fun _ hp => rd_wr_other _ _ fun e => ho (e ▸ hp), rfl, rfl, fun _ => rfl⟩

theorem setFld {f : Fld} (h : s₀.TimeFrame s) (v : Nat) (hf : ¬ timeWord f.off := by decide) : s₀.TimeFrame (s.setFld f v) := h.wr _ hf
theorem setFlag {f : Fld} (h : s₀.TimeFrame s) (b : Bool) (hf : ¬ timeWord f.off := by decide) : s₀.TimeFrame (s.setFlag f b) := h.wr _ hf
theorem count {f : Fld} (h : s₀.TimeFrame s) (n : Nat) (hf : ¬ timeWord f.off := by decide) : s₀.TimeFrame (s.count f n) := h.wr _ hf
theorem setFld64 {o : Nat} (h : s₀.TimeFrame s) (lo w v : Nat) (ho : ¬ timeWord o ∧ ¬ timeWord (o + 4) := by decide) :
    s₀.TimeFrame (s.setFld64 o lo w v) := (h.wr _ ho.1).wr _ ho.2
theorem count64 {o : Nat} (h : s₀.TimeFrame s) (n : Nat) (ho : ¬ timeWord o ∧ ¬ timeWord (o + 4) := by decide) :
    s₀.TimeFrame (s.count64 o n) := (h.wr _ ho.1).wr _ ho.2

theorem modCl (h : s₀.TimeFrame s) (site : Nat) {f : Cluster → Cluster} (hf : ∀ c, (f c).slice = c.slice) : s₀.TimeFrame (s.modCl site f) := by
  refine h.trans ⟨fun _ _ => rfl, rfl, rfl, fun k => ?_⟩
  rw [cl_modCl]
  split
  · next h => rw [h, hf]
  · rfl

/-! ## Comparators and their actions -/

theorem sbQueue (h : s₀.TimeFrame s) (f : TxFrame) : s₀.TimeFrame (s.sbQueue f) := by
  unfold State.sbQueue
  exact .ite h (.ite (h.count _) h.update)

theorem moveRequest (h : s₀.TimeFrame s) : s₀.TimeFrame s.moveRequest := by
  unfold State.moveRequest
  split
  · exact h.update
  · exact h

theorem wakeRails (h : s₀.TimeFrame s) : s₀.TimeFrame s.wakeRails := by
  unfold State.wakeRails
  exact h.update.moveRequest

theorem wakeBy (h : s₀.TimeFrame s) (n : Nat) : s₀.TimeFrame (s.wakeBy n) := by
  unfold State.wakeBy
  extract_lets s1
  have h1 : s₀.TimeFrame s1 := ((h.setFld _).setFld _).wakeRails
  exact .ite ((((h.setFld _).setFld _).setFld _).setFld _) (.ite h1.update h)

theorem cmpSee2 (h : s₀.TimeFrame s) : s₀.TimeFrame (s.cmpSee 2) := by
  have hfire : ∀ {s : State}, s₀.TimeFrame s → s₀.TimeFrame (s.cmpFire 2) := fun {s} h => by
    unfold State.cmpFire
    have hw : s₀.TimeFrame (if s.flag (Reg.AON_CMP_WAKE 2) then (s.setFlag (Reg.AON_CMP_FIRED 2) true).wakeBy 2
        else s.setFlag (Reg.AON_CMP_FIRED 2) true) := .ite ((h.setFlag _).wakeBy _) (h.setFlag _)
    exact .ite (.ite (hw.sbQueue _) hw) h
  unfold State.cmpSee
  exact .ite h (.ite (hfire (h.setFlag _)) (h.setFlag _))

/-! ## Waits -/

theorem ageWaits (h : s₀.TimeFrame s) : s₀.TimeFrame s.ageWaits := by
  unfold State.ageWaits
  extract_lets s1
  have h1 : s₀.TimeFrame s1 := h.foldl _ fun s k => (refl s).modCl k fun _ => rfl
  exact h1.update

theorem ageBanks (h : s₀.TimeFrame s) (site : Nat) : s₀.TimeFrame (s.ageBanks site) :=
  h.foldl _ fun s b => (refl s).count _ (by simp only [timeWord, clBlk]; omega)

theorem bankTick (h : s₀.TimeFrame s) (n : Nat) : s₀.TimeFrame (s.bankTick n) := by
  unfold State.bankTick
  exact .ite h.update (h.update.foldl _ fun s _ => (refl s).foldl _ fun s k => (refl s).ageBanks k)

/-! ## Edges -/

theorem modEdge (h : s₀.TimeFrame s) (e : Nat) (f : EdgeSt → EdgeSt) : s₀.TimeFrame (s.modEdge e f) := h.update

theorem lanemap_apart (e : Nat) : ¬ timeWord (Reg.LINK_LANEMAP e) ∧ ¬ timeWord (Reg.LINK_LANEMAP e + 4) := by
  simp only [timeWord, Reg.LINK_LANEMAP, edgeBlk]
  omega

theorem linkStatus_apart (e : Nat) : ¬ timeWord (Reg.LINK_STATUS e) := by
  simp only [timeWord, Reg.LINK_STATUS, edgeBlk]
  omega

theorem setLane (h : s₀.TimeFrame s) (e l : Nat) (on : Bool) : s₀.TimeFrame (s.setLane e l on) := h.setFld64 _ _ _ (lanemap_apart e)

theorem dropSpare (h : s₀.TimeFrame s) (e k : Nat) : s₀.TimeFrame (s.dropSpare e k) := by
  unfold State.dropSpare
  exact ((h.setFld64 _ _ _ (lanemap_apart e)).setFld64 _ _ _ (lanemap_apart e)).setFld _ (linkStatus_apart e)

theorem dropLane {e l : Nat} (h : s₀.TimeFrame s) : s₀.TimeFrame (s.dropLane e l) :=
  dropLane_cases (P := s₀.TimeFrame) h (fun _ => h.setLane _ _ _) fun _ => (h.setLane _ _ _).dropSpare _ _

theorem useSpare (h : s₀.TimeFrame s) (e k l : Nat) : s₀.TimeFrame (s.useSpare e k l) := by
  unfold State.useSpare
  exact (((h.setFld64 _ _ _ (lanemap_apart e)).setFld64 _ _ _ (lanemap_apart e)).setLane _ _ _).setFld _ (linkStatus_apart e)

theorem edgeTest (h : s₀.TimeFrame s) (e : Nat) : s₀.TimeFrame (s.edgeTest e) := by
  unfold State.edgeTest
  exact .ite (h.setFld _ (linkStatus_apart e)).update h

theorem applyPlan (h : s₀.TimeFrame s) (e : Nat) (p : LanePlan) : s₀.TimeFrame (s.applyPlan e p) := by
  unfold State.applyPlan
  extract_lets s1 s2 s3
  have h1 : s₀.TimeFrame s1 := h.dropLane.modEdge _ _
  have h2 : s₀.TimeFrame s2 := h1.setFld _ (linkStatus_apart e)
  have h3 : s₀.TimeFrame s3 := .ite (h2.setFld _ (linkStatus_apart e)) h2
  cases p.spare with
  | some k => exact h1.useSpare _ _ _
  | none => exact .ite (h3.edgeTest e) h3

theorem edgeFlit (h : s₀.TimeFrame s) (e : Nat) : s₀.TimeFrame (s.edgeFlit e) := by
  unfold State.edgeFlit
  exact .ite (h.foldl _ fun s p => (refl s).applyPlan e p).update h

/-- The rest of a tick, once `TIME_NOW` has counted. -/
theorem tick (hoff : s.ts ≠ tsOff) (hr : s.clk.refclk = true) : (s.count64 Reg.TIME_NOW 10).TimeFrame s.tick := by
  unfold State.tick
  rw [if_neg hoff, if_pos hr]
  extract_lets p s1 s2 idle beat
  have h1 : (s.count64 Reg.TIME_NOW 10).TimeFrame s1 := (refl _).cmpSee2
  have h2 : (s.count64 Reg.TIME_NOW 10).TimeFrame s2 := .ite h1 (h1.count64 _)
  exact .ite h1 h2.update

theorem idleTick (hoff : s.ts ≠ tsOff) (hr : s.clk.refclk = true) : (s.count64 Reg.TIME_NOW 10).TimeFrame s.idleTick := by
  unfold State.idleTick
  extract_lets s1
  have h1 : (s.count64 Reg.TIME_NOW 10).TimeFrame s1 := by
    unfold s1 State.clockTick
    extract_lets beats s2
    have h2 : (s.count64 Reg.TIME_NOW 10).TimeFrame s2 := tick hoff hr
    exact .ite h2 (.bankTick (.ite h2.ageWaits h2) _)
  exact .ite (h1.foldl _ fun s e => (refl s).edgeFlit e) h1

end State.TimeFrame

theorem State.idleTick_of_off {s : State} (h : s.ts = tsOff) : s.idleTick = s := by
  have ha : s.alive = false := by simp [State.alive, h]
  have hw : s.awake = false := by simp [State.awake, ha]
  simp [State.idleTick, State.clockTick, hw, State.tick, h]

theorem State.rd64_lt (s : State) (o : Nat) : s.rd64 o < 2 ^ 64 := by
  have h1 := (s.rd o).isLt
  have h2 := (s.rd (o + 4)).isLt
  unfold State.rd64
  omega

theorem step_idle {s : State} (hp : s.pending = []) : step s = .next s.idleTick := by
  rw [step, hp]

theorem State.rd64_count64_timeNow (s : State) :
    (s.count64 Reg.TIME_NOW 10).rd64 Reg.TIME_NOW = min (2 ^ 64 - 1) (s.rd64 Reg.TIME_NOW + 10) := by
  have hlt : min (2 ^ 64 - 1) (s.rd64 Reg.TIME_NOW + 10) < 2 ^ 64 := by omega
  rw [State.count64, State.rd64_wr64 _ _ _ hlt]

theorem State.count64_cl (s : State) (o n k : Nat) : (s.count64 o n).cl k = s.cl k := by
  unfold State.cl
  rw [State.count64_clusters]

/-- The clock counts, and the tile's state, package memory and the slices are as before. -/
theorem State.idleTick_counts {s : State} (hoff : s.ts ≠ tsOff) (hr : s.clk.refclk = true) :
    s.idleTick.rd64 Reg.TIME_NOW = min (2 ^ 64 - 1) (s.rd64 Reg.TIME_NOW + 10) ∧ s.idleTick.ts = s.ts ∧ s.sameMem s.idleTick
      ∧ s.sameSlices s.idleTick := by
  have hf := State.TimeFrame.idleTick hoff hr
  refine ⟨?_, ?_, ⟨fun a => ?_, hf.poison.trans (State.count64_poison _ _ _)⟩, fun k a => ?_⟩
  · rw [← State.rd64_count64_timeNow]
    unfold State.rd64
    rw [hf.regs _ (.inr (.inl rfl)), hf.regs _ (.inr (.inr rfl))]
  · unfold State.ts State.fld
    rw [hf.regs _ (.inl rfl), State.count64, State.rd_wr64_other _ _ (by decide) (by decide)]
  · rw [hf.mem, State.count64_pkgMem]
  · rw [hf.slices, State.count64_cl]

/-- Settles O2: a tick leaves `TIME_NOW` alone once it has counted (`State.TimeFrame.idleTick`). -/
theorem idleStepCountsTime : Obligations.IdleStepCountsTime := by
  unfold Obligations.IdleStepCountsTime
  refine ⟨fun s hp hoff => ?_, fun s hp hoff hr => ?_⟩
  · rw [step_idle hp, State.idleTick_of_off hoff]
  · obtain ⟨htime, hts, hmem, hsl⟩ := State.idleTick_counts hoff hr
    have hpend : s.idleTick.pending = [] := ((State.Keeps.refl s).idleTick).pendingEq.trans hp
    exact ⟨_, step_idle hp, htime, hpend, hts, hmem, hsl⟩

end Sys2Proof.Machine
end

section
/-! Reset values of the queues' states. -/

namespace Sys2Proof.Machine

-- Each theorem in turn: side by side they would reserve more stacks than a check has memory for.
set_option Elab.async false

/-- A word of the queues' block takes its reset value from the table of a queue. -/
theorem resetNat_queue (d : Dev) {o : Nat} (h4 : o % 4 = 0) (h0 : 0x40000 ≤ o) (h1 : o < 0x80000) :
    resetNat d o = ((findRow queueRows (o % 32)).map fun i => i.acc.rst).getD 0 := by
  have hr : regInfo o = findRow queueRows (o % 32) := by
    unfold regInfo
    rw [if_neg (by omega), if_neg (by simp only [Bool.and_eq_true, decide_eq_true_eq]; omega),
      if_pos (by simp only [Bool.and_eq_true, decide_eq_true_eq]; omega)]
  unfold resetNat
  simp only [Reg.TILE_ID, Reg.BEAT_CFG, Reg.SB_UID, Reg.FUSE_SEC, Reg.DBG_STATE, Bool.and_eq_true, Bool.or_eq_true, decide_eq_true_eq,
    beq_iff_eq]
  iterate 12 rw [if_neg (by omega)]
  rw [hr]
  cases findRow queueRows (o % 32) <;> rfl

/-- Every queue is DISABLED at reset (R307). -/
theorem queueState_reset {q : Nat} (hq : q < 8192) : State.reset.fld (Reg.QUEUE_STATE_STATE q) = 0 := by
  have hw : resetWord State.reset.dev (0x40000 + 32 * q + 0x4) = 0 := by
    have hm : (0x40000 + 32 * q + 0x4) % 32 = 4 := by omega
    unfold resetWord
    rw [resetNat_queue _ (by omega) (by omega) (by omega), hm]
    rfl
  have hr : State.reset.rd (0x40000 + 32 * q + 0x4) = 0 := hw
  unfold State.fld
  rw [hr]
  rfl

/-- Settles O3: no word is written at reset, so every word reads its value from the tables. -/
theorem resetHoldsSpecValues : Obligations.ResetHoldsSpecValues := by
  unfold Obligations.ResetHoldsSpecValues
  refine ⟨?_, ?_, ?_, ?_, ?_, ?_, ?_, ?_, ?_, fun q hq => queueState_reset hq, rfl, rfl⟩ <;> decide +kernel

end Sys2Proof.Machine
end

section
/-! RESET_HOLD over states that no run reaches (R13, R151): a cluster's record under a number that no site has. -/

namespace Sys2Proof.Machine

-- Each theorem in turn: side by side they would reserve more stacks than a check has memory for.
set_option Elab.async false

/-- A tile in AON with a cluster recorded as site 64, past the last one: `CL_RETIRED_UNITS` of it is an offset that no register occupies,
here with the bit of array 0 set, and `ARR_STATUS` of its array 0 is the offset of edge 1's `LINK_CTL`. -/
def strayCluster : State :=
  { State.reset with dev := { State.reset.dev with sbClk := true }, clusters := [(64, {})], regs := [(Reg.CL_RETIRED_UNITS 64 |>.off, 2)] }

/-- A broadcast RESET_HOLD of the package controller. -/
def holdFrame : Frame := { dst := 0xFF, src := 0x00, payload := [] }

theorem strayCluster_hears_holdFrame : strayCluster.hears holdFrame ∧ holdFrame.payload = [] ∧ resetSource holdFrame = true := by
  refine ⟨⟨?_, .inl ?_⟩, ?_, ?_⟩ <;> decide +kernel

/-- `LINK_CTL` of edge 1 has TILE scope, is no array's status word, and does not hold its reset value afterwards. -/
theorem strayCluster_linkCtl : hasScope .tile (Reg.LINK_CTL 1) = true ∧ Reg.LINK_CTL 1 ≠ Reg.BEAT_CFG
    ∧ (∀ (c : Site) (a : Fin 4), Reg.LINK_CTL 1 ≠ Reg.ARR_STATUS c a)
    ∧ (strayCluster.after (.resetHold holdFrame)).rd (Reg.LINK_CTL 1) ≠ resetWord strayCluster.dev (Reg.LINK_CTL 1) := by
  refine ⟨by decide +kernel, by decide, fun c a => ?_, by decide +kernel⟩
  have hc := c.isLt
  simp only [Reg.LINK_CTL, Reg.ARR_STATUS, edgeBlk, clBlk, ne_eq]
  omega

/-- Refutes O6, in its clause on RESET_HOLD: over all states a cluster may be recorded under a number that no site has, and the reset then
shows the status of its retired arrays in words that belong to other units. -/
theorem not_releaseAndResetHold : ¬ Obligations.ReleaseAndResetHold := by
  unfold Obligations.ReleaseAndResetHold
  rintro ⟨-, -, -, -, hhold⟩
  obtain ⟨hh, hp, hs⟩ := strayCluster_hears_holdFrame
  obtain ⟨htile, hbeat, harr, hne⟩ := strayCluster_linkCtl
  obtain ⟨-, -, -, -, -, -, hregs, -⟩ := (hhold strayCluster holdFrame hh hp hs).after
  exact hne (hregs _ (.inl htile) hbeat fun c a _ => harr c a)

end Sys2Proof.Machine
end

section
/-! A flash reply longer than a KiB (R386, R426): the unit before its second KiB carries poison bits of its own. -/

namespace Sys2Proof.Machine

-- Each theorem in turn: side by side they would reserve more stacks than a check has memory for.
set_option Elab.async false

/-- A MEM_DATA of 1,040 B, clean in its AUX; the unit before its second KiB names line 0 of it as poisoned. -/
def latePoison : GMsg := { vch := 0, ty := 3, dst := 0, aux := 0, data := List.replicate 1024 0 ++ [1] ++ List.replicate 15 0 }

/-- The boot ROM at step 7, with `latePoison` waiting. -/
def bodyFromPoison : State :=
  { (State.reset.setFld Reg.TILE_STATE_STATE tsBootRom).setFld Reg.BOOT_STATUS_STEP 7 with inbox := [latePoison] }

/-- The premises of the clause on the body's data. -/
theorem bodyFromPoison_runs : bodyFromPoison.romRuns 7 ∧ bodyFromPoison.flashReply = some latePoison ∧ bits latePoison.aux.toNat 48 16 = 0 := by
  refine ⟨⟨?_, ?_, ?_, ?_, ?_⟩, ?_, ?_⟩ <;> decide +kernel

/-- The step fails and enters MONITOR. -/
theorem ts_bodyFromPoison : (bodyFromPoison.after (.bootRomStep (.data []))).ts = tsMonitor := by
  decide +kernel

/-- Refutes O7, in its clause on the body's data: it excludes poison in the reply's AUX alone, and a reply longer than a KiB carries poison
bits in its data as well (`memPoison`). -/
theorem not_bootRomSteps : ¬ Obligations.BootRomSteps := by
  unfold Obligations.BootRomSteps
  rintro ⟨-, -, -, -, -, -, -, -, -, -, -, hbody, -⟩
  obtain ⟨hr, hm, hclean⟩ := bodyFromPoison_runs
  obtain ⟨-, -, hts, -⟩ := (hbody bodyFromPoison [] hr fun m h => by rw [hm] at h; cases h; exact hclean).after
  rw [ts_bodyFromPoison] at hts
  cases hts

end Sys2Proof.Machine
end

section
/-! A frame that the responder hears (R405, R412, R413): what every frame does before its type acts. -/

namespace Sys2Proof.Machine

-- Each theorem in turn: side by side they would reserve more stacks than a check has memory for.
set_option Elab.async false

/-- The words that an intact frame may change before its type acts: counts of the sideband, and comparator 3 with what it wakes. -/
abbrev hearWord (o : Nat) : Prop := o = 0x10070 ∨ o = 0x20020 ∨ o = 0x2000C ∨ o = 0x580010 ∨ o = 0x580020 ∨ o = 0x58002C

/-- From `s` to `t` at most two frames joined the queue, and nothing but `hearWord`s changed that the frames' rows use. -/
structure State.HearFrame (s t : State) : Prop where
  regs : ∀ o, ¬ hearWord o → t.rd o = s.rd o
  sleep : s.sleep < 2 → t.sleep < 2
  clk : s.sleep < 2 → t.clk = s.clk
  phase : t.sb.phase = s.sb.phase
  mem : t.pkgMem = s.pkgMem
  poison : t.poison = s.poison

namespace State

variable {s₀ s t : State}

namespace HearFrame

theorem refl (s : State) : s.HearFrame s := ⟨fun _ _ => rfl, id, fun _ => rfl, rfl, rfl, rfl⟩

theorem trans (h : s₀.HearFrame s) (k : s.HearFrame t) : s₀.HearFrame t :=
  ⟨fun o ho => (k.regs o ho).trans (h.regs o ho), k.sleep ∘ h.sleep, fun hs => (k.clk (h.sleep hs)).trans (h.clk hs),
    k.phase.trans h.phase, k.mem.trans h.mem, k.poison.trans h.poison⟩

theorem ite {c : Prop} [Decidable c] (hs : s₀.HearFrame s) (ht : s₀.HearFrame t) : s₀.HearFrame (if c then s else t) := by
  split <;> assumption

/-- A write of a word that is no sleep state. -/
theorem wr {o : Nat} (h : s₀.HearFrame s) (v : Word) (ho : hearWord o) (hn : o ≠ 0x20020) : s₀.HearFrame (s.wr o v) := by
  refine h.trans ⟨fun p hp => rd_wr_other _ _ fun e => hp (e ▸ ho), fun hs => ?_, fun _ => rfl, rfl, rfl, rfl⟩
  unfold State.sleep at *
  rwa [fld_wr_other _ _ (Ne.symm hn)]

theorem count {f : Fld} (h : s₀.HearFrame s) (n : Nat) (hf : hearWord f.off ∧ f.off ≠ 0x20020 := by decide) :
    s₀.HearFrame (s.count f n) := h.wr _ hf.1 hf.2
theorem setFlag {f : Fld} (h : s₀.HearFrame s) (b : Bool) (hf : hearWord f.off ∧ f.off ≠ 0x20020 := by decide) :
    s₀.HearFrame (s.setFlag f b) := h.wr _ hf.1 hf.2
theorem setFld {f : Fld} (h : s₀.HearFrame s) (v : Nat) (hf : hearWord f.off ∧ f.off ≠ 0x20020 := by decide) :
    s₀.HearFrame (s.setFld f v) := h.wr _ hf.1 hf.2

theorem sbQueue (h : s₀.HearFrame s) (f : TxFrame) : s₀.HearFrame (s.sbQueue f) := by
  unfold State.sbQueue
  exact .ite h (.ite (h.count _) (h.trans ⟨fun _ _ => rfl, id, fun _ => rfl, rfl, rfl, rfl⟩))

/-- A wake condition abandons an entry to sleep. -/
theorem wakeBy (h : s₀.HearFrame s) (hs : s₀.sleep < 2) (n : Nat) : s₀.HearFrame (s.wakeBy n) := by
  have hs' := h.sleep hs
  unfold State.wakeBy
  by_cases h1 : s.sleep = 1
  · rw [if_pos h1]
    have hsl : (((s.setFld Reg.PWR_SLEEP_STATE 0).setFld Reg.PWR_SLEEP_LAST 2).setFld Reg.PWR_SLEEP_WAKE_SRC n).sleep = 0 := by
      have ha : apart Reg.PWR_SLEEP_WAKE_SRC Reg.PWR_SLEEP_STATE := .inr (by decide)
      have hb : apart Reg.PWR_SLEEP_LAST Reg.PWR_SLEEP_STATE := .inr (by decide)
      unfold State.sleep
      rw [fld_setFld_of_apart _ _ ha, fld_setFld_of_apart _ _ hb, fld_setFld_same _ _ (by decide), Nat.zero_mod]
    have h1 : s₀.HearFrame (((s.setFld Reg.PWR_SLEEP_STATE 0).setFld Reg.PWR_SLEEP_LAST 2).setFld Reg.PWR_SLEEP_WAKE_SRC n) := by
      refine h.trans ⟨fun o ho => ?_, fun _ => by omega, fun _ => rfl, rfl, rfl, rfl⟩
      have hne : o ≠ 0x20020 := fun e => ho (.inr (.inl e))
      rw [rd_setFld_other _ _ hne, rd_setFld_other _ _ hne, rd_setFld_other _ _ hne]
    exact h1.setFld _
  · rw [if_neg h1, if_neg (by omega)]
    exact h

theorem cmpFire3 (h : s₀.HearFrame s) (hs : s₀.sleep < 2) : s₀.HearFrame (s.cmpFire 3) := by
  unfold State.cmpFire
  have hw : s₀.HearFrame (if s.flag (Reg.AON_CMP_WAKE 3) then (s.setFlag (Reg.AON_CMP_FIRED 3) true).wakeBy 3
      else s.setFlag (Reg.AON_CMP_FIRED 3) true) := .ite ((h.setFlag _).wakeBy hs _) (h.setFlag _)
  exact .ite (.ite (hw.sbQueue _) hw) h

theorem sbHear (hs : s.sleep < 2) (ty : Nat) (f : Frame) : s.HearFrame (s.sbHear ty f) := by
  unfold State.sbHear
  extract_lets own s1 s2
  have h1 : s.HearFrame s1 := .ite (((refl s).sbQueue _).count _) (refl s)
  have h2 : s.HearFrame s2 := .ite (h1.count _) h1
  exact .ite (h2.cmpFire3 hs) h2

theorem sameMem (h : s.HearFrame t) : s.sameMem t := ⟨fun _ => by rw [h.mem], h.poison⟩

theorem fld (h : s.HearFrame t) {f : Fld} (hf : ¬ hearWord f.off) : t.fld f = s.fld f := by
  unfold State.fld
  rw [h.regs _ hf]

theorem fw (h : s.HearFrame t) (hf : s.fw = true) : t.fw = true := by
  have hts : t.ts = s.ts := h.fld (by decide)
  have hs : s.sleep < 2 := by simp_all [State.fw, State.alive]
  have hc := h.clk hs
  have ht := h.sleep hs
  simp_all [State.fw, State.alive]

end HearFrame

theorem sleep_of_fw (h : s.fw = true) : s.sleep < 2 := by
  simp_all [State.fw, State.alive]

/-- A frame that is heard, with the length and the source that its type wants. -/
theorem sbFrame_of_hears {f : Frame} {ty len : Nat} {ok : Bool} {act : State → State} (h : s.hears f) (hl : f.payload.length = len)
    (hok : ok = true) : s.sbFrame ty len ok f act = act (s.sbHear ty f) := by
  obtain ⟨hon, hd⟩ := h
  have hd' : ((s.sbHeld && f.dst.toNat == s.fld Reg.SB_ADDR_ADDR) || f.dst.toNat == 0xFF) = true := by
    obtain hd | ⟨hh, hd⟩ := hd
    · rw [hd]; simp
    · rw [hh, hd]; simp
  unfold State.sbFrame
  rw [hon, hd']
  simp [hl, hok]

/-! ## The queue of frames -/

theorem sbQueue_length (f : TxFrame) : (s.sbQueue f).sb.txq.length ≤ s.sb.txq.length + 1 := by
  unfold State.sbQueue
  split
  · omega
  · split
    · exact Nat.le_succ _
    · simp

theorem mem_sbQueue {f : TxFrame} (hc : f.cause = 0) (hl : s.sb.txq.length < 4) : f ∈ (s.sbQueue f).sb.txq := by
  unfold State.sbQueue
  rw [if_neg (by simp [hc]), if_neg (by omega)]
  simp

theorem wakeBy_sb (n : Nat) : (s.wakeBy n).sb = s.sb := by
  unfold State.wakeBy
  dsimp only
  split
  · rfl
  · split
    · unfold State.wakeRails State.moveRequest
      rfl
    · rfl

/-- A heard frame queues at most two: a defence of the address and an alert. -/
theorem sbHear_length (ty : Nat) (f : Frame) : (s.sbHear ty f).sb.txq.length ≤ s.sb.txq.length + 2 := by
  have hfire : ∀ u : State, (u.cmpFire 3).sb.txq.length ≤ u.sb.txq.length + 1 := fun u => by
    have hw : ∀ c : Prop, [Decidable c] → (if c then (u.setFlag (Reg.AON_CMP_FIRED 3) true).wakeBy 3
        else u.setFlag (Reg.AON_CMP_FIRED 3) true).sb = u.sb := fun c _ => by
      split
      · exact wakeBy_sb 3
      · rfl
    unfold State.cmpFire
    dsimp only
    split
    · split
      · exact (sbQueue_length _).trans (by rw [hw])
      · rw [hw]; omega
    · omega
  unfold State.sbHear
  extract_lets own s1 s2
  have h1 : s1.sb.txq.length ≤ s.sb.txq.length + 1 := by
    unfold s1
    split
    · exact sbQueue_length _
    · omega
  have h2 : s2.sb = s1.sb := by
    unfold s2
    split <;> rfl
  split
  · exact (hfire s2).trans (by rw [h2]; omega)
  · rw [h2]; omega

end State

end Sys2Proof.Machine
end

section
/-! A primary's release of the other tiles (R424): the phase that it goes to, and what `RST_LOG` records. -/

namespace Sys2Proof.Machine

-- Each theorem in turn: side by side they would reserve more stacks than a check has memory for.
set_option Elab.async false

namespace State

variable {s t : State}

/-- The phase after the last drop was asked, or the next one is. -/
theorem sbQueue_phase (f : TxFrame) : (s.sbQueue f).sb.phase = s.sb.phase := by
  unfold State.sbQueue
  split
  · rfl
  · split <;> rfl

theorem relNext_phase (left : List Nat) : (s.relNext left).sb.phase = phaseNext left := by
  cases left with
  | nil => rfl
  | cons a l => exact sbQueue_phase _

/-- The phase after a drop has answered. -/
def askNext (left marked : List Nat) : RelPhase :=
  match left with
  | a :: r => .asking a r marked
  | [] => phaseNext (marked.mergeSort (· ≤ ·))

theorem relAsk_phase (left marked : List Nat) : (s.relAsk left marked).sb.phase = askNext left marked := by
  cases left with
  | nil => exact relNext_phase _
  | cons a l => exact sbQueue_phase _

/-- The parts that the rows of the release never touch. -/
theorem sbQueue_rd {o : Nat} (f : TxFrame) (ho : o ≠ 0x580020) : (s.sbQueue f).rd o = s.rd o := by
  unfold State.sbQueue
  split
  · rfl
  · split
    · exact rd_count_other _ _ ho
    · rfl

theorem sbQueue_mem (f : TxFrame) : s.sameMem (s.sbQueue f) := by
  unfold State.sbQueue
  split
  · exact ⟨fun _ => rfl, rfl⟩
  · split <;> exact ⟨fun _ => rfl, rfl⟩

theorem relNext_rd {o : Nat} (left : List Nat) (ho : o ≠ 0x580020) : (s.relNext left).rd o = s.rd o := by
  cases left with
  | nil => rfl
  | cons a l => exact sbQueue_rd (s := { s with sb := { s.sb with phase := .health a l } }) _ ho

theorem relNext_mem (left : List Nat) : s.sameMem (s.relNext left) := by
  cases left with
  | nil => exact ⟨fun _ => rfl, rfl⟩
  | cons a l => exact sbQueue_mem (s := { s with sb := { s.sb with phase := .health a l } }) _

theorem relAsk_rd {o : Nat} (left marked : List Nat) (ho : o ≠ 0x580020) : (s.relAsk left marked).rd o = s.rd o := by
  cases left with
  | nil => exact relNext_rd _ ho
  | cons a l => exact sbQueue_rd (s := { s with sb := { s.sb with phase := .asking a l marked } }) _ ho

theorem relAsk_mem (left marked : List Nat) : s.sameMem (s.relAsk left marked) := by
  cases left with
  | nil => exact relNext_mem _
  | cons a l => exact sbQueue_mem (s := { s with sb := { s.sb with phase := .asking a l marked } }) _

/-! ## RST_LOG -/

/-- The entry that a record of a tile uses. -/
theorem rstRecord_eq {addr result : Nat} (h : rstRoom s addr) : ∃ i, i < 8 ∧
    s.rstRecord addr result = (s.setFld (Reg.RST_LOG_ADDR i) addr).setFld (Reg.RST_LOG_RESULT i) result := by
  unfold State.rstRecord
  generalize hi : ((List.range 8).find? fun i => s.fld (Reg.RST_LOG_ADDR i) == addr).getD s.rstCount = i
  have hlt : i < 8 := by
    cases hf : (List.range 8).find? fun i => s.fld (Reg.RST_LOG_ADDR i) == addr with
    | some j =>
      rw [hf, Option.getD_some] at hi
      exact hi ▸ List.mem_range.mp (List.mem_of_find?_eq_some hf)
    | none =>
      rw [hf, Option.getD_none] at hi
      rw [List.find?_eq_none] at hf
      obtain ⟨j, hj, he⟩ | hc := h
      · exact absurd he (by simpa using hf j (List.mem_range.mpr hj))
      · exact hi ▸ hc
  exact ⟨i, hlt, if_neg (by omega)⟩

theorem rstHolds_rstRecord {addr result : Nat} (h : rstRoom s addr) (ha : addr < 256) (hr : result < 8) :
    rstHolds (s.rstRecord addr result) addr result := by
  obtain ⟨i, hi, he⟩ := rstRecord_eq (result := result) h
  refine ⟨i, hi, ?_, ?_⟩
  · rw [he, fld_setFld_apart _ _ (f := Reg.RST_LOG_RESULT i) (g := Reg.RST_LOG_ADDR i) rfl (by simp) (by simp), fld_setFld_same _ _ (by simp)]
    exact Nat.mod_eq_of_lt ha
  · rw [he, fld_setFld_same _ _ (by simp)]
    exact Nat.mod_eq_of_lt hr

theorem rstHolds_of_rd {addr result : Nat} (h : rstHolds s addr result) (hr : ∀ i, i < 8 → t.rd (Reg.RST_LOG i) = s.rd (Reg.RST_LOG i)) :
    rstHolds t addr result := by
  obtain ⟨i, hi, ha, hres⟩ := h
  refine ⟨i, hi, ?_, ?_⟩
  · unfold State.fld at *
    rw [hr i hi, ha]
  · unfold State.fld at *
    rw [hr i hi, hres]

theorem rstRecord_sb (addr result : Nat) : (s.rstRecord addr result).sb = s.sb := by
  unfold State.rstRecord
  dsimp only
  split <;> rfl

theorem rstRecord_mem (addr result : Nat) : s.sameMem (s.rstRecord addr result) := by
  unfold State.rstRecord
  dsimp only
  split <;> exact ⟨fun _ => rfl, rfl⟩

theorem sameMem.trans {u : State} (h : s.sameMem t) (k : t.sameMem u) : s.sameMem u :=
  ⟨fun a => (k.1 a).trans (h.1 a), k.2.trans h.2⟩

theorem rstLog_ne {i : Nat} (hi : i < 8) : Reg.RST_LOG i ≠ 0x580020 := by
  simp only [Reg.RST_LOG, ne_eq]
  omega

theorem rstLog_apart (i : Nat) : ¬ hearWord (Reg.RST_LOG i) := by
  have h : Reg.RST_LOG i = 6029696 + 4 * i := rfl
  rw [h]
  unfold hearWord
  omega

theorem rstRoom_of_hear {addr : Nat} (h : s.HearFrame t) (hr : rstRoom s addr) : rstRoom t addr := by
  have he : ∀ i, i < 8 → t.fld (Reg.RST_LOG_ADDR i) = s.fld (Reg.RST_LOG_ADDR i) := fun i _ =>
    h.fld (f := Reg.RST_LOG_ADDR i) (rstLog_apart i)
  have hc : t.rstCount = s.rstCount := by
    unfold State.rstCount
    refine congrArg List.length (List.filter_congr fun i hi => ?_)
    rw [he i (List.mem_range.mp hi)]
  obtain ⟨i, hi, ha⟩ | hlt := hr
  · exact .inl ⟨i, hi, (he i hi).trans ha⟩
  · exact .inr (by rw [hc]; exact hlt)

/-- The tile has its entry, and the primary goes on. -/
theorem record_relNext {addr result : Nat} (left : List Nat) (h : rstRoom s addr) (ha : addr < 256) (hr : result < 8) :
    ((s.rstRecord addr result).relNext left).sb.phase = phaseNext left ∧ rstHolds ((s.rstRecord addr result).relNext left) addr result :=
  ⟨relNext_phase _, rstHolds_of_rd (rstHolds_rstRecord h ha hr) fun _ hi => relNext_rd _ (rstLog_ne hi)⟩

/-- RESET_RELEASE goes to a tile that waits in AON. -/
theorem releaseTo (left : List Nat) (b : Byte) (h : rstRoom s b.toNat) (hl : s.sb.txq.length < 4) :
    let t := (({ s with sb := { s.sb with phase := .waiting b.toNat left } } : State).rstRecord b.toNat 0).sbQueue
      { prio := 0, ty := 0x11, dst := b, payload := [] }
    t.sb.phase = .waiting b.toNat left ∧ rstHolds t b.toNat 0 ∧ (∃ x ∈ t.sb.txq, x.ty = 0x11 ∧ x.dst = b) ∧ s.sameMem t := by
  generalize hu : ({ s with sb := { s.sb with phase := .waiting b.toNat left } } : State) = u
  have hroom : rstRoom u b.toNat := hu ▸ h
  have hlen : u.sb.txq.length < 4 := hu ▸ hl
  have hmem : s.sameMem u := hu ▸ ⟨fun _ => rfl, rfl⟩
  have hph : u.sb.phase = .waiting b.toNat left := hu ▸ rfl
  refine ⟨?_, ?_, ⟨_, mem_sbQueue rfl (by rw [rstRecord_sb]; exact hlen), rfl, rfl⟩, ?_⟩
  · rw [sbQueue_phase, rstRecord_sb, hph]
  · exact rstHolds_of_rd (rstHolds_rstRecord hroom b.isLt (by decide)) fun i hi => sbQueue_rd _ (rstLog_ne hi)
  · exact (hmem.trans (rstRecord_mem _ _)).trans (sbQueue_mem _)

end State

open State in
/-- Settles O8: a heard frame leaves the phase and `RST_LOG` to its type's row (`State.HearFrame`). -/
theorem primaryReleasesTiles : Obligations.PrimaryReleasesTiles := by
  unfold Obligations.PrimaryReleasesTiles
  have hbyte : ∀ b : Byte, b.toNat < 256 := fun b => b.isLt
  have hresult : ∀ n, resultOf n < 8 := fun n => by unfold resultOf; split_ifs <;> decide
  refine ⟨?_, ?_, ?_, ?_, ?_, ?_, ?_⟩
  · intro s f left marked hh hl hfw hp
    have hu := HearFrame.sbHear (sleep_of_fw hfw) 0x03 f
    refine ⟨_, congrArg Host.Outcome.next (sbFrame_of_hears hh hl rfl), ?_⟩
    have hph := hu.phase.trans hp
    rw [if_pos (hu.fw hfw)]
    simp only [onCapReply, hph, ne_eq, not_true_eq_false, if_false]
    refine ⟨?_, ?_, hu.sameMem.trans (relAsk_mem _ _)⟩
    · rw [relAsk_phase]
      simp only [Bool.and_eq_true, beq_iff_eq, and_assoc]
      rfl
    · unfold State.ts State.fld
      rw [relAsk_rd _ _ (by decide), hu.regs _ (by decide)]
  · intro s f left hh hl hfw hp hs hq h0 hr
    have hu := HearFrame.sbHear (sleep_of_fw hfw) 0x42 f
    refine ⟨_, congrArg Host.Outcome.next (sbFrame_of_hears hh hl rfl), ?_⟩
    have hph := hu.phase.trans hp
    rw [if_pos (hu.fw hfw)]
    simp only [onHealthReply, hph, ne_eq, not_true_eq_false, if_false, if_pos hs]
    obtain ⟨hphase, hrst, hx, hm⟩ := releaseTo left f.src (rstRoom_of_hear hu hr) (lt_of_le_of_lt (sbHear_length 0x42 f) (by omega))
    exact ⟨hphase, hrst, hx, hu.sameMem.trans hm⟩
  · intro s f left hh hl hfw hp hs h0 hr
    have hu := HearFrame.sbHear (sleep_of_fw hfw) 0x42 f
    refine ⟨_, congrArg Host.Outcome.next (sbFrame_of_hears hh hl rfl), ?_⟩
    have hph := hu.phase.trans hp
    rw [if_pos (hu.fw hfw)]
    simp only [onHealthReply, hph, ne_eq, not_true_eq_false, if_false, if_neg hs]
    exact record_relNext left (rstRoom_of_hear hu hr) (hbyte _) (by decide)
  · intro s f left hh hl hfw hlead hp h0 hr
    have hu := HearFrame.sbHear (sleep_of_fw hfw) 0x12 f
    refine ⟨_, congrArg Host.Outcome.next (sbFrame_of_hears hh hl rfl), ?_⟩
    have hph := hu.phase.trans hp
    have hlead' : (s.sbHear 0x12 f).leads = true := by
      unfold State.leads State.flag at *
      rw [hu.fld (by decide), hu.fld (by decide), hlead]
    rw [if_pos (by rw [hu.fw hfw, hlead', Bool.and_self])]
    simp only [onBootStatus, hph, if_true]
    exact record_relNext left (rstRoom_of_hear hu hr) (hbyte _) (hresult _)
  · intro s a left hfw hp h0 ha hr
    refine ⟨(s.rstRecord a 4).relNext left, ?_, record_relNext left hr ha (by decide)⟩
    simp only [exec, execFollowerReportTimeout, hfw, hp, if_true]
  · intro s a left hfw hp
    refine ⟨s.relNext left, ?_, relNext_phase _, fun i hi => ?_⟩
    · simp only [exec, execFollowerReportTimeout, hfw, hp, if_true]
    · unfold State.fld
      rw [relNext_rd _ (rstLog_ne hi)]
  · intro s a left marked hfw hp
    refine ⟨s.relAsk left marked, ?_, relAsk_phase _ _⟩
    simp only [exec, execFollowerReportTimeout, hfw, hp, if_true]

end Sys2Proof.Machine
end

section
/-! The sideband's frames (R407 to R414): what hearing, queueing, recording and claiming leave as it was. -/

namespace Sys2Proof.Machine

-- Each theorem in turn: side by side they would reserve more stacks than a check has memory for.
set_option Elab.async false

/-- From `s` to `t` no control-space word but those of `p`, no cluster and no byte of package memory changes. -/
structure State.SbKeeps (p : Nat → Prop) (s t : State) : Prop where
  regs : s.sameRegs t p
  clusters : t.clusters = s.clusters
  mem : t.pkgMem = s.pkgMem
  poison : t.poison = s.poison

/-- The word that counts the frames for which the queue had no room. -/
abbrev dropWord (o : Nat) : Prop := o = 0x580020

/-- The words that comparator 3 may change as it fires. -/
abbrev fireWord (o : Nat) : Prop := o = 0x10070 ∨ o = 0x20020 ∨ o = 0x2000C ∨ o = 0x580020

/-- The words that a candidate's failure may change. -/
abbrev claimWord (o : Nat) : Prop := o = 0x10000 ∨ o = 0x580008 ∨ o = 0x580020

/-- The words of `BOOT_PEER`. -/
abbrev peerWord (o : Nat) : Prop := ∃ i, i < 32 ∧ o = 0x5C0200 + 0x4 * i

namespace State

variable {p : Nat → Prop} {s₀ s t u : State}

namespace SbKeeps

theorem refl (s : State) : SbKeeps p s s := ⟨fun _ _ => rfl, rfl, rfl, rfl⟩

theorem trans (h : SbKeeps p s₀ s) (k : SbKeeps p s t) : SbKeeps p s₀ t :=
  ⟨fun o ho => (k.regs o ho).trans (h.regs o ho), k.clusters.trans h.clusters, k.mem.trans h.mem, k.poison.trans h.poison⟩

theorem mono {q : Nat → Prop} (h : SbKeeps p s t) (hpq : ∀ o, p o → q o) : SbKeeps q s t :=
  ⟨fun o ho => h.regs o fun hp => ho (hpq o hp), h.clusters, h.mem, h.poison⟩

theorem ite {c : Prop} [Decidable c] (hs : SbKeeps p s₀ s) (ht : SbKeeps p s₀ t) : SbKeeps p s₀ (if c then s else t) := by
  split <;> assumption

theorem wr {o : Nat} (h : SbKeeps p s₀ s) (v : Word) (ho : p o) : SbKeeps p s₀ (s.wr o v) :=
  h.trans ⟨fun _ hp => rd_wr_other _ _ fun e => hp (e ▸ ho), rfl, rfl, rfl⟩

theorem setFld {f : Fld} (h : SbKeeps p s₀ s) (v : Nat) (hf : p f.off) : SbKeeps p s₀ (s.setFld f v) := h.wr _ hf
theorem setFlag {f : Fld} (h : SbKeeps p s₀ s) (b : Bool) (hf : p f.off) : SbKeeps p s₀ (s.setFlag f b) := h.wr _ hf
theorem count {f : Fld} (h : SbKeeps p s₀ s) (n : Nat) (hf : p f.off) : SbKeeps p s₀ (s.count f n) := h.wr _ hf

theorem sbQueue (h : SbKeeps p s₀ s) (f : TxFrame) (hp : p 0x580020) : SbKeeps p s₀ (s.sbQueue f) := by
  unfold State.sbQueue
  exact .ite h (.ite (h.count _ hp) (h.trans ⟨fun _ _ => rfl, rfl, rfl, rfl⟩))

theorem defend (h : SbKeeps p s₀ s) (hp : p 0x580020) (hc : p 0x58002C) : SbKeeps p s₀ s.defend := (h.sbQueue _ hp).count _ hc

theorem wakeBy (h : SbKeeps p s₀ s) (n : Nat) (hf : ∀ o, fireWord o → p o) : SbKeeps p s₀ (s.wakeBy n) := by
  have hsleep : p 0x20020 := hf _ (.inr (.inl rfl))
  unfold State.wakeBy
  have hw (u : State) : SbKeeps p u u.wakeRails := by
    unfold State.wakeRails State.moveRequest
    exact ⟨fun _ _ => rfl, rfl, rfl, rfl⟩
  refine .ite ((((h.setFld _ hsleep).setFld _ hsleep).setFld _ hsleep).setFld _ (hf _ (.inr (.inr (.inl rfl))))) (.ite ?_ h)
  have hc (u : State) (c : Clk) : SbKeeps p u { u with clk := c } := ⟨fun _ _ => rfl, rfl, rfl, rfl⟩
  exact (((h.setFld _ hsleep).setFld _ hsleep).trans (hw _)).trans (hc _ _)

theorem cmpFire3 (h : SbKeeps p s₀ s) (hf : ∀ o, fireWord o → p o) : SbKeeps p s₀ (s.cmpFire 3) := by
  unfold State.cmpFire
  have h1 := h.setFlag (f := Reg.AON_CMP_FIRED 3) true (hf _ (.inl rfl))
  have h2 := SbKeeps.ite (c := s.flag (Reg.AON_CMP_WAKE 3) = true) (h1.wakeBy 3 hf) h1
  exact .ite (.ite (h2.sbQueue _ (hf _ (.inr (.inr (.inr rfl))))) h2) h

theorem peerRecord (h : SbKeeps p s₀ s) (a : Nat) (hp : ∀ o, peerWord o → p o) : SbKeeps p s₀ (s.peerRecord a) := by
  unfold State.peerRecord
  split
  · exact h
  · split
    case h_1 i hi =>
      have hw : p (0x5C0200 + 0x4 * i) := hp _ ⟨i, List.mem_range.mp (List.mem_of_find?_eq_some hi), rfl⟩
      exact (h.setFld _ hw).setFlag _ hw
    case h_2 => exact h

theorem nextCandidate (h : SbKeeps p s₀ s) (hp : ∀ o, claimWord o → p o) : SbKeeps p s₀ s.nextCandidate := by
  have haddr : p 0x580008 := hp _ (.inr (.inl rfl))
  unfold State.nextCandidate
  split
  · exact (h.setFld _ haddr).setFld _ haddr
  case h_2 c l _ =>
    extract_lets s1
    have hs : SbKeeps p s₀ s1 := (h.setFld _ haddr).setFld _ haddr
    have hc : SbKeeps p s1 { s1 with sb := { s1.sb with cands := l, window := false } } := ⟨fun _ _ => rfl, rfl, rfl, rfl⟩
    exact (hs.trans hc).sbQueue _ (hp _ (.inr (.inr rfl)))

theorem claimFail (h : SbKeeps p s₀ s) (hp : ∀ o, claimWord o → p o) : SbKeeps p s₀ s.claimFail := by
  unfold State.claimFail
  extract_lets _ s1 s2
  have h1 : SbKeeps p s₀ s1 := h.trans ⟨fun _ _ => rfl, rfl, rfl, rfl⟩
  have h2 : SbKeeps p s₀ s2 := .ite ((h1.setFlag _ (hp _ (.inr (.inl rfl)))).setFlag _ (hp _ (.inl rfl))) h1
  exact h2.nextCandidate hp

theorem claimSeen (h : SbKeeps p s₀ s) (f : Frame) (hp : ∀ o, claimWord o ∨ o = 0x58002C → p o) : SbKeeps p s₀ (s.claimSeen f) := by
  unfold State.claimSeen
  exact .ite (.ite (h.defend (hp _ (.inl (.inr (.inr rfl)))) (hp _ (.inr rfl))) (.ite (h.claimFail fun o ho => hp o (.inl ho)) h)) h

theorem fld (h : SbKeeps p s t) {f : Fld} (hf : ¬ p f.off) : t.fld f = s.fld f := by
  unfold State.fld
  rw [h.regs _ hf]

theorem flag (h : SbKeeps p s t) {f : Fld} (hf : ¬ p f.off) : t.flag f = s.flag f := by
  unfold State.flag
  rw [h.fld hf]

theorem rd64 (h : SbKeeps p s t) {o : Nat} (h0 : ¬ p o) (h4 : ¬ p (o + 4)) : t.rd64 o = s.rd64 o := by
  unfold State.rd64
  rw [h.regs _ h0, h.regs _ h4]

theorem sameMem (h : SbKeeps p s t) : s.sameMem t := ⟨fun _ => by rw [h.mem], h.poison⟩

end SbKeeps

/-! ## The sideband's own record -/

/-- From `s` to `t` the sideband's record changes in its queue alone. -/
def SbQueued (s t : State) : Prop := t.sb = { s.sb with txq := t.sb.txq }

theorem SbQueued.trans (h : SbQueued s t) (k : SbQueued t u) : SbQueued s u := by
  unfold SbQueued at *
  rw [k, h]

theorem SbQueued.of_eq (h : t.sb = s.sb) : SbQueued s t := by
  unfold SbQueued
  rw [h]

theorem sbQueue_queued (f : TxFrame) : SbQueued s (s.sbQueue f) := by
  unfold State.sbQueue
  split
  · rfl
  · split <;> rfl

theorem defend_queued : SbQueued s s.defend := (sbQueue_queued _).trans (.of_eq rfl)

theorem cmpFire3_queued : SbQueued s (s.cmpFire 3) := by
  unfold State.cmpFire
  extract_lets s1 s2
  have h2 : SbQueued s s2 := .of_eq (by
    unfold s2
    split
    · exact wakeBy_sb 3
    · rfl)
  split
  · split
    · exact h2.trans (sbQueue_queued _)
    · exact h2
  · rfl

theorem sbHear_queued (ty : Nat) (f : Frame) : SbQueued s (s.sbHear ty f) := by
  unfold State.sbHear
  extract_lets own s1 s2
  have h1 : SbQueued s s1 := by
    unfold s1
    split
    · exact defend_queued
    · rfl
  have h2 : SbQueued s s2 := by
    unfold s2
    split
    · exact h1.trans (.of_eq rfl)
    · exact h1
  split
  · exact h2.trans cmpFire3_queued
  · exact h2

/-! ## Hearing a frame -/

/-- What a heard frame does before comparator 3: the defence of the address, and the count of frames accepted. -/
theorem sbHear_keeps {f : Frame} (h : s.hears f) (ty : Nat) :
    SbKeeps fireWord ((if (s.sbHeld && f.src.toNat == s.fld Reg.SB_ADDR_ADDR && ty != 0x01) = true then s.defend else s).count
      Reg.SB_RX_OK_COUNT 1) (s.sbHear ty f) := by
  have hd : ((s.sbHeld && f.dst.toNat == s.fld Reg.SB_ADDR_ADDR) || f.dst.toNat == 0xFF) = true := by
    obtain hd | ⟨hh, hd⟩ := h.2
    · rw [hd]; simp
    · rw [hh, hd]; simp
  unfold State.sbHear
  extract_lets own s1 s2
  have h2 : s2 = s1.count Reg.SB_RX_OK_COUNT 1 := if_pos hd
  rw [h2]
  exact .ite ((SbKeeps.refl _).cmpFire3 fun _ => id) (.refl _)

/-- The words that a heard frame may change before its type acts. -/
theorem sbHear_words {f : Frame} (h : s.hears f) (ty : Nat) : SbKeeps hearWord s (s.sbHear ty f) :=
  SbKeeps.trans (.count (.ite ((SbKeeps.refl s).defend (by decide) (by decide)) (.refl s)) _ (by decide))
    ((sbHear_keeps h ty).mono fun o ho => by unfold fireWord hearWord at *; omega)

theorem sbHear_rxOk {f : Frame} (h : s.hears f) (ty : Nat) :
    (s.sbHear ty f).fld Reg.SB_RX_OK_COUNT = min (2 ^ 32 - 1) (s.fld Reg.SB_RX_OK_COUNT + 1) := by
  have hk : ∀ c : Prop, [Decidable c] → (if c then s.defend else s).fld Reg.SB_RX_OK_COUNT = s.fld Reg.SB_RX_OK_COUNT := fun c _ =>
    (SbKeeps.ite (p := fun o => o = 0x580020 ∨ o = 0x58002C) ((SbKeeps.refl s).defend (by decide) (by decide)) (.refl s)).fld (by decide)
  rw [(sbHear_keeps h ty).fld (by decide), fld_count_same (f := Reg.SB_RX_OK_COUNT) _ _ (by decide), hk]

/-- An ADDR_CLAIM contests nothing as it is heard. -/
theorem sbHear_claim_contest {f : Frame} (h : s.hears f) : (s.sbHear 0x01 f).fld Reg.SB_CONTEST_COUNT = s.fld Reg.SB_CONTEST_COUNT := by
  have hk := sbHear_keeps h 0x01
  rw [if_neg (by simp)] at hk
  exact (hk.fld (by decide)).trans (((SbKeeps.refl (p := (· = 0x580010)) s).count 1 rfl).fld (by decide))

end State
end Sys2Proof.Machine
end
section
/-! Claims, and the ends of attempts to send (R407, R409, R410, R412). -/

namespace Sys2Proof.Machine

-- Each theorem in turn: side by side they would reserve more stacks than a check has memory for.
set_option Elab.async false

namespace State

variable {s t u : State}

theorem nextCandidate_nil (h : s.sb.cands = []) : s.nextCandidate = (s.setFld Reg.SB_ADDR_STATE 3).setFld Reg.SB_ADDR_ADDR 0xFF := by
  unfold State.nextCandidate
  rw [h]

/-- The address as a claim begins with a candidate. -/
def claimStart (s : State) (c : Nat) : State := (s.setFld Reg.SB_ADDR_STATE 1).setFld Reg.SB_ADDR_ADDR c

theorem claimStart_state (c : Nat) : (s.claimStart c).fld Reg.SB_ADDR_STATE = 1 :=
  (fld_setFld_apart (f := Reg.SB_ADDR_ADDR) (g := Reg.SB_ADDR_STATE) _ c rfl (by decide) (by decide)).trans
    (fld_setFld_same (f := Reg.SB_ADDR_STATE) s 1 (by decide))

theorem claimStart_addr (c : Nat) : (s.claimStart c).fld Reg.SB_ADDR_ADDR = c % 256 := fld_setFld_same (f := Reg.SB_ADDR_ADDR) _ c (by decide)

theorem claimStart_lost (c : Nat) : (s.claimStart c).flag Reg.SB_ADDR_PRIMARY_LOST = s.flag Reg.SB_ADDR_PRIMARY_LOST := by
  unfold State.flag State.claimStart
  rw [fld_setFld_apart (f := Reg.SB_ADDR_ADDR) (g := Reg.SB_ADDR_PRIMARY_LOST) _ _ rfl (by decide) (by decide),
    fld_setFld_apart (f := Reg.SB_ADDR_STATE) (g := Reg.SB_ADDR_PRIMARY_LOST) _ _ rfl (by decide) (by decide)]

theorem claimStart_keeps (c : Nat) : SbKeeps (· = 0x580008) s (s.claimStart c) := 
  ((SbKeeps.refl (p := (· = 0x580008)) s).setFld (f := Reg.SB_ADDR_STATE) _ rfl).setFld (f := Reg.SB_ADDR_ADDR) _ rfl

/-- Another record of the sideband alone. -/
theorem keeps_withSb (u : State) (b : Sb) {p : Nat → Prop} : SbKeeps p u { u with sb := b } := ⟨fun _ _ => rfl, rfl, rfl, rfl⟩

theorem nextCandidate_cons {c : Nat} {l : List Nat} (h : s.sb.cands = c :: l) :
    s.nextCandidate = ({ s.claimStart c with sb := { s.sb with cands := l, window := false } } : State).sbQueue
      ((s.claimStart c).claimFrame true) := by
  unfold State.nextCandidate
  rw [h]
  rfl

/-- The words of the address and of the claim's fate are apart from the queue's count. -/
theorem fld_sbQueue {f : TxFrame} {g : Fld} (hg : g.off ≠ 0x580020) : (s.sbQueue f).fld g = s.fld g := by
  unfold State.fld
  rw [sbQueue_rd f hg]

/-- What the next candidate, or none, leaves in the address. -/
theorem nextCandidate_claims :
    s.nextCandidate.sb.cands = s.sb.cands.tail
      ∧ (s.sb.window = false → s.nextCandidate.sb.window = false)
      ∧ (s.sb.cands = [] → s.nextCandidate.fld Reg.SB_ADDR_STATE = 3 ∧ s.nextCandidate.fld Reg.SB_ADDR_ADDR = 0xFF)
      ∧ (∀ c l, s.sb.cands = c :: l → s.nextCandidate.fld Reg.SB_ADDR_STATE = 1 ∧ s.nextCandidate.fld Reg.SB_ADDR_ADDR = c % 256)
      ∧ s.nextCandidate.flag Reg.SB_ADDR_PRIMARY_LOST = s.flag Reg.SB_ADDR_PRIMARY_LOST := by
  cases hc : s.sb.cands with
  | nil =>
    rw [nextCandidate_nil hc]
    refine ⟨hc, id, fun _ => ⟨?_, fld_setFld_same (f := Reg.SB_ADDR_ADDR) _ 0xFF (by decide)⟩, fun _ _ h => (List.cons_ne_nil _ _ h.symm).elim, ?_⟩
    · rw [fld_setFld_apart (f := Reg.SB_ADDR_ADDR) (g := Reg.SB_ADDR_STATE) _ _ rfl (by decide) (by decide),
        fld_setFld_same (f := Reg.SB_ADDR_STATE) _ _ (by decide)]
      rfl
    · unfold State.flag
      rw [fld_setFld_apart (f := Reg.SB_ADDR_ADDR) (g := Reg.SB_ADDR_PRIMARY_LOST) _ _ rfl (by decide) (by decide),
        fld_setFld_apart (f := Reg.SB_ADDR_STATE) (g := Reg.SB_ADDR_PRIMARY_LOST) _ _ rfl (by decide) (by decide)]
  | cons c l =>
    rw [nextCandidate_cons hc]
    generalize hf : (s.claimStart c).claimFrame true = f
    have hsb := sbQueue_queued (s := { s.claimStart c with sb := { s.sb with cands := l, window := false } }) f
    have hk := keeps_withSb (p := fun _ => False) (s.claimStart c) { s.sb with cands := l, window := false }
    refine ⟨by rw [hsb]; rfl, fun _ => by rw [hsb], fun h => (List.cons_ne_nil _ _ h).elim, fun _ _ h => ?_, ?_⟩
    · obtain ⟨rfl, rfl⟩ := List.cons.inj h
      rw [fld_sbQueue (by decide), fld_sbQueue (by decide), hk.fld id, hk.fld id]
      exact ⟨claimStart_state c, claimStart_addr c⟩
    · unfold State.flag
      rw [fld_sbQueue (by decide), hk.fld id]
      exact claimStart_lost c

/-- A candidate's failure. -/
theorem claimFail_failed : s.claimFail.claimFailed s := by
  unfold State.claimFail
  extract_lets _ s1 s2
  have hsb : s2.sb = s1.sb := by
    unfold s2
    split <;> rfl
  obtain ⟨hcands, hwin, hnil, hcons, hlost⟩ := nextCandidate_claims (s := s2)
  have hc : s2.sb.cands = s.sb.cands := by rw [hsb]
  rw [hc] at hcands hnil hcons
  refine ⟨hwin (by rw [hsb]), hcands, ?_, fun ha hp => ?_⟩
  · split
    case h_1 he => exact hnil he
    case h_2 c l he => exact hcons c l he
  · have h2 : s2 = (s1.setFlag Reg.SB_ADDR_PRIMARY_LOST true).setFlag Reg.BEAT_CFG_MASTER false := if_pos ⟨ha, hp⟩
    have hm : SbKeeps (fun o => o = 0x580008 ∨ o = 0x580020) s2 s2.nextCandidate := by
      cases he : s2.sb.cands with
      | nil =>
        rw [nextCandidate_nil he]
        exact ((SbKeeps.refl s2).setFld _ (.inl rfl)).setFld _ (.inl rfl)
      | cons c l =>
        rw [nextCandidate_cons he]
        exact (((claimStart_keeps c).mono fun _ => .inl).trans (keeps_withSb _ _)).sbQueue _ (.inr rfl)
    rw [hlost, hm.flag (by decide), h2]
    refine ⟨?_, flag_setFlag_same (f := Reg.BEAT_CFG_MASTER) _ _ (by decide) rfl⟩
    have he : ((s1.setFlag Reg.SB_ADDR_PRIMARY_LOST true).setFlag Reg.BEAT_CFG_MASTER false).flag Reg.SB_ADDR_PRIMARY_LOST
        = (s1.setFlag Reg.SB_ADDR_PRIMARY_LOST true).flag Reg.SB_ADDR_PRIMARY_LOST :=
      SbKeeps.flag (p := (· = 0x10000)) ((SbKeeps.refl _).setFlag _ rfl) (by decide)
    exact he.trans (flag_setFlag_same (f := Reg.SB_ADDR_PRIMARY_LOST) _ _ (by decide) rfl)

/-- The failure of a candidate, told of a state before. -/
theorem claimFailed_of (h : t.claimFailed u) (hc : u.sb.cands = s.sb.cands) (ha : u.fld Reg.SB_ADDR_ADDR = s.fld Reg.SB_ADDR_ADDR)
    (hp : u.flag Reg.TILE_ID_PRIMARY = s.flag Reg.TILE_ID_PRIMARY) : t.claimFailed s := by
  unfold State.claimFailed at *
  rwa [hc, ha, hp] at h

/-! ## BOOT_PEER -/

theorem peerRecord_eq (a : Nat) :
    (s.peerHolds a ∧ s.peerRecord a = s) ∨
    (¬ s.peerHolds a ∧ (∀ i, i < 32 → s.flag (Reg.BOOT_PEER_VALID i) = true) ∧ s.peerRecord a = s) ∨
    ∃ i, i < 32 ∧ s.flag (Reg.BOOT_PEER_VALID i) = false
      ∧ s.peerRecord a = (s.setFld (Reg.BOOT_PEER_ADDR i) a).setFlag (Reg.BOOT_PEER_VALID i) true := by
  unfold State.peerRecord
  by_cases h : ((List.range 32).any fun i => s.flag (Reg.BOOT_PEER_VALID i) && s.fld (Reg.BOOT_PEER_ADDR i) == a) = true
  · rw [if_pos h]
    obtain ⟨i, hi, he⟩ := List.any_eq_true.mp h
    rw [Bool.and_eq_true, beq_iff_eq] at he
    exact .inl ⟨⟨i, List.mem_range.mp hi, he⟩, rfl⟩
  · rw [if_neg h]
    have hno : ¬ s.peerHolds a := fun ⟨i, hi, hv, he⟩ =>
      h (List.any_eq_true.mpr ⟨i, List.mem_range.mpr hi, by rw [hv, he, Bool.true_and, beq_self_eq_true]⟩)
    cases hf : (List.range 32).find? fun i => !s.flag (Reg.BOOT_PEER_VALID i) with
    | some i =>
      have hv := List.find?_some hf
      exact .inr (.inr ⟨i, List.mem_range.mp (List.mem_of_find?_eq_some hf), by simpa using hv, rfl⟩)
    | none =>
      rw [List.find?_eq_none] at hf
      exact .inr (.inl ⟨hno, fun i hi => by simpa using hf i (List.mem_range.mpr hi), rfl⟩)

theorem peerWord_apart {i j : Nat} (h : i ≠ j) : 0x5C0200 + 0x4 * i ≠ 0x5C0200 + 0x4 * j := by omega

/-- A record writes one free entry and keeps the valid ones. -/
theorem peerRecord_spec {a : Nat} (ha : a < 256) :
    (s.peerHolds a ∨ (∃ i, i < 32 ∧ s.flag (Reg.BOOT_PEER_VALID i) = false) → (s.peerRecord a).peerHolds a)
      ∧ ∀ i, i < 32 → s.flag (Reg.BOOT_PEER_VALID i) = true → (s.peerRecord a).flag (Reg.BOOT_PEER_VALID i) = true
          ∧ (s.peerRecord a).fld (Reg.BOOT_PEER_ADDR i) = s.fld (Reg.BOOT_PEER_ADDR i) := by
  obtain ⟨hh, he⟩ | ⟨hno, hall, he⟩ | ⟨i, hi, hv, he⟩ := peerRecord_eq (s := s) a
  · rw [he]
    exact ⟨fun _ => hh, fun _ _ h => ⟨h, rfl⟩⟩
  · rw [he]
    refine ⟨fun h => ?_, fun _ _ h => ⟨h, rfl⟩⟩
    obtain h | ⟨i, hi, hf⟩ := h
    · exact absurd h hno
    · exact absurd (hall i hi) (by rw [hf]; decide)
  · rw [he]
    refine ⟨fun _ => ⟨i, hi, flag_setFlag_same (f := Reg.BOOT_PEER_VALID i) _ _ (by simp) rfl, ?_⟩, fun j hj hjv => ?_⟩
    · refine (fld_setFld_apart (f := Reg.BOOT_PEER_VALID i) (g := Reg.BOOT_PEER_ADDR i) _ _ rfl (by simp) (by simp)).trans ?_
      exact (fld_setFld_same (f := Reg.BOOT_PEER_ADDR i) _ _ (by simp)).trans (Nat.mod_eq_of_lt ha)
    · have hij : j ≠ i := by
        rintro rfl
        rw [hjv] at hv
        exact absurd hv (by decide)
      have hk : SbKeeps (· = 0x5C0200 + 0x4 * i) s ((s.setFld (Reg.BOOT_PEER_ADDR i) a).setFlag (Reg.BOOT_PEER_VALID i) true) :=
        ((SbKeeps.refl (p := (· = 0x5C0200 + 0x4 * i)) s).setFld (f := Reg.BOOT_PEER_ADDR i) _ rfl).setFlag (f := Reg.BOOT_PEER_VALID i) _ rfl
      exact ⟨(hk.flag (f := Reg.BOOT_PEER_VALID j) (peerWord_apart hij)).trans hjv, hk.fld (f := Reg.BOOT_PEER_ADDR j) (peerWord_apart hij)⟩

theorem peerRecord_sb (a : Nat) : (s.peerRecord a).sb = s.sb := by
  obtain ⟨_, he⟩ | ⟨_, _, he⟩ | ⟨i, _, _, he⟩ := peerRecord_eq (s := s) a
  · rw [he]
  · rw [he]
  · rw [he]; rfl

/-! ## The queue's first frame -/

theorem firstFrame_mem {q : List TxFrame} {f : TxFrame} (h : firstFrame q = some f) : f ∈ q := by
  induction q with
  | nil => exact nomatch h
  | cons g q ih =>
    unfold firstFrame at h
    split at h
    case h_1 x hx =>
      split at h
      · exact .tail _ (ih (by rw [hx, h]))
      · exact Option.some.inj h ▸ .head _
    case h_2 => exact Option.some.inj h ▸ .head _

theorem retryFrame_mem {q : List TxFrame} {f : TxFrame} (h : f ∈ q) : { f with retries := f.retries + 1 } ∈ retryFrame f q := by
  induction q with
  | nil => exact nomatch h
  | cons g q ih =>
    unfold retryFrame
    split
    · exact .head _
    case isFalse hne => exact .tail _ (ih ((List.mem_cons.mp h).resolve_left (Ne.symm hne)))

theorem retryFrame_length (f : TxFrame) (q : List TxFrame) : (retryFrame f q).length = q.length := by
  induction q with
  | nil => rfl
  | cons g q ih =>
    unfold retryFrame
    split
    · rfl
    · simp [ih]

/-- A send of the first frame. -/
theorem exec_sbFrameSend_of_sends {f : TxFrame} (h : s.sends f) (o : SendEnd) : exec (.sbFrameSend o) s = .next (s.attempt f o) := by
  obtain ⟨hon, hst, hagain, hfirst⟩ := h
  have hno : ¬ (s.fld Reg.SB_ADDR_STATE = 0 ∧ (!s.sb.cands.isEmpty) = true) := fun ⟨h0, hc⟩ =>
    hst.elim (fun hn => hn h0) fun he => by simp [he] at hc
  simp only [exec, execSbFrameSend, hon, Bool.not_true, Bool.false_eq_true, if_false, if_neg hno, hagain, hfirst]

end State
end Sys2Proof.Machine
end
section
/-! Claims seen on the sideband (R412, R424), and the obligation on claims and frames. -/

namespace Sys2Proof.Machine

-- Each theorem in turn: side by side they would reserve more stacks than a check has memory for.
set_option Elab.async false

namespace State

variable {s t u : State}

theorem cmpFire3_length : (s.cmpFire 3).sb.txq.length ≤ s.sb.txq.length + 1 := by
  unfold State.cmpFire
  extract_lets s1 s2
  have h2 : s2.sb = s.sb := by
    unfold s2
    split
    · exact wakeBy_sb 3
    · rfl
  split
  · split
    · exact (sbQueue_length _).trans (by rw [h2])
    · rw [h2]; omega
  · omega

/-- Of an ADDR_CLAIM only comparator 3's alert may join the queue before the claim acts. -/
theorem sbHear_claim_length (f : Frame) : (s.sbHear 0x01 f).sb.txq.length ≤ s.sb.txq.length + 1 := by
  unfold State.sbHear
  extract_lets own s1 s2
  have h1 : s1 = s := if_neg (by simp)
  have h2 : s2.sb = s.sb := by
    unfold s2
    rw [h1]
    split <;> rfl
  split
  · exact cmpFire3_length.trans (by rw [h2])
  · rw [h2]; omega

theorem exec_addrClaim_of_hears {f : Frame} (h : s.hears f) (hl : f.payload.length = 8) :
    exec (.addrClaim f) s = .next (((s.sbHear 0x01 f).peerRecord f.src.toNat).claimSeen f) := by
  have hmine : ((s.sbHeld && f.dst.toNat == s.fld Reg.SB_ADDR_ADDR) || f.dst.toNat == 0xFF) = true := by
    obtain hd | ⟨hh, hd⟩ := h.2
    · rw [hd]; simp
    · rw [hh, hd]; simp
  simp only [exec, execAddrClaim, hmine, Bool.not_true, Bool.and_false, Bool.false_and, Bool.false_eq_true, if_false,
    sbFrame_of_hears h hl rfl, State.onClaim]

/-- The words that hearing a claim and recording it may change. -/
abbrev heardClaimWord (o : Nat) : Prop := hearWord o ∨ peerWord o

/-- The state in which a heard claim is compared with the own address. -/
theorem heardClaim_keeps {f : Frame} (h : s.hears f) : SbKeeps heardClaimWord s ((s.sbHear 0x01 f).peerRecord f.src.toNat) :=
  (((sbHear_words h 0x01).mono fun _ => .inl).peerRecord _ fun _ => .inr)

theorem not_heardClaimWord {o : Nat} (h : ¬ hearWord o) (hp : o < 0x5C0200) : ¬ heardClaimWord o := by
  rintro (ho | ⟨i, _, rfl⟩)
  · exact h ho
  · omega

theorem peerHolds_of_keeps {p : Nat → Prop} {a : Nat} (h : SbKeeps p s t) (hp : ∀ o, peerWord o → ¬ p o) (hh : s.peerHolds a) : t.peerHolds a := by
  obtain ⟨i, hi, hv, ha⟩ := hh
  have hw : ¬ p (0x5C0200 + 0x4 * i) := hp _ ⟨i, hi, rfl⟩
  exact ⟨i, hi, (h.flag (f := Reg.BOOT_PEER_VALID i) hw).trans hv, (h.fld (f := Reg.BOOT_PEER_ADDR i) hw).trans ha⟩

theorem peerWord_lt {o : Nat} (h : peerWord o) : 0x5C0200 ≤ o := by
  obtain ⟨i, _, rfl⟩ := h
  omega

/-- A claim of another ID of the address held. -/
theorem claimSeen_held {f : Frame} (ha : f.src.toNat = s.fld Reg.SB_ADDR_ADDR) (hu : leNat f.payload ≠ s.rd64 Reg.SB_UID)
    (hh : s.sbHeld = true) : s.claimSeen f = s.defend := by
  unfold State.claimSeen
  rw [if_pos ⟨ha, hu⟩, if_pos hh]

/-- A claim of another ID of the candidate, in its contest window. -/
theorem claimSeen_window {f : Frame} (ha : f.src.toNat = s.fld Reg.SB_ADDR_ADDR) (hu : leNat f.payload ≠ s.rd64 Reg.SB_UID)
    (hh : s.sbHeld = false) (hw : s.sb.window = true) : s.claimSeen f = s.claimFail := by
  unfold State.claimSeen
  rw [if_pos ⟨ha, hu⟩, if_neg (by simp [hh]), if_pos hw]

theorem addrClaim_records {f : Frame} (h : s.hears f) (hl : f.payload.length = 8) :
    Answers (.addrClaim f) s fun t => t.ts = s.ts ∧ s.sameMem t ∧ t.clusters = s.clusters
      ∧ (s.peerHolds f.src.toNat ∨ (∃ i, i < 32 ∧ s.flag (Reg.BOOT_PEER_VALID i) = false) → t.peerHolds f.src.toNat)
      ∧ (∀ i, i < 32 → s.flag (Reg.BOOT_PEER_VALID i) = true → t.flag (Reg.BOOT_PEER_VALID i) = true
          ∧ t.fld (Reg.BOOT_PEER_ADDR i) = s.fld (Reg.BOOT_PEER_ADDR i)) := by
  refine ⟨_, exec_addrClaim_of_hears h hl, ?_⟩
  have hu := sbHear_words h 0x01
  obtain ⟨hrec, hkeep⟩ := peerRecord_spec (s := s.sbHear 0x01 f) f.src.isLt
  have hv : SbKeeps (fun o => claimWord o ∨ o = 0x58002C) ((s.sbHear 0x01 f).peerRecord f.src.toNat)
      (((s.sbHear 0x01 f).peerRecord f.src.toNat).claimSeen f) := (SbKeeps.refl _).claimSeen f fun _ => id
  have hall := (heardClaim_keeps h).mono (q := fun o => heardClaimWord o ∨ claimWord o ∨ o = 0x58002C) fun _ => .inl
  have hall := hall.trans (hv.mono fun _ => .inr)
  have hts : ¬ (heardClaimWord 0x8 ∨ claimWord 0x8 ∨ 0x8 = 0x58002C) := by
    rintro (ho | ho)
    · exact not_heardClaimWord (by decide) (by decide) ho
    · exact absurd ho (by decide)
  have hph : ∀ o, peerWord o → ¬ hearWord o := fun o ho => by
    have := peerWord_lt ho
    unfold hearWord
    omega
  have hpc : ∀ o, peerWord o → ¬ (claimWord o ∨ o = 0x58002C) := fun o ho => by
    have := peerWord_lt ho
    unfold claimWord
    omega
  refine ⟨hall.fld (f := Reg.TILE_STATE_STATE) hts, hall.sameMem, hall.clusters, fun hp => peerHolds_of_keeps hv hpc (hrec ?_), fun i hi hi' => ?_⟩
  · obtain hp | ⟨i, hi, hf⟩ := hp
    · exact .inl (peerHolds_of_keeps hu hph hp)
    · exact .inr ⟨i, hi, (hu.flag (f := Reg.BOOT_PEER_VALID i) (hph _ ⟨i, hi, rfl⟩)).trans hf⟩
  · have hwu := hph _ ⟨i, hi, rfl⟩
    have hwt := hpc _ ⟨i, hi, rfl⟩
    obtain ⟨hvalid, haddr⟩ := hkeep i hi ((hu.flag (f := Reg.BOOT_PEER_VALID i) hwu).trans hi')
    exact ⟨(hv.flag (f := Reg.BOOT_PEER_VALID i) hwt).trans hvalid,
      ((hv.fld (f := Reg.BOOT_PEER_ADDR i) hwt).trans haddr).trans (hu.fld (f := Reg.BOOT_PEER_ADDR i) hwu)⟩

theorem addrClaim_defends {f : Frame} (h : s.hears f) (hl : f.payload.length = 8) (ha : f.src.toNat = s.fld Reg.SB_ADDR_ADDR)
    (hu : leNat f.payload ≠ s.rd64 Reg.SB_UID) (hh : s.sbHeld = true) (hq : s.sb.txq.length ≤ 2) :
    Answers (.addrClaim f) s fun t => s.claimFrame false ∈ t.sb.txq ∧ t.sbHeld = true
      ∧ t.fld Reg.SB_CONTEST_COUNT = min (2 ^ 32 - 1) (s.fld Reg.SB_CONTEST_COUNT + 1) := by
  have hcontest : ((s.sbHear 0x01 f).peerRecord f.src.toNat).fld Reg.SB_CONTEST_COUNT = s.fld Reg.SB_CONTEST_COUNT :=
    (((SbKeeps.refl (p := peerWord) _).peerRecord f.src.toNat fun _ => id).fld fun hp => absurd (peerWord_lt hp) (by decide)).trans
      (sbHear_claim_contest h)
  have hlen : ((s.sbHear 0x01 f).peerRecord f.src.toNat).sb.txq.length < 4 := by
    rw [peerRecord_sb]
    exact lt_of_le_of_lt (sbHear_claim_length f) (by omega)
  have hk := heardClaim_keeps h
  refine ⟨_, exec_addrClaim_of_hears h hl, ?_⟩
  generalize (s.sbHear 0x01 f).peerRecord f.src.toNat = v at *
  have haddr : ¬ heardClaimWord 0x580008 := not_heardClaimWord (by decide) (by decide)
  have huid : v.rd64 Reg.SB_UID = s.rd64 Reg.SB_UID :=
    hk.rd64 (not_heardClaimWord (by decide) (by decide)) (not_heardClaimWord (by decide) (by decide))
  have hheld : v.sbHeld = true := by
    unfold State.sbHeld at *
    rwa [hk.fld haddr]
  rw [claimSeen_held (ha.trans (hk.fld haddr).symm) (by rwa [huid]) hheld]
  have hframe : v.claimFrame false = s.claimFrame false := by
    unfold State.claimFrame
    rw [huid]
  refine ⟨?_, ?_, ?_⟩
  · have hmem := mem_sbQueue (f := v.claimFrame false) rfl hlen
    rw [hframe] at hmem
    unfold State.defend
    rwa [hframe]
  · have hd : SbKeeps (fun o => o = 0x580020 ∨ o = 0x58002C) v v.defend := (SbKeeps.refl v).defend (.inl rfl) (.inr rfl)
    unfold State.sbHeld at *
    rwa [hd.fld (by decide)]
  · exact (fld_count_same (f := Reg.SB_CONTEST_COUNT) _ _ (by decide)).trans (by rw [fld_sbQueue (by decide), hcontest])

theorem addrClaim_fails {f : Frame} (h : s.hears f) (hl : f.payload.length = 8) (ha : f.src.toNat = s.fld Reg.SB_ADDR_ADDR)
    (hu : leNat f.payload ≠ s.rd64 Reg.SB_UID) (hh : s.sbHeld = false) (hw : s.sb.window = true) :
    Answers (.addrClaim f) s fun t => t.claimFailed s := by
  have hk := heardClaim_keeps h
  have hsb : SbQueued s ((s.sbHear 0x01 f).peerRecord f.src.toNat) := (sbHear_queued 0x01 f).trans (.of_eq (peerRecord_sb _))
  refine ⟨_, exec_addrClaim_of_hears h hl, ?_⟩
  generalize (s.sbHear 0x01 f).peerRecord f.src.toNat = v at *
  have haddr : v.fld Reg.SB_ADDR_ADDR = s.fld Reg.SB_ADDR_ADDR := hk.fld (not_heardClaimWord (by decide) (by decide))
  have huid : v.rd64 Reg.SB_UID = s.rd64 Reg.SB_UID :=
    hk.rd64 (not_heardClaimWord (by decide) (by decide)) (not_heardClaimWord (by decide) (by decide))
  have hheld : v.sbHeld = false := by
    unfold State.sbHeld at *
    rwa [hk.fld (f := Reg.SB_ADDR_STATE) (not_heardClaimWord (by decide) (by decide))]
  unfold SbQueued at hsb
  rw [claimSeen_window (ha.trans haddr.symm) (by rwa [huid]) hheld (by rw [hsb]; exact hw)]
  exact claimFailed_of claimFail_failed (by rw [hsb]) haddr (hk.flag (not_heardClaimWord (by decide) (by decide)))

end State
end Sys2Proof.Machine
end
section
/-! The obligation on claims and frames. -/

namespace Sys2Proof.Machine

-- Each theorem in turn: side by side they would reserve more stacks than a check has memory for.
set_option Elab.async false

namespace State

variable {s t u : State}

/-- A count advances by one and changes no other word. -/
theorem count_one (s : State) {f : Fld} (hf : f.lo + f.w ≤ 32) :
    (s.count f 1).fld f = min (2 ^ f.w - 1) (s.fld f + 1) ∧ s.sameRegs (s.count f 1) (· = f.off) :=
  ⟨fld_count_same _ _ hf, fun _ ho => rd_count_other _ _ ho⟩

/-- The failure of a claim after one word of a count changed. -/
theorem claimFail_after_count {f : Fld} (h : u = s.count f 1) (hf : ¬ claimWord f.off := by decide)
    (hw : f.lo = 0 ∧ f.w = 32 := by decide) :
    u.claimFail.fld f = min (2 ^ 32 - 1) (s.fld f + 1) := by
  obtain ⟨hlo, hwd⟩ := hw
  have hk : SbKeeps claimWord u u.claimFail := (SbKeeps.refl u).claimFail fun _ => id
  rw [hk.fld hf, h, fld_count_same _ _ (by omega), hwd]

theorem attempt_acked {f : TxFrame} (h : s.sends f) :
    Answers (.sbFrameSend .acked) s fun t => t.sb.txq = s.sb.txq.erase f ∧ t.sb.sent = s.sb.sent ++ [{ f with src := s.frameSrc f }]
      ∧ t.sb.window = (s.sb.window || f.claim) ∧ t.regs = s.regs ∧ s.sameMem t ∧ t.clusters = s.clusters :=
  ⟨_, exec_sbFrameSend_of_sends h _, rfl, rfl, rfl, rfl, ⟨fun _ => rfl, rfl⟩, rfl⟩

/-- An attempt that no receiver took, with a retry left. -/
theorem attempt_retry {f : TxFrame} {o : SendEnd} (ho : o = .noAck ∨ o = .busFault) (hr : f.retries < 8) :
    s.attempt f o = ({ s with sb := { s.sb with txq := retryFrame f s.sb.txq } }).count Reg.SB_RETRY_COUNT 1 := by
  obtain rfl | rfl := ho
  · exact if_neg (by omega)
  · exact if_neg (by omega)

/-- An attempt that no receiver took, with no retry left. -/
theorem attempt_fails {f : TxFrame} {o : SendEnd} (ho : o = .noAck ∨ o = .busFault) (hr : 8 ≤ f.retries) :
    s.attempt f o = (if f.claim = true then (({ s with sb := { s.sb with txq := s.sb.txq.erase f } }).count Reg.SB_TX_FAIL_COUNT 1).claimFail
      else ({ s with sb := { s.sb with txq := s.sb.txq.erase f } }).count Reg.SB_TX_FAIL_COUNT 1) := by
  obtain rfl | rfl := ho
  · exact if_pos hr
  · exact if_pos hr

theorem sends_again {f : TxFrame} {o : SendEnd} (h : s.sends f) (ho : o = .noAck ∨ o = .busFault) (hr : f.retries < 8) :
    Answers (.sbFrameSend o) s fun t => { f with retries := f.retries + 1 } ∈ t.sb.txq ∧ t.sb.txq.length = s.sb.txq.length
      ∧ t.fld Reg.SB_RETRY_COUNT = min (2 ^ 32 - 1) (s.fld Reg.SB_RETRY_COUNT + 1) ∧ s.sameRegs t (· = Reg.SB_RETRY) := by
  obtain ⟨hcount, hregs⟩ := count_one { s with sb := { s.sb with txq := retryFrame f s.sb.txq } } (f := Reg.SB_RETRY_COUNT) (by decide)
  refine ⟨_, (exec_sbFrameSend_of_sends h o).trans (congrArg Host.Outcome.next (attempt_retry ho hr)), ?_, ?_, hcount, hregs⟩
  · exact retryFrame_mem (firstFrame_mem h.2.2.2)
  · exact retryFrame_length f s.sb.txq

theorem sends_fails {f : TxFrame} {o : SendEnd} (h : s.sends f) (ho : o = .noAck ∨ o = .busFault) (hr : 8 ≤ f.retries) :
    Answers (.sbFrameSend o) s fun t => t.fld Reg.SB_TX_FAIL_COUNT = min (2 ^ 32 - 1) (s.fld Reg.SB_TX_FAIL_COUNT + 1)
      ∧ (f.claim = false → t.sb.txq = s.sb.txq.erase f ∧ s.sameRegs t (· = Reg.SB_TX_FAIL)) ∧ (f.claim = true → t.claimFailed s) := by
  refine ⟨_, (exec_sbFrameSend_of_sends h o).trans (congrArg Host.Outcome.next (attempt_fails ho hr)), ?_⟩
  have hk := keeps_withSb (p := fun _ => False) s { s.sb with txq := s.sb.txq.erase f }
  have hcands : ({ s with sb := { s.sb with txq := s.sb.txq.erase f } } : State).sb.cands = s.sb.cands := rfl
  have htxq : ({ s with sb := { s.sb with txq := s.sb.txq.erase f } } : State).sb.txq = s.sb.txq.erase f := rfl
  generalize ({ s with sb := { s.sb with txq := s.sb.txq.erase f } } : State) = v at *
  have hv : SbKeeps (· = Reg.SB_TX_FAIL) v (v.count Reg.SB_TX_FAIL_COUNT 1) := (SbKeeps.refl v).count 1 rfl
  have hfld := hk.fld (f := Reg.SB_TX_FAIL_COUNT) id
  by_cases hc : f.claim = true
  · rw [if_pos hc]
    refine ⟨(claimFail_after_count (s := v) rfl).trans (by rw [hfld]), fun hf => absurd (hc.symm.trans hf) (by decide), fun _ => ?_⟩
    exact claimFailed_of claimFail_failed hcands ((hv.fld (by decide)).trans (hk.fld id)) ((hv.flag (by decide)).trans (hk.flag id))
  · rw [if_neg hc]
    obtain ⟨hcount, hregs⟩ := count_one v (f := Reg.SB_TX_FAIL_COUNT) (by decide)
    exact ⟨hcount.trans (by rw [hfld]), fun _ => ⟨htxq, fun o ho => (hregs o ho).trans (hk.regs o id)⟩, fun h => absurd h hc⟩

theorem sends_arbLost {f : TxFrame} (same : Bool) (h : s.sends f) :
    Answers (.sbFrameSend (.arbLost same)) s fun t => t.fld Reg.SB_ARB_LOST_COUNT = min (2 ^ 32 - 1) (s.fld Reg.SB_ARB_LOST_COUNT + 1)
      ∧ (f.claim = false ∨ same = false → t.sb = s.sb ∧ s.sameRegs t (· = Reg.SB_ARB_LOST))
      ∧ (f.claim = true ∧ same = true → t.claimFailed s) := by
  have he : s.attempt f (.arbLost same) = if (f.claim && same) = true then (s.count Reg.SB_ARB_LOST_COUNT 1).claimFail
      else s.count Reg.SB_ARB_LOST_COUNT 1 := rfl
  refine ⟨_, (exec_sbFrameSend_of_sends h _).trans (congrArg Host.Outcome.next he), ?_⟩
  have hv : SbKeeps (· = Reg.SB_ARB_LOST) s (s.count Reg.SB_ARB_LOST_COUNT 1) := (SbKeeps.refl s).count 1 rfl
  by_cases hc : (f.claim && same) = true
  · rw [if_pos hc]
    rw [Bool.and_eq_true] at hc
    refine ⟨claimFail_after_count (s := s) rfl, fun hf => ?_, fun _ => ?_⟩
    · rw [hc.1, hc.2] at hf
      exact absurd hf (by decide)
    · exact claimFailed_of claimFail_failed rfl (hv.fld (by decide)) (hv.flag (by decide))
  · rw [if_neg hc]
    obtain ⟨hcount, hregs⟩ := count_one s (f := Reg.SB_ARB_LOST_COUNT) (by decide)
    exact ⟨hcount, fun _ => ⟨rfl, hregs⟩, fun h => absurd h (by rwa [Bool.and_eq_true] at hc)⟩

/-- An unaddressed tile with an empty queue begins a claim and sends it. -/
theorem sends_firstClaim {c : Nat} {l : List Nat} (hon : s.sbOn = true) (h0 : s.fld Reg.SB_ADDR_STATE = 0) (hc : s.sb.cands = c :: l)
    (hq : s.sb.txq = []) :
    Answers (.sbFrameSend .acked) s fun t => t.fld Reg.SB_ADDR_STATE = 1 ∧ t.fld Reg.SB_ADDR_ADDR = c % 256 ∧ t.sb.cands = l
      ∧ t.sb.window = true ∧ t.sb.txq = [] ∧ t.sb.sent = s.sb.sent ++ [{ s.claimFrame true with src := BitVec.ofNat 8 c }] ∧ s.sameMem t := by
  have hframe : (s.claimStart c).claimFrame true = s.claimFrame true := by
    unfold State.claimFrame
    rw [(claimStart_keeps c).rd64 (by decide) (by decide)]
  have hnext := nextCandidate_cons hc
  rw [hframe] at hnext
  obtain ⟨v, hnext, hsb, hk, hst, haddr⟩ : ∃ v : State, s.nextCandidate = v.sbQueue (s.claimFrame true)
      ∧ v.sb = { s.sb with cands := l, window := false } ∧ SbKeeps (· = 0x580008) s v ∧ v.fld Reg.SB_ADDR_STATE = 1
      ∧ v.fld Reg.SB_ADDR_ADDR = c % 256 := by
    have hst := claimStart_state (s := s) c
    have haddr := claimStart_addr (s := s) c
    have hk := claimStart_keeps (s := s) c
    generalize s.claimStart c = v at *
    exact ⟨_, hnext, rfl, hk.trans (keeps_withSb _ _), hst, haddr⟩
  have hqueue : v.sbQueue (s.claimFrame true) = { v with sb := { v.sb with txq := [s.claimFrame true] } } := by
    unfold State.sbQueue
    have hvq : v.sb.txq = [] := by rw [hsb, hq]
    rw [if_neg (by simp [State.claimFrame]), if_neg (by rw [hvq]; simp), hvq]
    rfl
  have hsend : exec (.sbFrameSend .acked) s
      = .next (({ v with sb := { v.sb with txq := [s.claimFrame true] } } : State).attempt (s.claimFrame true) .acked) := by
    have hpos : s.fld Reg.SB_ADDR_STATE = 0 ∧ (!s.sb.cands.isEmpty) = true := ⟨h0, by rw [hc]; rfl⟩
    simp only [exec, execSbFrameSend, hon, Bool.not_true, Bool.false_eq_true, if_false, if_pos hpos, hnext, hqueue]
    rfl
  have hsrc : ({ v with sb := { v.sb with txq := [s.claimFrame true] } } : State).frameSrc (s.claimFrame true) = BitVec.ofNat 8 c := by
    have hty : (s.claimFrame true).ty = 0x01 ∨ ({ v with sb := { v.sb with txq := [s.claimFrame true] } } : State).sbHeld = true := .inl rfl
    have hfld : ({ v with sb := { v.sb with txq := [s.claimFrame true] } } : State).fld Reg.SB_ADDR_ADDR = c % 256 := haddr
    unfold State.frameSrc
    rw [if_pos hty, hfld]
    exact BitVec.eq_of_toNat_eq (by simp)
  have hattempt : ({ v with sb := { v.sb with txq := [s.claimFrame true] } } : State).attempt (s.claimFrame true) .acked
      = { v with sb := { v.sb with txq := [], sent := s.sb.sent ++ [{ s.claimFrame true with src := BitVec.ofNat 8 c }], window := true } } := by
    have hwin : (v.sb.window || (s.claimFrame true).claim) = true := Bool.or_true _
    simp only [State.attempt, dropFrame, List.erase_cons_head, hsrc, hwin]
    rw [hsb]
  rw [hattempt] at hsend
  exact ⟨_, hsend, hst, haddr, congrArg Sb.cands hsb, rfl, rfl, rfl, hk.sameMem⟩

theorem sends_nothing {o : SendEnd}
    (h : s.sbOn = false ∨ (s.sb.txq = [] ∧ (s.fld Reg.SB_ADDR_STATE ≠ 0 ∨ s.sb.cands = []) ∧ s.claimAgain = s)) :
    Answers (.sbFrameSend o) s fun t => t = s := by
  obtain hon | ⟨hq, hst, hagain⟩ := h
  · exact ⟨s, by simp only [exec, execSbFrameSend, hon, Bool.not_false, if_true], rfl⟩
  · have hno : ¬ (s.fld Reg.SB_ADDR_STATE = 0 ∧ (!s.sb.cands.isEmpty) = true) := fun ⟨h0, hc⟩ =>
      hst.elim (fun hn => hn h0) fun he => by simp [he] at hc
    refine ⟨s, ?_, rfl⟩
    simp only [exec, execSbFrameSend, if_neg hno, hagain, hq, firstFrame, ite_self]

theorem unknown_heard (ty : Byte) {f : Frame} (h : s.hears f) :
    Answers (.sbUnknownFrame ty f) s fun t =>
      t.fld Reg.SB_UNKNOWN_COUNT = (if sbTypes.contains (ty.toNat, f.payload.length) then s.fld Reg.SB_UNKNOWN_COUNT
          else min (2 ^ 32 - 1) (s.fld Reg.SB_UNKNOWN_COUNT + 1))
        ∧ t.fld Reg.SB_RX_OK_COUNT = min (2 ^ 32 - 1) (s.fld Reg.SB_RX_OK_COUNT + 1) ∧ t.ts = s.ts ∧ s.sameMem t ∧ t.clusters = s.clusters := by
  have hk := sbHear_words h ty.toNat
  have hrx := sbHear_rxOk h ty.toNat
  have hmine : ((s.sbHeld && f.dst.toNat == s.fld Reg.SB_ADDR_ADDR) || f.dst.toNat == 0xFF) = true := by
    obtain hd | ⟨hh, hd⟩ := h.2
    · rw [hd]; simp
    · rw [hh, hd]; simp
  have hexec : exec (.sbUnknownFrame ty f) s = .next (if sbTypes.contains (ty.toNat, f.payload.length) = true then s.sbHear ty.toNat f
      else (s.sbHear ty.toNat f).count Reg.SB_UNKNOWN_COUNT 1) := by
    simp only [exec, execSbUnknownFrame, State.sbFrame, h.1, hmine, Bool.not_true, Bool.false_eq_true, if_false, true_and]
  refine ⟨_, hexec, ?_⟩
  generalize s.sbHear ty.toNat f = v at *
  have hu : v.fld Reg.SB_UNKNOWN_COUNT = s.fld Reg.SB_UNKNOWN_COUNT := hk.fld (by decide)
  by_cases hc : sbTypes.contains (ty.toNat, f.payload.length) = true
  · rw [if_pos hc, if_pos hc]
    exact ⟨hu, hrx, hk.fld (by decide), hk.sameMem, hk.clusters⟩
  · rw [if_neg hc, if_neg hc]
    have hv : SbKeeps (· = Reg.SB_UNKNOWN) v (v.count Reg.SB_UNKNOWN_COUNT 1) := (SbKeeps.refl v).count 1 rfl
    have hall : SbKeeps (fun o => hearWord o ∨ o = Reg.SB_UNKNOWN) s (v.count Reg.SB_UNKNOWN_COUNT 1) :=
      (hk.mono fun _ => .inl).trans (hv.mono fun _ => .inr)
    refine ⟨(fld_count_same (f := Reg.SB_UNKNOWN_COUNT) _ _ (by decide)).trans (by rw [hu]), (hv.fld (by decide)).trans hrx, hall.fld (by decide),
      hall.sameMem, hall.clusters⟩

theorem unknown_unheard (ty : Byte) {f : Frame} (hon : s.sbOn = true) (hb : f.dst ≠ 0xFF)
    (hd : s.sbHeld = false ∨ f.dst.toNat ≠ s.fld Reg.SB_ADDR_ADDR) :
    Answers (.sbUnknownFrame ty f) s fun t => t.fld Reg.SB_UNKNOWN_COUNT = s.fld Reg.SB_UNKNOWN_COUNT
      ∧ t.fld Reg.SB_RX_OK_COUNT = s.fld Reg.SB_RX_OK_COUNT ∧ t.ts = s.ts ∧ s.sameMem t ∧ t.clusters = s.clusters := by
  have hown : (s.sbHeld && f.dst.toNat == s.fld Reg.SB_ADDR_ADDR) = false := by
    obtain hd | hd := hd
    · rw [hd, Bool.false_and]
    · rw [beq_false_of_ne hd, Bool.and_false]
  have hall : (f.dst.toNat == 0xFF) = false := beq_false_of_ne fun he => hb (BitVec.eq_of_toNat_eq he)
  have hexec : exec (.sbUnknownFrame ty f) s = .next (if (s.sbHeld && f.src.toNat == s.fld Reg.SB_ADDR_ADDR && ty.toNat != 0x01) = true
      then s.defend else s) := by
    simp only [exec, execSbUnknownFrame, State.sbFrame, State.sbHear, hon, hown, hall, Bool.or_false, Bool.and_false, Bool.not_true, Bool.not_false,
      Bool.false_eq_true, if_false, if_true]
  have hk : ∀ c : Prop, [Decidable c] → SbKeeps (fun o => o = 0x580020 ∨ o = 0x58002C) s (if c then s.defend else s) := fun c _ =>
    .ite ((SbKeeps.refl s).defend (.inl rfl) (.inr rfl)) (.refl s)
  exact ⟨_, hexec, (hk _).fld (by decide), (hk _).fld (by decide), (hk _).fld (by decide), (hk _).sameMem, (hk _).clusters⟩

theorem windowEnd_holds (hon : s.sbOn = true) (hw : s.sb.window = true) :
    Answers .sbClaimWindowEnd s fun t =>
      t.sbHeld = true ∧ t.fld Reg.SB_ADDR_ADDR = s.fld Reg.SB_ADDR_ADDR ∧ t.sb.window = false ∧ t.sb.txq = s.sb.txq
        ∧ s.sameRegs t (· = Reg.SB_ADDR) ∧ s.sameMem t ∧ t.clusters = s.clusters := by
  have hexec : exec .sbClaimWindowEnd s = .next (({ s with sb := { s.sb with window := false } } : State).setFld Reg.SB_ADDR_STATE 2) := by
    simp only [exec, execSbClaimWindowEnd, hon, hw, Bool.and_self, if_true]
  refine ⟨_, hexec, ?_, ?_, rfl, rfl, fun o ho => rd_setFld_other (f := Reg.SB_ADDR_STATE) _ _ ho, ⟨fun _ => rfl, rfl⟩, rfl⟩
  · unfold State.sbHeld
    rw [fld_setFld_same (f := Reg.SB_ADDR_STATE) _ _ (by decide)]
    rfl
  · exact fld_setFld_apart (f := Reg.SB_ADDR_STATE) (g := Reg.SB_ADDR_ADDR) _ _ rfl (by decide) (by decide)

end State

open State in
/-- Settles O9: what a frame's row adds to what its hearing leaves (`State.SbKeeps`). -/
theorem claimsAndFrames : Obligations.ClaimsAndFrames := by
  unfold Obligations.ClaimsAndFrames
  refine ⟨fun s f => addrClaim_records, fun s f => addrClaim_defends, fun s f => addrClaim_fails, fun s => windowEnd_holds, fun s h => ?_,
    fun s f => attempt_acked, fun s f o => sends_again, fun s f o => sends_fails, fun s f same => sends_arbLost same,
    fun s c l => sends_firstClaim, fun s o => sends_nothing, fun s w hon => ?_, fun s ty f => unknown_heard ty, fun s ty f => unknown_unheard ty,
    fun s ty f hon => ?_⟩
  · have hoff : (s.sbOn && s.sb.window) = false := by
      obtain h | h := h
      · rw [h, Bool.false_and]
      · rw [h, Bool.and_false]
    exact ⟨s, by simp only [exec, execSbClaimWindowEnd, hoff, Bool.false_eq_true, if_false], rfl⟩
  · obtain ⟨hcount, hregs⟩ := count_one s (f := Reg.SB_BAD_COUNT) (by decide)
    exact ⟨_, by simp only [exec, execSbFrameDiscard, hon, if_true], hcount, hregs, rfl, ⟨fun _ => rfl, rfl⟩, rfl⟩
  · exact ⟨s, by simp only [exec, execSbUnknownFrame, State.sbFrame, hon, Bool.not_false, if_true], rfl⟩

end Sys2Proof.Machine
end

section
/-! The responder's replies and the appointment of a beat master (R413, R416). -/

namespace Sys2Proof.Machine

-- Each theorem in turn: side by side they would reserve more stacks than a check has memory for.
set_option Elab.async false

namespace State

variable {s t u : State}

theorem ts_of_keeps {p : Nat → Prop} (h : SbKeeps p s t) (hp : ¬ p 0x8) : t.ts = s.ts := h.fld (f := Reg.TILE_STATE_STATE) hp

theorem outsideRun_of_ts (h : t.ts = s.ts) : t.outsideRun = s.outsideRun := by
  unfold State.outsideRun
  rw [h]

/-- A reply has room beside what hearing may queue. -/
theorem hear_room (ty : Nat) (f : Frame) (h : s.sb.txq.length ≤ 1) : (s.sbHear ty f).sb.txq.length < 4 :=
  lt_of_le_of_lt (sbHear_length ty f) (by omega)

theorem leBytes_length (n v : Nat) : (leBytes n v).length = n := by
  induction n generalizing v with
  | zero => rfl
  | succ n ih => exact congrArg Nat.succ (ih _)

theorem appoint_of_queued (h : SbQueued s t) : t.sb.appoint = s.sb.appoint := by
  unfold SbQueued at h
  rw [h]

theorem hear_appoint (ty : Nat) (f : Frame) : (s.sbHear ty f).sb.appoint = s.sb.appoint := appoint_of_queued (sbHear_queued ty f)

theorem beatReply_mem (n : Nat) (h : s.sb.txq.length < 4) :
    ∃ x ∈ (s.beatReply n).sb.txq, x.ty = 0x21 ∧ x.payload = leBytes 1 n := ⟨_, mem_sbQueue rfl h, rfl, rfl⟩

theorem beatReply_keeps (n : Nat) : SbKeeps dropWord s (s.beatReply n) := (SbKeeps.refl s).sbQueue _ rfl

theorem beatReply_queued (n : Nat) : SbQueued s (s.beatReply n) := sbQueue_queued _

/-- A commit that names another word than the appointment, or comes while a job runs. -/
theorem onCommit_refused {a : Nat} (h : s.sb.appoint ≠ some (BitVec.ofNat 32 a) ∨ s.outsideRun = false) : s.onCommit a = s.beatReply 1 := by
  unfold State.onCommit
  refine if_neg fun ⟨ha, ho⟩ => ?_
  obtain h | h := h
  · exact h ha
  · exact absurd (h.symm.trans ho) (by decide)

/-- The package's beat master as `BAR_ROOT` holds it. -/
def rootWord (a : Nat) : Nat := a / 2 ^ 26 * 2 ^ 26 + 2 ^ 25 + bits a 10 15 * 2 ^ 10 + 1

theorem rootWord_fields (a : Nat) :
    let v := (BitVec.ofNat 32 (rootWord a)).toNat
    v % 2 ^ 10 = 1 ∧ bits v 10 15 = bits a 10 15 ∧ bits v 25 1 = 1 := by
  intro v
  have hlt : bits a 10 15 < 2 ^ 15 := Nat.mod_lt _ (by decide)
  have hv : v = (a / 2 ^ 26 * 2 ^ 26 + 2 ^ 25 + bits a 10 15 * 2 ^ 10 + 1) % 2 ^ 32 := BitVec.toNat_ofNat _ _
  generalize bits a 10 15 = b at *
  rw [hv]
  unfold bits
  omega

/-- The words that an accepted commit changes. -/
abbrev commitWord (o : Nat) : Prop := o = 0x10000 ∨ o = 0x10020 ∨ o = 0x80800

theorem onCommit_accepted {a : Nat} (h : s.sb.appoint = some (BitVec.ofNat 32 a)) (ho : s.outsideRun = true) :
    (s.onCommit a).sb = s.sb ∧ SbKeeps commitWord s (s.onCommit a) ∧ (s.onCommit a).flag Reg.BEAT_CFG_MASTER = s.namesMe a
      ∧ (s.namesMe a = true → (s.onCommit a).fld Reg.BEAT_ALIGN_LOCAL_LAT = 0)
      ∧ (s.onCommit a).rd Reg.BAR_ROOT = BitVec.ofNat 32 (rootWord a) := by
  unfold State.onCommit rootWord
  extract_lets s0 s1
  rw [if_pos ⟨h, ho⟩]
  have h0 : SbKeeps commitWord s s0 := (SbKeeps.refl s).setFlag _ (.inl rfl)
  have h1 : SbKeeps commitWord s s1 := .ite (h0.setFld _ (.inr (.inl rfl))) h0
  have hsb : s1.sb = s.sb := by
    unfold s1
    split <;> rfl
  have hk : ∀ w : Word, SbKeeps (· = 0x80800) s1 (s1.wr Reg.BAR_ROOT w) := fun w => (SbKeeps.refl s1).wr w rfl
  have h01 : SbKeeps (· = 0x10020) s0 s1 := .ite ((SbKeeps.refl s0).setFld _ rfl) (.refl s0)
  have hwr : ∀ w : Word, (s1.wr Reg.BAR_ROOT w).sb = s1.sb := fun _ => rfl
  refine ⟨(hwr _).trans hsb, h1.trans ((hk _).mono fun _ he => .inr (.inr he)), ?_, fun hn => ?_, rd_wr_same _ _ _⟩
  · refine ((hk _).flag (by decide)).trans ((h01.flag (by decide)).trans ?_)
    exact flag_setFlag_same (f := Reg.BEAT_CFG_MASTER) _ _ (by decide) rfl
  · refine ((hk _).fld (by decide)).trans ?_
    unfold s1
    rw [if_pos hn]
    exact fld_setFld_same (f := Reg.BEAT_ALIGN_LOCAL_LAT) _ _ (by decide)

theorem namesMe_of_keeps {p : Nat → Prop} (h : SbKeeps p s t) (hn : ¬ p Reg.TILE_ID_TILE_NUM.off) (hp : ¬ p Reg.PKG_ID_PKG.off) (a : Nat) :
    t.namesMe a = s.namesMe a := by
  unfold State.namesMe
  rw [h.fld hn, h.fld hp]

end State

open State in
/-- Settles O10: each reply joins the queue after what the frame's hearing left there. -/
theorem sidebandRepliesAndAppointment : Obligations.SidebandRepliesAndAppointment := by
  unfold Obligations.SidebandRepliesAndAppointment
  refine ⟨?_, ?_, ?_, ?_, ?_, ?_, ?_⟩
  · intro s f h hl hq
    have hu := sbHear_words h 0x02
    have hroom := hear_room 0x02 f hq
    refine ⟨_, congrArg Host.Outcome.next (sbFrame_of_hears h (congrArg List.length hl) rfl), ?_⟩
    generalize s.sbHear 0x02 f = v at *
    have hframe : v.capReplyFrame f.src = s.capReplyFrame f.src := by
      unfold State.capReplyFrame
      rw [hu.fld (by decide), hu.fld (by decide), hu.fld (by decide)]
    have hk := hu.sbQueue (v.capReplyFrame f.src) (by decide)
    exact ⟨by rw [← hframe]; exact mem_sbQueue rfl hroom, ts_of_keeps hk (by decide), hk.sameMem⟩
  · intro s f h hl hq
    have hu := sbHear_words h 0x41
    have hroom := hear_room 0x41 f hq
    refine ⟨_, congrArg Host.Outcome.next (sbFrame_of_hears h (congrArg List.length hl) rfl), ?_⟩
    generalize s.sbHear 0x41 f = v at *
    have hk := hu.sbQueue (v.healthFrame f.src) (by decide)
    refine ⟨⟨_, mem_sbQueue rfl hroom, rfl, rfl, ?_, ?_⟩, ts_of_keeps hk (by decide), hk.sameMem⟩
    · simp [State.healthFrame, leBytes_length]
    · rw [← ts_of_keeps hu (by decide), ← hu.fld (f := Reg.TEMP_TJ_MAX) (by decide)]
      rfl
  · intro s f h hl ho hq
    have hu := sbHear_words h 0x20
    have hroom := hear_room 0x20 f hq
    refine ⟨_, congrArg Host.Outcome.next (sbFrame_of_hears h hl rfl), ?_⟩
    generalize s.sbHear 0x20 f = v at *
    rw [if_pos ((outsideRun_of_ts (ts_of_keeps hu (by decide))).trans ho)]
    have hk := (hu.trans (keeps_withSb v { v.sb with appoint := some (BitVec.ofNat 32 (leNat f.payload)) })).trans
      ((beatReply_keeps 0).mono fun _ he => .inr (.inr (.inr (.inr (.inl he)))))
    exact ⟨appoint_of_queued (beatReply_queued 0), beatReply_mem 0 hroom, ts_of_keeps hk (by decide), hk.sameMem⟩
  · intro s f h hl ho hq
    have hu := sbHear_words h 0x20
    have hroom := hear_room 0x20 f hq
    have happ := hear_appoint (s := s) 0x20 f
    refine ⟨_, congrArg Host.Outcome.next (sbFrame_of_hears h hl rfl), ?_⟩
    generalize s.sbHear 0x20 f = v at *
    rw [if_neg (by rw [outsideRun_of_ts (ts_of_keeps hu (by decide)), ho]; decide)]
    exact ⟨(appoint_of_queued (beatReply_queued 1)).trans happ, beatReply_mem 1 hroom⟩
  · exact fun s => ⟨_, rfl, rfl, rfl, rfl, ⟨fun _ => rfl, rfl⟩, rfl⟩
  · intro s f h hl ho hq
    have hu := sbHear_words h 0x22
    have hroom := hear_room 0x22 f hq
    have happ := hear_appoint (s := s) 0x22 f
    refine ⟨_, congrArg Host.Outcome.next (sbFrame_of_hears h hl rfl), ?_⟩
    generalize s.sbHear 0x22 f = v at *
    rw [onCommit_refused (by rwa [happ, outsideRun_of_ts (ts_of_keeps hu (by decide))])]
    exact ⟨(appoint_of_queued (beatReply_queued 1)).trans happ, beatReply_mem 1 hroom,
      ((beatReply_keeps 1).flag (by decide)).trans (hu.flag (by decide))⟩
  · intro s f h hl ha ho
    have hu := sbHear_words h 0x22
    have happ := hear_appoint (s := s) 0x22 f
    refine ⟨_, congrArg Host.Outcome.next (sbFrame_of_hears h hl rfl), ?_⟩
    generalize s.sbHear 0x22 f = v at *
    have hname := namesMe_of_keeps hu (by decide) (by decide) (leNat f.payload)
    obtain ⟨hsb, hk, hmaster, hlat, hroot⟩ := onCommit_accepted (happ.trans ha) ((outsideRun_of_ts (ts_of_keeps hu (by decide))).trans ho)
    rw [hname] at hmaster hlat
    rw [hroot]
    obtain ⟨h1, h2, h3⟩ := rootWord_fields (leNat f.payload)
    exact ⟨(congrArg Sb.appoint hsb).trans happ, hmaster, hlat, h1, h2, h3, hu.sameMem.trans hk.sameMem⟩

end Sys2Proof.Machine
end

section
/-! A line that waits in the monitor's buffer with no command running (R436), which no run leaves there: the next register access serves it
beside what the access itself does. -/

namespace Sys2Proof.Machine

-- Each theorem in turn: side by side they would reserve more stacks than a check has memory for.
set_option Elab.async false

/-- A tile in FW_READY with debug unlocked, and `poke` of `TILE_WDOG` in the monitor's buffer. -/
def pokeWaits : State :=
  let s := (State.reset.setFld Reg.TILE_STATE_STATE tsFwReady).setFlag Reg.DBG_STATE_UNLOCKED true
  { s with mon := { s.mon with input := [.monitorPoke Reg.TILE_WDOG 5] } }

/-- `pokeWaits` with operating point 0 valid. -/
def pokeWaitsPoint : State := pokeWaits.wr (Reg.PWR_VF 0 + 4) 0x80000000

/-- `pokeWaits` with queue 0 ENABLED. -/
def pokeWaitsQueue : State := pokeWaits.setFld (Reg.QUEUE_STATE_STATE 0) 2

/-- `pokeWaits` with edge 0 in service, its partner able to carry marks. -/
def pokeWaitsEdge : State := (pokeWaits.setFld (Reg.LINK_STATUS_STATE 0) 2).wr (Reg.LINK_PEER 0 + 4) 0xFFFFFFFF

/-- A write that only the words `p` may change leaves `TILE_WDOG`, which the waiting line writes. -/
theorem not_sameRegs_of_wdog {s t : State} {p : Nat → Prop} (h : t.rd Reg.TILE_WDOG ≠ s.rd Reg.TILE_WDOG) (hp : ¬ p Reg.TILE_WDOG) :
    ¬ s.sameRegs t p := fun hs => h (hs _ hp)

theorem pokeWaits_opens : pokeWaitsPoint.takesWrite .monitor Reg.PWR_OP 0 ∧ pokeWaits.takesWrite .monitor Reg.PWR_SLEEP 1
    ∧ pokeWaits.takesWrite .monitor (Reg.BANK_OFF_REQ ((1 : Site))) 1 ∧ pokeWaitsQueue.takesWrite .monitor Reg.QDB 0
    ∧ pokeWaits.takesWrite .monitor (Reg.QUEUE_CTL ((0 : QueueId))) 1 ∧ pokeWaits.takesWrite .monitor Reg.TILE_WDOG 9
    ∧ pokeWaits.takesWrite .monitor Reg.DBG_STATE 0 ∧ pokeWaitsEdge.takesWrite .monitor Reg.LINK_BEAT 0 := by
  decide +kernel

/-- The line is served with each of the accesses. -/
theorem pokeWaits_served : (pokeWaitsPoint.after (.pwrOpReq .monitor 0)).rd Reg.TILE_WDOG ≠ pokeWaitsPoint.rd Reg.TILE_WDOG
    ∧ (pokeWaits.after (.pwrSleepReq .monitor 1)).rd Reg.TILE_WDOG ≠ pokeWaits.rd Reg.TILE_WDOG
    ∧ (pokeWaits.after (.bankOffReqWrite .monitor 1 1)).rd Reg.TILE_WDOG ≠ pokeWaits.rd Reg.TILE_WDOG
    ∧ (pokeWaitsQueue.after (.qdbWrite .monitor 0)).rd Reg.TILE_WDOG ≠ pokeWaitsQueue.rd Reg.TILE_WDOG
    ∧ (pokeWaits.after (.queueCtlEnSet .monitor 0 0)).rd Reg.TILE_WDOG ≠ pokeWaits.rd Reg.TILE_WDOG
    ∧ (pokeWaits.after (.registerWrite ⟨.monitor, .word⟩ Reg.TILE_WDOG 9)).fld Reg.TILE_WDOG_BEATS = 5
    ∧ (pokeWaits.after (.dbgStateLock .monitor 0)).rd Reg.TILE_WDOG ≠ pokeWaits.rd Reg.TILE_WDOG
    ∧ (pokeWaitsEdge.after (.linkBeatWrite .monitor 0)).rd Reg.TILE_WDOG ≠ pokeWaitsEdge.rd Reg.TILE_WDOG := by
  decide +kernel

/-- Refutes O14, in its clause on an accepted request of a point: a line that waits in the monitor's buffer is served with it. -/
theorem not_powerIsLimited : ¬ Obligations.PowerIsLimited := by
  unfold Obligations.PowerIsLimited
  rintro ⟨hop, -⟩
  obtain ⟨hw, -⟩ := pokeWaits_opens
  obtain ⟨hserved, -⟩ := pokeWaits_served
  obtain ⟨-, -, -, -, -, hregs, -⟩ := (hop pokeWaitsPoint .monitor 0 hw rfl).after
  exact not_sameRegs_of_wdog hserved (by decide) hregs

/-- Refutes O15, in its clause on SLEEP_REQ: a line that waits in the monitor's buffer is served with it. -/
theorem not_regionsAndSleep : ¬ Obligations.RegionsAndSleep := by
  unfold Obligations.RegionsAndSleep
  rintro ⟨-, -, hsleep, -⟩
  obtain ⟨-, hw, -⟩ := pokeWaits_opens
  obtain ⟨-, hserved, -⟩ := pokeWaits_served
  obtain ⟨-, hregs, -⟩ := (hsleep pokeWaits .monitor 1 hw (by decide) (by decide +kernel)).after
  exact not_sameRegs_of_wdog hserved (by decide) hregs

/-- Refutes O32, in its clause on BANK_OFF_REQ: a line that waits in the monitor's buffer is served with the write. -/
theorem not_banksAndStoresAnswerWrites : ¬ Obligations.BanksAndStoresAnswerWrites := by
  unfold Obligations.BanksAndStoresAnswerWrites
  rintro ⟨hoff, -⟩
  obtain ⟨-, -, hw, -⟩ := pokeWaits_opens
  obtain ⟨-, -, hserved, -⟩ := pokeWaits_served
  obtain ⟨-, hregs, -⟩ := (hoff pokeWaits .monitor 1 1 hw (by decide +kernel)).after
  exact not_sameRegs_of_wdog hserved (by decide) hregs

/-- Refutes O41, in its clause on a write of `QDB`: a line that waits in the monitor's buffer is served with the write. -/
theorem not_queuesFetchPackets : ¬ Obligations.QueuesFetchPackets := by
  unfold Obligations.QueuesFetchPackets
  rintro ⟨-, -, -, hqdb, -⟩
  obtain ⟨-, -, -, hw, -⟩ := pokeWaits_opens
  obtain ⟨-, -, -, hserved, -⟩ := pokeWaits_served
  obtain ⟨htail, -⟩ := (hqdb pokeWaitsQueue .monitor 0 0 hw (by decide) (by decide) (by decide +kernel)).after
  exact not_sameRegs_of_wdog hserved (by decide) (htail (by decide +kernel)).2

/-- Refutes O42, in its clause on a queue's enable bit: a line that waits in the monitor's buffer is served with the write. -/
theorem not_enablesRunChecks : ¬ Obligations.EnablesRunChecks := by
  unfold Obligations.EnablesRunChecks
  rintro ⟨hset, -⟩
  obtain ⟨-, -, -, -, hw, -⟩ := pokeWaits_opens
  obtain ⟨-, -, -, -, hserved, -⟩ := pokeWaits_served
  obtain ⟨-, -, -, -, hregs, -⟩ := (hset pokeWaits .monitor 0 0 hw (by decide +kernel)).after
  exact not_sameRegs_of_wdog hserved (by decide) hregs

/-- Refutes O44, in its clause on `TILE_WDOG`: a line that waits in the monitor's buffer is served with the write, and writes the same
register. -/
theorem not_registerWrites : ¬ Obligations.RegisterWrites := by
  unfold Obligations.RegisterWrites
  rintro ⟨-, -, -, hwdog, -⟩
  obtain ⟨-, -, -, -, -, hw, -⟩ := pokeWaits_opens
  obtain ⟨-, -, -, -, -, hserved, -⟩ := pokeWaits_served
  obtain ⟨hbeats, -⟩ := (hwdog pokeWaits .monitor 9 hw).after
  exact absurd (hserved.symm.trans hbeats) (by decide)

/-- Refutes O49, in its clause on `DBG_STATE`: a line that waits in the monitor's buffer is served with the write. -/
theorem not_healthAndSecurityCommands : ¬ Obligations.HealthAndSecurityCommands := by
  unfold Obligations.HealthAndSecurityCommands
  rintro ⟨-, -, -, -, -, -, -, -, hlock⟩
  obtain ⟨-, -, -, -, -, -, hw, -⟩ := pokeWaits_opens
  obtain ⟨-, -, -, -, -, -, hserved, -⟩ := pokeWaits_served
  obtain ⟨-, hregs, -⟩ := (hlock pokeWaits .monitor 0 hw).after
  exact not_sameRegs_of_wdog hserved (by decide) hregs

/-- Refutes O53, in its clause on `LINK_BEAT`: a line that waits in the monitor's buffer is served with the write. -/
theorem not_forwardsProbesAndLoops : ¬ Obligations.ForwardsProbesAndLoops := by
  unfold Obligations.ForwardsProbesAndLoops
  rintro ⟨-, -, -, -, -, -, -, -, hbeat, -⟩
  obtain ⟨-, -, -, -, -, -, -, hw⟩ := pokeWaits_opens
  obtain ⟨-, -, -, -, -, -, -, hserved⟩ := pokeWaits_served
  obtain ⟨-, hup, -⟩ := (hbeat pokeWaitsEdge .monitor 0 0 hw (by decide)).after
  exact not_sameRegs_of_wdog hserved (by decide) (hup (by decide)).2

end Sys2Proof.Machine
end

section
/-! More accesses that wait for a bank's self-test (R216, R337) in a slice that reads without error: descriptors, records, code and arrivals. -/

namespace Sys2Proof.Machine

-- Each theorem in turn: side by side they would reserve more stacks than a check has memory for.
set_option Elab.async false

/-- A running tile whose slot 0 of site 1 is at a word, with its first bytes of the slice; bank 0 of the site is under test. -/
def testedSlot (w : Nat) (slice : List Host.Cell) : State :=
  let s := (State.reset.setFld Reg.TILE_STATE_STATE tsRunning).setSlotState 1 0 slRun
  let s := s.modSlot 1 0 fun x => { x with buf := leBytes 4 w, blk := { id := 1 } }
  let s := s.modCl 1 fun c => { c with slice := slice }
  { s with tile := { s.tile with errs := [bankUnderTest] } }

/-- A descriptor at offset 0 of a slice. -/
def descSlice (d : Nat) : List Host.Cell := memWrite [] 0 (leBytes 64 d)

/-- BZ.ASTREAM of no rows in array 0, its descriptor at 0. -/
def astreamWord : Nat := 0x200100B

/-- A stream descriptor of format 0x01 with its status record at 0. -/
def streamOf0 : Nat := 2 ^ 128

/-- BZ.SARM of context 0, its record at 0. -/
def sarmWord : Nat := 0x5B

/-- An arm record of one transfer of one byte. -/
def armOfByte : Nat := 2 ^ 8 + 2 ^ 16 + 2 ^ 160

/-- BZ.FILL with its descriptor at 0. -/
def fillWord : Nat := 0x405B

/-- A fill of 8 B at 0. -/
def fillOf8 : Nat := 8 * 2 ^ 64 + 2 ^ 96

/-- BZ.ENDB that goes to the next entry. -/
def endbWord : Nat := 0x307B

theorem testedSlot_astream : (testedSlot astreamWord (descSlice streamOf0)).atWord (1 : Site) (0 : SlotId) astreamWord
    ∧ opcodeIs astreamWord 0x0B 1 ∧ (testedSlot astreamWord (descSlice streamOf0)).clean (1 : Site)
    ∧ ((testedSlot astreamWord (descSlice streamOf0)).x (1 : Site) (0 : SlotId) (wRs1 astreamWord)).toNat = 0
    ∧ ((testedSlot astreamWord (descSlice streamOf0)).x (1 : Site) (0 : SlotId) (wRs2 astreamWord)).toNat = 0
    ∧ (testedSlot astreamWord (descSlice streamOf0)).descAt (1 : Site) 0 = some streamOf0
    ∧ ∀ a, a < 4 → (testedSlot astreamWord (descSlice streamOf0)).landSpan (1 : Site) streamOf0 a 0 = true := by
  decide +kernel

theorem testedSlot_sarm : (testedSlot sarmWord (descSlice armOfByte)).atWord (1 : Site) (0 : SlotId) sarmWord
    ∧ opcodeIs sarmWord 0x5B 0 ∧ (testedSlot sarmWord (descSlice armOfByte)).clean (1 : Site)
    ∧ ((testedSlot sarmWord (descSlice armOfByte)).x (1 : Site) (0 : SlotId) (wRs1 sarmWord)).toNat = 0
    ∧ (testedSlot sarmWord (descSlice armOfByte)).descAt (1 : Site) 0 = some armOfByte
    ∧ (testedSlot sarmWord (descSlice armOfByte)).armOk (1 : Site) armOfByte = true
    ∧ ((testedSlot sarmWord (descSlice armOfByte)).ctx (1 : Site) (wF7 sarmWord)).act = none := by
  decide +kernel

theorem testedSlot_fill : (testedSlot fillWord (descSlice fillOf8)).atWord (1 : Site) (0 : SlotId) fillWord
    ∧ opcodeIs fillWord 0x5B 4 ∧ (testedSlot fillWord (descSlice fillOf8)).clean (1 : Site)
    ∧ ((testedSlot fillWord (descSlice fillOf8)).x (1 : Site) (0 : SlotId) (wRs1 fillWord)).toNat = 0
    ∧ (testedSlot fillWord (descSlice fillOf8)).descAt (1 : Site) 0 = some fillOf8
    ∧ roomIn (((testedSlot fillWord (descSlice fillOf8)).cl (1 : Site)).fills.drop 1) (0 : SlotId) = true := by
  decide +kernel

theorem testedSlot_endb : (testedSlot endbWord []).atWord (1 : Site) (0 : SlotId) endbWord ∧ opcodeIs endbWord 0x7B 3
    ∧ (testedSlot endbWord []).clean (1 : Site) ∧ ((testedSlot endbWord []).slot (1 : Site) (0 : SlotId)).blk.last = false
    ∧ ((testedSlot endbWord []).slot (1 : Site) (0 : SlotId)).blk.failed = false := by
  decide +kernel

/-- Each of the opcodes waits. -/
theorem testedSlot_waits : (((testedSlot astreamWord (descSlice streamOf0)).after (.bzAstream 1 0)).slot (1 : Site) (0 : SlotId)).instret = 0
    ∧ (((testedSlot sarmWord (descSlice armOfByte)).after (.bzSarm 1 0)).slot (1 : Site) (0 : SlotId)).instret = 0
    ∧ (((testedSlot fillWord (descSlice fillOf8)).after (.bzFill 1 0)).slot (1 : Site) (0 : SlotId)).instret = 0
    ∧ (((testedSlot endbWord []).after (.bzEndb 1 0)).slot (1 : Site) (0 : SlotId)).copied = false := by
  decide +kernel

/-- Nothing has retired in `testedSlot`. -/
theorem testedSlot_instret (w : Nat) (l : List Host.Cell) : ((testedSlot w l).slot (1 : Site) (0 : SlotId)).instret = 0 := rfl

/-- Refutes O22, in its clause on a stream of no rows: while the bank of its record is under test the slot stalls. -/
theorem not_arrayOpcodesIssue : ¬ Obligations.ArrayOpcodesIssue := by
  unfold Obligations.ArrayOpcodesIssue
  rintro ⟨-, -, -, hzero, -⟩
  obtain ⟨hw, ho, hc, h1, h2, hd, hl⟩ := testedSlot_astream
  obtain ⟨hwait, -⟩ := testedSlot_waits
  obtain ⟨⟨-, hretired⟩, -⟩ := (hzero _ 1 0 astreamWord streamOf0 hw ho rfl (by decide) (by decide) (by decide) h2 hc (by rw [h1]; exact hd)
    (by decide +kernel) (by decide +kernel) fun a ha _ => hl a ha).after
  rw [hwait] at hretired
  cases hretired

/-- Refutes O24, in its clause on an idle context: while the bank of the arm's record is under test the slot stalls. -/
theorem not_streamOpcodesArmAndCancel : ¬ Obligations.StreamOpcodesArmAndCancel := by
  unfold Obligations.StreamOpcodesArmAndCancel
  rintro ⟨harm, -⟩
  obtain ⟨hw, ho, hc, h1, hd, hok, hact⟩ := testedSlot_sarm
  obtain ⟨-, hwait, -⟩ := testedSlot_waits
  obtain ⟨⟨-, hretired⟩, -⟩ := (harm _ 1 0 sarmWord armOfByte hw ho (by decide) (by decide) hc (by rw [h1]; exact hd) hok hact).after
  rw [hwait] at hretired
  cases hretired

/-- Refutes O25, in its clause on BZ.FILL: while the bank of its descriptor is under test the slot stalls. -/
theorem not_sendsFillsAndSignalsAreRecorded : ¬ Obligations.SendsFillsAndSignalsAreRecorded := by
  unfold Obligations.SendsFillsAndSignalsAreRecorded
  rintro ⟨-, hfill, -⟩
  obtain ⟨hw, ho, hc, h1, hd, hroom⟩ := testedSlot_fill
  obtain ⟨-, -, hwait, -⟩ := testedSlot_waits
  obtain ⟨⟨-, hretired⟩, -⟩ := (hfill _ 1 0 fillWord fillOf8 hw ho (by decide) (by decide) hc (by rw [h1]; exact hd) (by decide +kernel) hroom).after
  rw [hwait] at hretired
  cases hretired

/-- Refutes O27, in its clause on the end of a block that is not the last: while the bank of the next block's code is under test the code
is not copied. -/
theorem not_blockEndsAndArrivals : ¬ Obligations.BlockEndsAndArrivals := by
  unfold Obligations.BlockEndsAndArrivals
  rintro ⟨-, -, -, hend, -⟩
  obtain ⟨hw, ho, hc, hlast, hfailed⟩ := testedSlot_endb
  obtain ⟨-, -, -, hwait⟩ := testedSlot_waits
  obtain ⟨-, hcopied, -⟩ := (hend _ 1 0 endbWord _ hw ho (by decide) (by decide) (by decide) hlast hfailed hc (fun _ => rfl)
    fun h => absurd h (by decide)).after
  exact absurd (hwait.symm.trans hcopied) (by decide)

/-! ## Units -/

/-- A running tile in which bank 0 of site 1 is under test. -/
def testedBank : State :=
  let s := State.reset.setFld Reg.TILE_STATE_STATE tsRunning
  { s with tile := { s.tile with errs := [bankUnderTest] } }

/-- An operation of engine 0 that has nothing left to read or write; its record goes to offset 0. -/
def overRun : VRun := { op := { id := 1, kind := .vrun, slot := 0, blk := 0, f7 := 0, desc := 0 }, dv := 0, last := true }

/-- `testedBank` with `overRun` in engine 0. -/
def testedEngine : State := testedBank.modEng 1 0 fun x => { x with cur := some overRun }

/-- A fill of 8 B at 0 with the constant 1. -/
def fillOp : Op := { id := 1, kind := .fill, slot := 0, blk := 0, f7 := 0, desc := fillOf8, arg := 1 }

/-- `testedBank` with `fillOp` at the head of its queue. -/
def testedFill : State := testedBank.modCl 1 fun c => { c with fills := [fillOp] }

/-- A transfer of one byte for landing slot 0. -/
def hopOfByte : Hop := { dir := 0, j := 0, land := 0, bytes := [1], pass := none, src := (1, 0, 0) }

/-- `testedBank` with `hopOfByte` on its way to landing slot 0. -/
def testedLanding : State := (testedBank.setFld (Reg.LAND_NSLOT_NSLOT 1) 1).modCl 1 fun c => { c with hops := [hopOfByte] }

theorem testedEngine_runs : testedEngine.alive = true ∧ testedEngine.live (1 : Site) = true
    ∧ (testedEngine.eng (1 : Site) (0 : EngId)).cur = some overRun ∧ testedEngine.clean (1 : Site) := by
  decide +kernel

theorem testedFill_runs : testedFill.alive = true ∧ testedFill.live (1 : Site) = true ∧ testedFill.testing (1 : Site) 7 = false
    ∧ testedFill.clean (1 : Site) ∧ (testedFill.cl (1 : Site)).fills = [fillOp] := by
  decide +kernel

theorem testedLanding_runs : testedLanding.alive = true ∧ testedLanding.live (1 : Site) = true
    ∧ (testedLanding.cl (1 : Site)).hops = [hopOfByte] ∧ testedLanding.clean (1 : Site)
    ∧ hopOfByte.land < testedLanding.fld (Reg.LAND_NSLOT_NSLOT (1 : Site)) ∧ testedLanding.landFree (1 : Site) 0 = true
    ∧ hopOfByte.bytes.length ≤ testedLanding.landBytes (1 : Site) := by
  decide +kernel

/-- Each of the units waits. -/
theorem testedUnits_wait : ((testedEngine.after (.vectorOpComplete 1 0)).eng (1 : Site) (0 : EngId)).cur ≠ none
    ∧ memGet ((testedFill.after (.fillCopyComplete 1 false)).cl (1 : Site)).slice 0 = 0
    ∧ ((testedLanding.after (.neighbourArrival 1 0)).cl (1 : Site)).hops ≠ [] := by
  decide +kernel

/-- Refutes O30, in its clause on completion: while the bank of the status record is under test the operation does not complete. -/
theorem not_vectorOperationsRun : ¬ Obligations.VectorOperationsRun := by
  unfold Obligations.VectorOperationsRun
  rintro ⟨-, -, -, -, hdone, -⟩
  obtain ⟨ha, hl, hcur, hc⟩ := testedEngine_runs
  obtain ⟨hwait, -⟩ := testedUnits_wait
  exact hwait (hdone testedEngine 1 0 overRun ha hl hcur rfl hc).after.1

/-- Refutes O31, in its clause on a fill: while a bank of its range is under test it leaves nothing. -/
theorem not_streamTransfersMoveData : ¬ Obligations.StreamTransfersMoveData := by
  unfold Obligations.StreamTransfersMoveData
  rintro ⟨-, -, -, -, -, -, -, hfill, -⟩
  obtain ⟨ha, hl, ht, hc, hq⟩ := testedFill_runs
  obtain ⟨-, hwait, -⟩ := testedUnits_wait
  obtain ⟨hbytes, -⟩ := (hfill testedFill 1 fillOp [] 0 8 ha hl ht hc hq rfl (by decide +kernel) (by decide +kernel) (by decide +kernel)).after
  exact absurd (hwait.symm.trans (hbytes 0 (by decide))) (by decide +kernel)

/-- Refutes O18, in its clause on an arrival from a neighbour: while a bank of the landing slot is under test the transfer waits. -/
theorem not_transfersLand : ¬ Obligations.TransfersLand := by
  unfold Obligations.TransfersLand
  rintro ⟨-, -, -, harrival, -⟩
  obtain ⟨ha, hl, hh, hc, hn, hf, hb⟩ := testedLanding_runs
  obtain ⟨-, -, hwait⟩ := testedUnits_wait
  exact hwait (harrival testedLanding 1 0 hopOfByte ha hl hh rfl rfl hn (by decide) hf hc hb).after.1

end Sys2Proof.Machine
end

section
/-! A lost beat that takes an edge out of service (R335, R401), and commits and signals that wait for the self-test of a synchronisation
unit (R337). -/

namespace Sys2Proof.Machine

-- Each theorem in turn: side by side they would reserve more stacks than a check has memory for.
set_option Elab.async false

/-- A running tile that awaits its marks from edge 0, which is UP. -/
def markAwaited : State :=
  let s := ((State.reset.setFld Reg.TILE_STATE_STATE tsRunning).setFld (Reg.LINK_STATUS_STATE 0) 2).setFld Reg.LINK_BEAT_UP 0
  { s with beat := { s.beat with started := true } }

theorem markAwaited_awaits : markAwaited.marked = true ∧ markAwaited.beat.started = true ∧ markAwaited.flag Reg.BEAT_CFG_MASTER = false
    ∧ markAwaited.beat.armed = none ∧ markAwaited.beat.lost = false := by
  decide +kernel

/-- The beat loss puts the edge into TRAINING for its test. -/
theorem beatLoss_markAwaited : (markAwaited.after .beatLoss).regs ≠ markAwaited.regs := by
  decide +kernel

/-- Refutes O16, in its clause on BEAT_LOSS: the error is of the edge that brings the marks, and where that edge is UP its test writes its
LINK_STATUS, so the registers do not stay. -/
theorem not_marksKeepTheBeat : ¬ Obligations.MarksKeepTheBeat := by
  unfold Obligations.MarksKeepTheBeat
  rintro ⟨-, -, -, hloss, -⟩
  obtain ⟨hm, hs, hmaster, harmed, hlost⟩ := markAwaited_awaits
  obtain ⟨-, -, hregs, -⟩ := (hloss markAwaited hm hs hmaster harmed hlost).after
  exact beatLoss_markAwaited hregs

/-- A running tile whose slot 0 of site 1 has ended its block; the cluster's synchronisation unit is under test. -/
def commitsUnderTest : State :=
  let s := (State.reset.setFld Reg.TILE_STATE_STATE tsRunning).setSlotState 1 0 slCommit
  let s := s.modSlot 1 0 fun x => { x with blk := { id := 1 } }
  { s with tile := { s.tile with errs := [syncUnderTest] } }

theorem commitsUnderTest_commits : commitsUnderTest.alive = true ∧ commitsUnderTest.live (1 : Site) = true
    ∧ commitsUnderTest.committing (1 : Site) (0 : SlotId) = true ∧ (commitsUnderTest.slot (1 : Site) (0 : SlotId)).blk = { id := 1 }
    ∧ (commitsUnderTest.cl (1 : Site)).opsLeft (0 : SlotId) 1 = false
    ∧ (commitsUnderTest.slot (1 : Site) (0 : SlotId)).replay = false := by
  refine ⟨?_, ?_, ?_, ?_, ?_, ?_⟩ <;> decide +kernel

/-- The block does not commit. -/
theorem blockCommit_commitsUnderTest : ((commitsUnderTest.after (.blockCommit 1 0)).slot (1 : Site) (0 : SlotId)).blk.id = 1 := by
  decide +kernel

/-- Refutes O17, in its clause on the commit of a block: no premise excludes a self-test of the cluster's synchronisation unit, which
BLOCK_COMMIT waits for. -/
theorem not_blocksStartAndCommit : ¬ Obligations.BlocksStartAndCommit := by
  unfold Obligations.BlocksStartAndCommit
  rintro ⟨-, hcommit, -⟩
  obtain ⟨ha, hl, hc, hb, ho, hr⟩ := commitsUnderTest_commits
  obtain ⟨hblk, -⟩ := (hcommit commitsUnderTest 1 0 ha hl hc (by rw [hb]; decide) (by rw [hb]) (by rw [hb]; exact ho) (by rw [hb])
    (by rw [hb]) (by rw [hb]) (by rw [hb]) (by rw [hb]) (by rw [hb]) hr).after
  have hid := blockCommit_commitsUnderTest
  rw [hblk] at hid
  cases hid

/-- A SIGNAL message of increment 1 to object 0 of site 1. -/
def signalOf1 : GMsg := { vch := 0, ty := 6, dst := 0x19, aux := 0x10000, data := [] }

/-- A running tile in whose inbox the signal waits; the cluster's synchronisation unit is under test. -/
def signalUnderTest : State :=
  let s := State.reset.setFld Reg.TILE_STATE_STATE tsRunning
  { s with inbox := [signalOf1], tile := { s.tile with errs := [syncUnderTest] } }

theorem signalUnderTest_waits : signalUnderTest.fw = true ∧ signalUnderTest.waits signalOf1 = true
    ∧ signalUnderTest.origin signalOf1 = some .agent ∧ signalUnderTest.toMe signalOf1.dst.toNat = true
    ∧ signalUnderTest.tile.mute = [] ∧ signalUnderTest.live (1 : Site) = true
    ∧ signalUnderTest.fld (Reg.SYNC_VAL_VALUE 1 0) = 0 := by
  refine ⟨?_, ?_, ?_, ?_, ?_, ?_, ?_⟩ <;> decide +kernel

/-- The object keeps its value. -/
theorem remoteSignal_signalUnderTest : (signalUnderTest.after (.remoteSignal signalOf1)).fld (Reg.SYNC_VAL_VALUE 1 0) = 0 := by
  decide +kernel

/-- Refutes O33, in its clause on a SIGNAL to a cluster object: no premise excludes a self-test of the cluster's synchronisation unit, in
which the message waits. -/
theorem not_signalsAndBarriersAdvance : ¬ Obligations.SignalsAndBarriersAdvance := by
  unfold Obligations.SignalsAndBarriersAdvance
  rintro ⟨hsignal, -⟩
  obtain ⟨hf, hw, ho, hme, hmute, hl, hzero⟩ := signalUnderTest_waits
  obtain ⟨hval, -⟩ := (hsignal signalUnderTest signalOf1 .agent 1 0 hf rfl hw ho hme (by rw [hmute]; exact List.not_mem_nil) (by decide)
    (by decide) (by decide) (by decide) (by decide) hl).after
  rw [hzero] at hval
  exact absurd (remoteSignal_signalUnderTest.symm.trans hval) (by decide)

end Sys2Proof.Machine
end

section
/-! A conversion that shares the read grants with a stream context (R210, R267), and a copy of an image that holds an empty section (R318). -/

namespace Sys2Proof.Machine

-- Each theorem in turn: side by side they would reserve more stacks than a check has memory for.
set_option Elab.async false

/-- A bucket that still wants three grants. -/
def hungryBucket : Bucket := { converting := true, want := 3 }

/-- The arm record of one LOAD of 128 B. -/
def loadOf128 : Nat := 2 ^ 8 + 128 * 2 ^ 16 + 2 ^ 160

/-- A running tile with two read grants left; the reduction engine comes next in the rotation, and site 1 asks for a grant too. -/
def sharedGrants : State :=
  let s := State.reset.setFld Reg.TILE_STATE_STATE tsRunning
  let s := s.modCtx 1 0 fun x => { x with act := some { desc := loadOf128, home := 0, slot := 0, blk := 1, limit := 1 } }
  { s with tile := { s.tile with buckets := [(4096, hungryBucket)], grants := [(0, 2)], served := [(0, 63)] } }

theorem sharedGrants_turn : sharedGrants.fw = true ∧ sharedGrants.classTurn 0 64 = true ∧ sharedGrants.grantsLeft 0 = 2 := by
  refine ⟨?_, ?_, ?_⟩ <;> decide +kernel

/-- The engine takes one grant, and the next is the stream context's. -/
theorem conversionDone_sharedGrants : (sharedGrants.after (.conversionDone 1)).grantsLeft 0 = 1 := by
  decide +kernel

/-- Refutes O35, in its clause on a bucket whose grants do not suffice: the engine takes one grant a turn, and one that another requester
asks for stays. -/
theorem not_bucketsSealAndConvert : ¬ Obligations.BucketsSealAndConvert := by
  unfold Obligations.BucketsSealAndConvert
  rintro ⟨-, -, -, hwait⟩
  obtain ⟨hf, hturn, hleft⟩ := sharedGrants_turn
  obtain ⟨-, -, hnone, -⟩ := (hwait sharedGrants 1 0 hungryBucket hf (by decide) rfl rfl hturn (by rw [hleft]; decide)).after
  rw [conversionDone_sharedGrants] at hnone
  cases hnone

/-- A JOB_LOAD of queue 0 whose copy runs. -/
def loadOfEmptySection : Flight :=
  { queue := 0, seq := 0, opcode := 0x10, tag := 0, jobId := 0, halt := false, head := 0, param := 0, phase := .running }

/-- A tile in FW_READY with package memory that copies an image of one empty section. -/
def copiesEmptySection : State :=
  let s := ((State.reset.setFld Reg.TILE_STATE_STATE tsFwReady).setFld Reg.MEM_CFG_NSTACK 1).setFld Reg.MEM_CFG_STACK_LOG2 6
  { s with flights := [loadOfEmptySection], job := { s.job with image := [{ dest := 0, bytes := 0, src := 0, fixed := false }] } }

theorem copiesEmptySection_runs : copiesEmptySection.fw = true ∧ copiesEmptySection.runningOp 0x10 = some loadOfEmptySection
    ∧ copiesEmptySection.replyAt 0 + 32 ≤ copiesEmptySection.memSize := by
  refine ⟨?_, ?_, ?_⟩ <;> decide +kernel

/-- The reply counts the empty section as copied. -/
theorem jobLoadTmo_copiesEmptySection : (copiesEmptySection.after .jobLoadTmo).pkgRead (copiesEmptySection.replyAt 0) 32 ≠
    leBytes 32 (replyBits 0 stTimeout 0x020B 0 0 0 0 0 (copiesEmptySection.qst 0).phase) := by
  decide +kernel

/-- Refutes O50, in its clause on a late copy: DETAIL counts the sections copied, and an empty one at the front of the image counts from the
start. -/
theorem not_jobsLoadAndStart : ¬ Obligations.JobsLoadAndStart := by
  unfold Obligations.JobsLoadAndStart
  rintro ⟨-, -, -, hlate, -⟩
  obtain ⟨hf, hrun, hroom⟩ := copiesEmptySection_runs
  obtain ⟨⟨-, hreply⟩, -⟩ := (hlate copiesEmptySection loadOfEmptySection hf hrun (by decide)).after
  exact jobLoadTmo_copiesEmptySection (hreply hroom)

end Sys2Proof.Machine
end

section
/-! A REG_WRITE that serves a line which waits in the monitor's buffer (R316, R436). -/

namespace Sys2Proof.Machine

-- Each theorem in turn: side by side they would reserve more stacks than a check has memory for.
set_option Elab.async false

/-- A REG_WRITE of 9 to `TILE_WDOG`, fetched from queue 0. -/
def regWriteWdog : Flight :=
  { queue := 0, seq := 0, opcode := 0x03, tag := 0, jobId := 0, halt := false, head := 0, param := Reg.TILE_WDOG + 2 ^ 32 + 9 * 2 ^ 64 }

/-- `pokeWaits` with the command in flight. -/
def writesAndPokes : State := { pokeWaits with flights := [regWriteWdog] }

theorem writesAndPokes_starts : writesAndPokes.startsCmd ⟨0, 0⟩ 0x03 regWriteWdog ∧ regWriteWdog.writes = [(Reg.TILE_WDOG, 9)]
    ∧ (writesAndPokes.writeRefusal Reg.TILE_WDOG 9).1 = stOk := by
  refine ⟨⟨?_, ?_, ?_⟩, ?_, ?_⟩ <;> decide +kernel

/-- The poke is served after the command, and writes the same register. -/
theorem regWrite_writesAndPokes : (writesAndPokes.after (.regWrite ⟨0, 0⟩)).fld Reg.TILE_WDOG_BEATS = 5 := by
  decide +kernel

/-- Refutes O45, in its clause on a REG_WRITE of `TILE_WDOG`: a line that waits in the monitor's buffer is served with the command. -/
theorem not_housekeepingCommands : ¬ Obligations.HousekeepingCommands := by
  unfold Obligations.HousekeepingCommands
  rintro ⟨-, -, -, -, hwdog, -⟩
  obtain ⟨hstart, hwrites, hok⟩ := writesAndPokes_starts
  obtain ⟨-, hbeats, -⟩ := (hwdog writesAndPokes ⟨0, 0⟩ regWriteWdog 9 hstart hwrites hok (by decide) rfl rfl).after
  exact absurd (regWrite_writesAndPokes.symm.trans hbeats) (by decide)

end Sys2Proof.Machine
end

section
/-! Reductions, recovery and traps in states that the statements' premises leave open: a marked bucket, a result line that shares the write
grants, a restart arrival of another attempt, a slot number past the four of a cluster, a block whose bytes a JOB_STOP takes back, a spare
lane that carries flits unrecorded, and a block that traps while an operation of it runs. -/

namespace Sys2Proof.Machine

-- Each theorem in turn: side by side they would reserve more stacks than a check has memory for.
set_option Elab.async false

/-! ## Reduction -/

/-- A running tile with reduction group 1 in use. -/
def groupInUse : State :=
  ((State.reset.setFld Reg.TILE_STATE_STATE tsRunning).setFlag Reg.REDUCE_CTL_EN true).setFlag (Reg.REDUCE_GRP0_EN 1) true

/-- Its node takes edge 0's contribution to edge 1; bucket 0 is marked for repeat. -/
def markedNode : State :=
  let s := (groupInUse.setFld (Reg.REDUCE_GRP0_IN_MASK 1) 1).setFld (Reg.REDUCE_GRP0_OUT 1) 1
  s.modBucket 1 0 fun b => { b with marked := true }

/-- A trailer of zeros for bucket 0 of group 1. -/
def trailerUp : GMsg := { vch := 1, ty := 8, dst := 0, aux := 0x20000, data := [] }

theorem markedNode_takes : markedNode.redTakes 0 trailerUp rkUpEnd markedNode ∧ (markedNode.redMask 1).testBit 0 = true
    ∧ (markedNode.bucket 1 0).closed = false ∧ residueOk trailerUp ∧ markedNode.redRoot 1 = false ∧ markedNode.redOut 1 = 1
    ∧ (markedNode.edge 1).peer = false ∧ markedNode.redInputs 1 = [0] := by
  refine ⟨⟨?_, ?_, ?_, ?_, rfl, ?_⟩, ?_, ?_, ?_, ?_, ?_, ?_, ?_⟩ <;> decide +kernel

/-- No trailer goes up. -/
theorem reductionTrailerArrival_markedNode : ((markedNode.after (.reductionTrailerArrival 0 trailerUp)).edge 1).out = [] := by
  decide +kernel

/-- Refutes O37, in its clause on the last trailer: of a bucket that its node has marked for repeat no trailer goes up. -/
theorem not_nodesAddAndForward : ¬ Obligations.NodesAddAndForward := by
  unfold Obligations.NodesAddAndForward
  rintro ⟨-, -, -, -, -, hlast, -⟩
  obtain ⟨htakes, hmask, hopen, hres, hroot, hout, hpeer, hin⟩ := markedNode_takes
  obtain ⟨-, ⟨x, hx, -⟩, -⟩ := (hlast markedNode markedNode 0 trailerUp 1 0 htakes rfl (by decide) hmask hopen hres hroot
    (by rw [hout]; decide) (.inl (by rw [hout]; exact hpeer)) (fun p hp => .inl (by rw [hin] at hp; exact List.mem_singleton.mp hp))).after
  rw [hout, reductionTrailerArrival_markedNode] at hx
  simp at hx

/-- A descriptor of 16 FP32 elements with its result at 0x1000. -/
def resultDesc : Nat := 0x1000 * 2 ^ 64 + 16 * 2 ^ 128 + 0x4000 * 2 ^ 176 + 2 ^ 192

/-- Its result line, each byte 1. -/
def resultLine : GMsg := { vch := 1, ty := 8, dst := 0, aux := 0x40040, data := List.replicate 64 1 }

/-- A participant with two write grants left, for which a STORE of site 1 asks too and comes first. -/
def sharedWrites : State :=
  let s := ((groupInUse.setFld (Reg.REDUCE_GRP0_IN_MASK 1) 32).setFld Reg.MEM_CFG_NSTACK 1).setFld Reg.MEM_CFG_STACK_LOG2 16
  let s := (s.setFld (Reg.REDUCE_GRP2_NBUCKET 1) 1).modCtx 1 0 fun x =>
    { x with act := some { desc := loadOf128 + 1, home := 0, slot := 0, blk := 1, sure := true, limit := 1 } }
  { s with pkgMem := memWrite [] 0 (leBytes 64 resultDesc), tile := { s.tile with grants := [(1, 2)] } }

theorem sharedWrites_takes : sharedWrites.fw = true ∧ sharedWrites.redRoot 1 = false ∧ sharedWrites.redStale resultLine = false
    ∧ sharedWrites.redLocal 1 = true ∧ sharedWrites.redDesc 1 0 = resultDesc ∧ descOk (sharedWrites.redArrival 1) resultDesc = true
    ∧ sharedWrites.grantsLeft 1 ≠ 0 ∧ residueOk resultLine ∧ sharedWrites.memSize = 65536 := by
  refine ⟨?_, ?_, ?_, ?_, ?_, ?_, ?_, ?_, ?_⟩ <;> decide +kernel

/-- Nothing is written. -/
theorem downLineArrival_sharedWrites : (sharedWrites.after (.downLineArrival resultLine)).pkgRead 0x1000 64 ≠ resultLine.data.take 64 := by
  decide +kernel

/-- Refutes O38, in its clause on a result line: with grants of the write class left the line waits as long as another requester comes
first. -/
theorem not_resultsComeDown : ¬ Obligations.ResultsComeDown := by
  unfold Obligations.ResultsComeDown
  rintro ⟨-, hline, -⟩
  obtain ⟨hf, hroot, hstale, hlocal, hdesc, hok, hgrants, hres, hmem⟩ := sharedWrites_takes
  obtain ⟨hread, -⟩ := (hline sharedWrites sharedWrites resultLine resultDesc 0x1000 64 hf rfl (by decide) hroot hstale hlocal hdesc.symm hok
    hgrants rfl hres (by decide) (by decide) (by decide) (by rw [hmem]; decide)).after
  exact downLineArrival_sharedWrites hread

/-! ## Step repeats and swaps -/

/-- A restart arrival of tile 0 for attempt 1. -/
def restartOf1 : GMsg := { vch := 0, ty := 7, dst := 0x2000001, aux := 0x100000008, data := [] }

/-- The root of step barrier 0 in attempt 0, at which tile 1 has arrived. -/
def attempt0 : State :=
  let s := (State.reset.setFld Reg.TILE_STATE_STATE tsRunning).setFlag Reg.ERR_CFG_STEP_EN true
  { s with inbox := [restartOf1], tile := { s.tile with rep := { s.tile.rep with arrived := [1] } } }

theorem attempt0_hears : attempt0.fw = true ∧ attempt0.flag Reg.ERR_CFG_STEP_EN = true ∧ attempt0.holdsRoot attempt0.stepBarrier = true
    ∧ attempt0.ctlWaits (fun m => cmSub m == cmRestart && cmBar m == attempt0.stepBarrier && cmFrom m % 8 == (0 : Fin 8).val) =
      some restartOf1
    ∧ cmFrom restartOf1 ∉ [1] ∧ attempt0.expected attempt0.stepBarrier nRoot = 0 := by
  refine ⟨?_, ?_, ?_, ?_, ?_, ?_⟩ <;> decide +kernel

/-- The arrival counts for nothing. -/
theorem restartArrival_attempt0 : (attempt0.after (.restartArrival 0)).tile.rep.arrived = [1] := by
  decide +kernel

/-- Refutes O39, in its clause on a restart arrival: one of another attempt counts for nothing. -/
theorem not_stepRepeats : ¬ Obligations.StepRepeats := by
  unfold Obligations.StepRepeats
  rintro ⟨-, -, -, -, harrive, -⟩
  obtain ⟨hf, hen, hroot, hwaits, hnew, hexp⟩ := attempt0_hears
  obtain ⟨harrived, -⟩ := (harrive attempt0 0 restartOf1 [1] hf hen hroot hwaits rfl hnew).after
  rw [restartArrival_attempt0, hexp] at harrived
  exact absurd harrived (by decide)

/-- A running tile whose site 1 waits for its swap with site 0; a slot of the number 7104 holds a block, and `SLOT_VL` computed from
that number in site 0's registers is `CL_INFO` of site 1. -/
def swapsStraySlot : State :=
  let s := (State.reset.setFld Reg.TILE_STATE_STATE tsRunning).setFlag (Reg.REGION_MAP_NO_SPARE 0) false
  let s := s.setFlag (Reg.CL_RETIRED_SWAP_PENDING 1) true
  let s := s.modSlot 1 7104 fun x => { x with blk := { id := 1 }, shVl := (2 ^ 14, 0) }
  { s with tile := { s.tile with swapping := true } }

theorem swapsStraySlot_swaps : swapsStraySlot.fw = true ∧ swapsStraySlot.recovers = true ∧ swapsStraySlot.live (1 : Site) = true
    ∧ swapsStraySlot.flag (Reg.CL_RETIRED_SWAP_PENDING (1 : Site)) = true ∧ swapsStraySlot.live 0 = false
    ∧ swapsStraySlot.canSwap (1 : Site) = true ∧ swapsStraySlot.fld (Reg.REGION_MAP_OUT_COL ((1 : Site) / 8)) = 0 := by
  refine ⟨?_, ?_, ?_, ?_, ?_, ?_, ?_⟩ <;> decide +kernel

/-- The slot's vector length makes site 1 active again. -/
theorem clusterSwap_swapsStraySlot : (swapsStraySlot.after .clusterSwap).active (1 : Site) = true := by
  decide +kernel

/-- Refutes O40, in its clause on a pending swap: no premise bounds the numbers of the cluster's slots, and the restored slot writes a
register of site 1. -/
theorem not_testsAndSwaps : ¬ Obligations.TestsAndSwaps := by
  unfold Obligations.TestsAndSwaps
  rintro ⟨-, -, -, -, -, hswap, -⟩
  obtain ⟨hf, hrec, hlive, hpend, hspare, hcan, hcol⟩ := swapsStraySlot_swaps
  have hfirst (k : Nat) (hk : k < (1 : Site).val) (hl : swapsStraySlot.live k = true) :
      swapsStraySlot.flag (Reg.CL_RETIRED_SWAP_PENDING k) = false := by
    rw [Nat.lt_one_iff.mp hk, hspare] at hl
    cases hl
  obtain ⟨hout, -⟩ := (hswap swapsStraySlot 1 0 hf hrec rfl hlive hpend hfirst hcan (by rw [hcol]; rfl) (by decide)).after
  rw [clusterSwap_swapsStraySlot] at hout
  cases hout

/-! ## Jobs -/

/-- A JOB_STOP, fetched from queue 0. -/
def fetchedStop : Flight := { queue := 0, seq := 0, opcode := 0x13, tag := 0, jobId := 0, halt := false, head := 0, param := 0 }

/-- A running tile with that command in flight; the block in progress of slot 0 of site 1 has written a 0 over the 5 at offset 0. -/
def stopsWriter : State :=
  let s := State.reset.setFld Reg.TILE_STATE_STATE tsRunning
  let s := s.modSlot 1 0 fun x => { x with blk := { id := 1, undo := [(0, 5, 0)] } }
  { s with flights := [fetchedStop] }

theorem stopsWriter_starts : stopsWriter.startsCmd ⟨0, 0⟩ 0x13 fetchedStop := by
  refine ⟨?_, ?_, fun _ => ⟨?_, ?_⟩⟩ <;> decide +kernel

/-- The discarded block's byte is taken back. -/
theorem jobStop_stopsWriter : memGet ((stopsWriter.after (.jobStop ⟨0, 0⟩)).cl 1).slice 0 ≠ memGet (stopsWriter.cl 1).slice 0 := by
  decide +kernel

/-- Refutes O51, in its clause on JOB_STOP: a slice does not stay where the block that the command discards has written it. -/
theorem not_pausesStopsAndSteps : ¬ Obligations.PausesStopsAndSteps := by
  unfold Obligations.PausesStopsAndSteps
  rintro ⟨-, -, hstop, -⟩
  obtain ⟨-, -, -, -, -, -, -, hslices⟩ := (hstop stopsWriter ⟨0, 0⟩ fetchedStop stopsWriter_starts).after
  exact jobStop_stopsWriter (hslices 1 0)

/-! ## Lanes -/

/-- Edge 0 is UP, and its first spare lane carries flits though `LINK_LANEMAP` does not record it as in use. -/
def spareCarries : State := (State.reset.setFld (Reg.LINK_STATUS_STATE 0) 2).wr64 (Reg.LINK_LANEMAP 0) (2 ^ 32)

theorem spareCarries_fails : spareCarries.alive = true ∧ spareCarries.edgeUp (0 : Edge) = true
    ∧ spareCarries.laneOn (0 : Edge) (32 : Fin 34) = true ∧ spareCarries.laneBad (0 : Edge) (32 : Fin 34) .lock = true
    ∧ (spareCarries.edge (0 : Edge)).plans = [] ∧ spareCarries.freeSpares (0 : Edge) = [0, 1] := by
  refine ⟨?_, ?_, ?_, ?_, ?_, ?_⟩ <;> decide +kernel

/-- The other spare stands in. -/
theorem laneFailure_spareCarries : ((spareCarries.after (.laneFailure 0 32 .lock)).edge (0 : Edge)).plans.map LanePlan.spare = [some 1] := by
  decide +kernel

/-- Refutes O52, in its clause on a failed lane: where the lane is a spare that counts as free, it does not stand in for itself. -/
theorem not_edgesReceiveAndTrain : ¬ Obligations.EdgesReceiveAndTrain := by
  unfold Obligations.EdgesReceiveAndTrain
  rintro ⟨-, -, -, hfail, -⟩
  obtain ⟨ha, hup, hon, hbad, hplans, hfree⟩ := spareCarries_fails
  obtain ⟨hspare, -⟩ := (hfail spareCarries 0 32 .lock ha hup hon hbad hplans).after
  obtain ⟨-, -, -, -, hplan⟩ := hspare (by rw [hfree]; decide)
  have hother := laneFailure_spareCarries
  rw [hplan, hfree] at hother
  exact absurd hother (by decide)

/-! ## Traps -/

/-- BZ.MARK with its reserved rs1 set. -/
def reservedMarkWord : Nat := 0x7B + 6 * 2 ^ 12 + 2 ^ 15

/-- A running tile whose slot 0 of site 1 is at that word; its block has written a 0 over the 5 at offset 0, and an operation of it runs in
the vector engine. -/
def trapsWhileRunning : State :=
  let s := (State.reset.setFld Reg.TILE_STATE_STATE tsRunning).setSlotState 1 0 slRun
  let s := s.modSlot 1 0 fun x => { x with buf := leBytes 4 reservedMarkWord, blk := { id := 1, undo := [(0, 5, 0)] } }
  s.modEng 1 0 fun x => { x with cur := some { op := { id := 0, kind := .vrun, slot := 0, blk := 1, f7 := 0, desc := 0 }, dv := 0 } }

theorem trapsWhileRunning_traps : trapsWhileRunning.atWord (1 : Site) (0 : SlotId) reservedMarkWord ∧ opcodeIs reservedMarkWord 0x7B 6
    ∧ (trapsWhileRunning.slot (1 : Site) (0 : SlotId)).blk.failed = false ∧ wRs1 reservedMarkWord ≠ 0 := by
  decide +kernel

/-- The block is not yet given up. -/
theorem bzMark_trapsWhileRunning : memGet ((trapsWhileRunning.after (.bzMark 1 0)).cl (1 : Site)).slice 0 ≠
    memGet (takeBack (trapsWhileRunning.cl (1 : Site)).slice (trapsWhileRunning.slot (1 : Site) (0 : SlotId)).blk.undo) 0 := by
  decide +kernel

/-- Refutes O21, in its clause on BZ.MARK: a block that traps is given up once its last operation in progress ends, not before. -/
theorem not_reservedOpcodeFieldsTrap : ¬ Obligations.ReservedOpcodeFieldsTrap := by
  unfold Obligations.ReservedOpcodeFieldsTrap
  rintro ⟨-, -, -, hmark⟩
  obtain ⟨hw, ho, hfailed, hrs1⟩ := trapsWhileRunning_traps
  obtain ⟨-, hgiven, -⟩ := (hmark trapsWhileRunning 1 0 reservedMarkWord hw ho hfailed (.inl hrs1)).after
  have hbyte := hgiven (1 : Site) 0
  rw [if_pos rfl] at hbyte
  exact bzMark_trapsWhileRunning hbyte

end Sys2Proof.Machine
end

section
/-! What a write of a register's word leaves and sets (R7, R8, R456), and the instructions of the test access port (R438, R439). -/

namespace Sys2Proof.Machine

-- Each theorem in turn: side by side they would reserve more stacks than a check has memory for.
set_option Elab.async false

namespace State
variable (s : State)

/-! ## A register's word -/

/-- A field takes its value from a write where each bit of it is writable and its value is in range (R7, R456). -/
theorem fld_storeWord {o lo w : Nat} {i : RegInfo} {v : Word} (hi : regInfo o = some i) (hw1c : i.acc.w1c = 0)
    (hrange : rangeKept o v.toNat = 0) (hf : lo + w ≤ 32) (hrw : ∀ k, k < w → i.acc.rw.testBit (lo + k) = true) :
    (s.storeWord o v 0).fld ⟨o, lo, w⟩ = bits v.toNat lo w := by
  have hbit : BitVec.extractLsb' lo w ((s.storeWord o v 0).rd o) = BitVec.extractLsb' lo w v := by
    simp only [State.storeWord, hi, hw1c, hrange, rd_wr_same]
    ext k hk
    have hlt : lo + k < 32 := by omega
    simp only [BitVec.getElem_extractLsb', BitVec.getLsbD_and, BitVec.getLsbD_or, BitVec.getLsbD_not, BitVec.getLsbD_ofNat, hlt,
      Nat.zero_testBit, hrw k hk]
    simp
  unfold State.fld
  rw [hbit]
  simp [BitVec.extractLsb'_toNat, bits, Nat.shiftRight_eq_div_pow]

/-- Other words stay. -/
theorem rd_storeWord_other {o p : Nat} (v : Word) (keep : Nat) (h : p ≠ o) : (s.storeWord o v keep).rd p = s.rd p := by
  unfold State.storeWord
  split
  · exact rd_wr_other s _ h
  · rfl

theorem tapOn_of_ts {s : State} (h : s.ts ≠ tsOff) : s.tapOn = true := by simpa [State.tapOn] using h

/-- A plain register reads as it stands (R8). -/
theorem ctlRead_of_plainReg {q : Requester} {o : Nat} {r : RegInfo} (h : s.plainReg o r) : s.ctlRead q o = (s.rd o, s) := by
  obtain ⟨ha, -, hwin, hdbg, hinfo, hrc, hpair, habs, hps⟩ := h
  simp [State.ctlRead, ha, hwin, hdbg, hinfo, habs, hps, hpair, State.clearRc, hrc]

theorem regInfo_tileWdog : regInfo Reg.TILE_WDOG = some ⟨.tile, false, 0, ⟨0xFFFFFF, 0, 0, 0, 0x40000⟩⟩ := by
  decide +kernel

theorem windowAt_tileWdog : s.windowAt Reg.TILE_WDOG = none := if_neg (by decide)

theorem absent_tileWdog : s.absent Reg.TILE_WDOG = false := rfl

theorem writeWord_tileWdog (v : Word) (st : Option (Nat × Nat)) : s.writeWord Reg.TILE_WDOG v st = s.storeWord Reg.TILE_WDOG v 0 := rfl

/-- A write of `TILE_WDOG` stores the word. -/
theorem ctlPut_tileWdog (q : Requester) (v : Word) (st : Option (Nat × Nat)) :
    s.ctlPut q Reg.TILE_WDOG v st = s.storeWord Reg.TILE_WDOG v 0 := by
  simp only [State.ctlPut, windowAt_tileWdog, regInfo_tileWdog, absent_tileWdog, writeWord_tileWdog]
  rfl

/-- BEATS takes a value other than 0 (R456). -/
theorem fld_tileWdog_of_storeWord {v : Word} (h : bits v.toNat 0 24 ≠ 0) :
    (s.storeWord Reg.TILE_WDOG v 0).fld Reg.TILE_WDOG_BEATS = bits v.toNat 0 24 := by
  refine fld_storeWord s regInfo_tileWdog rfl ?_ (by decide) (by decide)
  have hr : rangeKept Reg.TILE_WDOG v.toNat = if bits v.toNat 0 24 = 0 then 0xFFFFFF else 0 := rfl
  rw [hr, if_neg h]

theorem fld_of_rd {s t : State} {f : Fld} (h : t.rd f.off = s.rd f.off) : t.fld f = s.fld f := by
  unfold State.fld
  rw [h]

/-- A register's word stored leaves everything but the registers. -/
theorem storeWord_leaves (o : Nat) (v : Word) (keep : Nat) : (s.storeWord o v keep).mon = s.mon
    ∧ (s.storeWord o v keep).clusters = s.clusters ∧ (s.storeWord o v keep).pkgMem = s.pkgMem
    ∧ (s.storeWord o v keep).poison = s.poison := by
  unfold State.storeWord
  split <;> exact ⟨rfl, rfl, rfl, rfl⟩

theorem monResume_of_empty {s : State} (h : s.mon.input = []) : s.monResume = s := by
  simp [State.monResume, h]

/-- A write of `TILE_WDOG` through a port that is open and has nothing else to serve. -/
theorem portWrite_tileWdog {s : State} {q : Requester} {v : Word} (hp : s.portOpen q = true) (hr : (s.writeRefusal Reg.TILE_WDOG v.toNat).1 = stOk)
    (hm : s.mon.input = []) : s.portWrite q Reg.TILE_WDOG v = s.storeWord Reg.TILE_WDOG v 0 := by
  have hw : s.ctlWrite q Reg.TILE_WDOG v = s.storeWord Reg.TILE_WDOG v 0 := by
    simp only [State.ctlWrite, hp, hr, ctlPut_tileWdog]
    rfl
  unfold State.portWrite
  rw [hw]
  refine monResume_of_empty ?_
  obtain ⟨hmon, -⟩ := storeWord_leaves s Reg.TILE_WDOG v 0
  rw [hmon, hm]

end State

/-! ## The instructions of the test access port -/

variable {s : State}

theorem exec_extest_of_testMode (scanIn pads : BitVec 15) (h : s.tapOn = true) (ht : s.dev.testMode = true) :
    exec (.extest scanIn pads) s = .next { s with jtag :=
      { s.jtag with ir := 0x00, bsr := scanIn, bsrOut := pads, tdo := scanBits 8 1 ++ scanBits 15 pads.toNat } } := by
  change execExtest scanIn pads s = _
  simp [execExtest, h, State.irScan, State.tapInstr, jInstr, ht, State.bsrScan, State.drScan, irCapture]

/-- Outside test mode EXTEST acts as BYPASS. -/
theorem exec_extest_of_not_testMode (scanIn pads : BitVec 15) (h : s.tapOn = true) (ht : s.dev.testMode = false) :
    exec (.extest scanIn pads) s = .next { s with jtag :=
      { s.jtag with ir := 0x00, bypass := scanIn.getLsbD 14, tdo := scanBits 8 1 ++ false :: scanBits 14 scanIn.toNat } } := by
  change execExtest scanIn pads s = _
  have hbits : scanBits 15 scanIn.toNat = scanBits 14 scanIn.toNat ++ [scanIn.getLsbD 14] := by
    simp [scanBits, List.range_succ, BitVec.testBit_toNat]
  simp [execExtest, h, State.irScan, State.tapInstr, jInstr, ht, JInstr.needsTest, State.bypassScan, irCapture, hbits]
  exact List.dropLast_concat (l₁ := false :: scanBits 14 scanIn.toNat)

theorem padsDriven_of_extest (hi : s.jtag.ir = 0x00) (ht : s.dev.testMode = true) : s.padsDriven = some (padsOf s.jtag.bsr) := by
  simp [State.padsDriven, State.tapInstr, jInstr, ht, hi]

theorem jInstr_bypass {c : BitVec 8} (h : c = 0xFF ∨ (5 ≤ c.toNat ∧ c.toNat ≠ 0x20)) : jInstr c = .bypass := by
  unfold jInstr
  rcases h with rfl | ⟨h5, h20⟩
  · rfl
  · split
    case h_7 => rfl
    all_goals omega

/-- DBG_ACCESS through the open port of an unlocked tile. -/
theorem exec_dbgAccess_write {dr : BitVec 66} (ha : s.alive = true) (hu : s.unlocked = true) (hd : dr.getLsbD 64 = true) :
    exec (.dbgAccess dr) s = .next
      (let u := ((s.irScan 0x20).drScan 66 s.captureDbg).portWrite .jtag (dr.extractLsb' 32 32).toNat (dr.extractLsb' 0 32)
       { u with jtag := { u.jtag with
         data := s.jtag.data, done := true
         err := (dr.extractLsb' 32 32).toNat % 4 == 0
           && (s.writeRefusal (dr.extractLsb' 32 32).toNat (dr.extractLsb' 0 32).toNat).1 != stOk } }) := by
  change execDbgAccess dr s = _
  have hport : s.portOpen .jtag = true := ha
  simp only [execDbgAccess, State.tapOn_of_alive ha, hport, hu, hd, if_true, Bool.not_true, Bool.false_eq_true, if_false]

/-- Settles O55: each instruction by the parts of a scan, and DBG_ACCESS by its port's read of a plain register and its write of `TILE_WDOG`. -/
theorem jtagInstructions : Obligations.JtagInstructions := by
  unfold Obligations.JtagInstructions
  refine ⟨?_, ?_, ?_, ?_, ?_, ?_, ?_, ?_, ?_, ?_, ?_⟩
  · intro s scanIn pads h
    cases ht : s.dev.testMode
    · exact exec_extest_of_not_testMode scanIn pads (State.tapOn_of_ts h) ht
    · exact exec_extest_of_testMode scanIn pads (State.tapOn_of_ts h) ht
  · intro s scanIn pads h ht
    exact ⟨_, exec_extest_of_testMode scanIn pads (State.tapOn_of_ts h) ht, padsDriven_of_extest rfl ht⟩
  · intro s scanIn pads h
    change execSamplePreload scanIn pads s = _
    simp [execSamplePreload, State.tapOn_of_ts h, State.irScan, State.bsrScan, State.drScan, irCapture]
  · intro s h
    change execIdcode s = _
    simp [execIdcode, State.tapOn_of_ts h, State.irScan, State.drScan, irCapture, idcodeWord]
  · intro s h
    refine ⟨s.irScan 0x03, ?_, rfl, ?_⟩
    · change execHighz s = _
      simp [execHighz, State.tapOn_of_ts h]
    · cases ht : s.dev.testMode <;> simp [State.irScan, State.tapInstr, jInstr, ht, JInstr.needsTest]
  · intro s h
    refine ⟨s.irScan 0x04, ?_, rfl, ?_⟩
    · change execClamp s = _
      simp [execClamp, State.tapOn_of_ts h]
    · cases ht : s.dev.testMode <;> simp [State.irScan, State.tapInstr, jInstr, ht, JInstr.needsTest]
  · intro s x h hx
    change execBypass x s = _
    simp [execBypass, State.tapOn_of_ts h, State.irScan, State.tapInstr, jInstr_bypass hx, JInstr.needsTest, State.bypassScan, irCapture]
  · intro s h
    change execTapReset s = _
    simp [execTapReset, State.tapOn_of_ts h]
  · intro s dr ha hu
    change execDbgAccess dr s = _
    have hport : s.portOpen .jtag = true := ha
    simp [execDbgAccess, State.tapOn_of_alive ha, hport, hu, State.irScan, State.drScan, State.captureDbg, irCapture]
  · intro s dr r ha hu hd hr
    have hread := State.ctlRead_of_plainReg (s := (s.irScan 0x20).drScan 66 s.captureDbg) (q := .jtag) hr
    have hport : s.portOpen .jtag = true := ha
    change execDbgAccess dr s = _
    simp only [execDbgAccess, State.tapOn_of_alive ha, hport, hu, hd, Bool.not_true, Bool.false_eq_true, if_false, hread]
    rfl
  · intro s dr ha hu hd ho hm hv hok
    have hport : ((s.irScan 0x20).drScan 66 s.captureDbg).portOpen .jtag = true := ha
    have hput := State.portWrite_tileWdog (s := (s.irScan 0x20).drScan 66 s.captureDbg) hport hok hm
    have hfld := State.fld_tileWdog_of_storeWord ((s.irScan 0x20).drScan 66 s.captureDbg) hv
    obtain ⟨-, hcl, hmem, hpoison⟩ := State.storeWord_leaves ((s.irScan 0x20).drScan 66 s.captureDbg) Reg.TILE_WDOG (dr.extractLsb' 0 32) 0
    have hbad : (Reg.TILE_WDOG % 4 == 0 && (s.writeRefusal Reg.TILE_WDOG (dr.extractLsb' 0 32).toNat).1 != stOk) = false := by rw [hok]; rfl
    refine ⟨_, exec_dbgAccess_write ha hu hd, ?_⟩
    rw [ho, hput]
    generalize ((s.irScan 0x20).drScan 66 s.captureDbg).storeWord Reg.TILE_WDOG (dr.extractLsb' 0 32) 0 = u at hfld hcl hmem hpoison ⊢
    exact ⟨hfld, rfl, hbad, hcl, ⟨fun a => congrArg (memGet · a) hmem, hpoison⟩⟩

end Sys2Proof.Machine
end

section
/-! What a command's completion leaves and where its reply stands (R294, R298). -/

namespace Sys2Proof.Machine

-- Each theorem in turn: side by side they would reserve more stacks than a check has memory for.
set_option Elab.async false

namespace State

variable {s : State}

theorem serialCmd_of_startsCmd {i : FlightId} {op : Nat} {f : Flight} (act : Flight → State) (h : s.startsCmd i op f)
    (hop : serialOp op = true) : s.serialCmd i op act = act f := by
  have ⟨_, _, hserial⟩ := h
  obtain ⟨hturn, hjudge⟩ := hserial hop
  unfold State.serialCmd
  rw [cmd_of_startsCmd _ h]
  simp [hturn, hjudge]

theorem queue_of_fetched? {i : FlightId} {op : Nat} {f : Flight} (h : s.fetched? i op = some f) : f.queue < 8192 := by
  have hf := List.find?_some (Option.filter_eq_some_iff.mp h).1
  simp only [Bool.and_eq_true, beq_iff_eq] at hf
  omega

theorem opcode_of_fetched? {i : FlightId} {op : Nat} {f : Flight} (h : s.fetched? i op = some f) : f.opcode = op := by
  obtain ⟨-, hf⟩ := Option.filter_eq_some_iff.mp h
  simp only [Bool.and_eq_true, beq_iff_eq] at hf
  obtain ⟨-, hop⟩ := hf
  exact hop

/-- A word outside the queues' registers reads the same after a completion. -/
theorem rd_complete {f : Flight} {o : Nat} (st r d : Nat) (hq : f.queue < 8192) (ho : 0x80000 ≤ o) : (s.complete f st r d).rd o = s.rd o := by
  refine sameRegs_complete s f st r d o ?_
  unfold completionRegs
  dsimp only [Reg.QUEUE_STATE, Reg.CQ_PTR, Reg.Q_INFLIGHT, qBlk]
  omega

/-- A word from which the place of a reply is read: one of a queue, or the size of package memory. -/
def replyWord (o : Nat) : Prop := (0x40000 ≤ o ∧ o < 0x80000) ∨ o = 0x509004

/-- A command completed in a later state has its reply where it would have had it before, if the queues' words and rings have stayed. -/
theorem replied_complete_of {u : State} {f : Flight} (st r d : Nat) (hq : f.queue < 8192) (hrd : ∀ o, replyWord o → u.rd o = s.rd o)
    (hqs : u.queues = s.queues) : s.replied (u.complete f st r d) f st r d := by
  have hqueue (k : Nat) (hk : k < 32) : u.rd (qBlk f.queue + k) = s.rd (qBlk f.queue + k) := by
    refine hrd _ (.inl ?_)
    dsimp only [qBlk]
    omega
  have hat : u.replyAt f.queue = s.replyAt f.queue := by
    unfold State.replyAt State.cqBase
    rw [fld_of_rd (f := Reg.CQ_BASE_LO_ADDR f.queue) (hqueue 0xC (by decide)), fld_of_rd (f := Reg.QBASE_HI_CQ_HI f.queue) (hqueue 0x10 (by decide)),
      fld_of_rd (f := Reg.CQ_PTR_TAIL f.queue) (hqueue 0x18 (by decide))]
  have hmem : u.memSize = s.memSize := by
    unfold State.memSize
    rw [fld_of_rd (f := Reg.MEM_CFG_NSTACK) (hrd _ (.inr rfl)), fld_of_rd (f := Reg.MEM_CFG_STACK_LOG2) (hrd _ (.inr rfl))]
  have hst : u.qst f.queue = s.qst f.queue := by
    unfold State.qst
    rw [hqs]
  obtain ⟨hleft, hreply⟩ := replied_complete u f st r d
  rw [hat, hmem, hst] at hreply
  exact ⟨hleft, hreply⟩

end State

end Sys2Proof.Machine
end

section
/-! The reduction commands of the host (R327): the words of a group, and the seal that a REDUCE_BUCKET asks for. -/

namespace Sys2Proof.Machine

-- Each theorem in turn: side by side they would reserve more stacks than a check has memory for.
set_option Elab.async false

/-- What the register map holds of a group's first three words (R270). -/
theorem regInfo_group {g : Nat} (h1 : 1 ≤ g) (h2 : g ≤ 12) :
    regInfo (Reg.REDUCE_GRP0 g) = some ⟨.tile, false, 0, ⟨0xFFFFFF, 0, 0, 0, 0x8C4000⟩⟩
      ∧ regInfo (Reg.REDUCE_GRP1 g) = some ⟨.tile, false, 0, ⟨0xFFFFFFFF, 0, 0, 0, 0x400000⟩⟩
      ∧ regInfo (Reg.REDUCE_GRP2 g) = some ⟨.tile, false, 0, ⟨0x1FFF1FF, 0, 0, 0, 0x1D8⟩⟩ := by
  have hall : ∀ k < 13, 1 ≤ k → regInfo (Reg.REDUCE_GRP0 k) = some ⟨.tile, false, 0, ⟨0xFFFFFF, 0, 0, 0, 0x8C4000⟩⟩
      ∧ regInfo (Reg.REDUCE_GRP1 k) = some ⟨.tile, false, 0, ⟨0xFFFFFFFF, 0, 0, 0, 0x400000⟩⟩
      ∧ regInfo (Reg.REDUCE_GRP2 k) = some ⟨.tile, false, 0, ⟨0x1FFF1FF, 0, 0, 0, 0x1D8⟩⟩ := by
    decide +kernel
  exact hall g (by omega) h1

/-- The words of the reduction engine have no range of values (R456). -/
theorem rangeKept_reduction {o : Nat} (v : Nat) (h1 : 0x90000 ≤ o) (h2 : o < 0x100000) : rangeKept o v = 0 := by
  have hc : (if 0x100000 ≤ o ∧ o < 0x500000 then o % 0x10000 else 0) = 0 := if_neg (by omega)
  unfold rangeKept
  dsimp only [Reg.BEAT_CFG, Reg.ERR_CFG, Reg.PWR_CAP, Reg.PWR_LIM, Reg.TILE_WDOG]
  rw [hc]
  repeat rw [if_neg (by omega)]

namespace State

variable {s : State}

/-- A REDUCE_BUCKET that runs on waits for the bucket that it names. -/
theorem sealNames_running {f : Flight} {g k : Nat} (hop : f.opcode = 0x41) (hg : f.p 0 4 = g) (hk : f.p 16 12 = k) :
    sealNames g k { f with phase := .running } = true := by
  have hnames : sealNames g k { f with phase := .running } = (f.opcode == 0x41 && true && f.p 0 4 == g && f.p 16 12 == k) := rfl
  rw [hnames]
  simp [hop, hg, hk]

/-- The state after the five words of a REDUCE_CFG are stored. -/
def storeGroup (s : State) (f : Flight) : State := f.groupWords.foldl (fun s w => s.storeWord w.1 w.2 0) s

theorem storeGroup_leaves (f : Flight) : (s.storeGroup f).clusters = s.clusters ∧ (s.storeGroup f).tile = s.tile
    ∧ (s.storeGroup f).queues = s.queues := by
  have hword (u : State) (o : Nat) (v : Word) : (u.storeWord o v 0).clusters = u.clusters ∧ (u.storeWord o v 0).tile = u.tile
      ∧ (u.storeWord o v 0).queues = u.queues := by
    unfold State.storeWord
    split <;> exact ⟨rfl, rfl, rfl⟩
  simp [storeGroup, Flight.groupWords, hword]

theorem rd_storeGroup_replyWord {f : Flight} (hg : f.p 0 4 ≤ 12) {o : Nat} (ho : replyWord o) : (s.storeGroup f).rd o = s.rd o := by
  unfold replyWord at ho
  unfold storeGroup Flight.groupWords
  dsimp only [List.foldl]
  rw [rd_storeWord_other, rd_storeWord_other, rd_storeWord_other, rd_storeWord_other, rd_storeWord_other] <;>
    (dsimp only [Reg.REDUCE_GRP0, Reg.REDUCE_GRP45]; omega)

/-- Each of the group's first three words stands as it was stored, over whatever was stored before it. -/
theorem rd_storeGroup {f : Flight} {g : Nat} (hg : g = f.p 0 4) :
    (∃ u : State, (s.storeGroup f).rd (Reg.REDUCE_GRP0 g) = (u.storeWord (Reg.REDUCE_GRP0 g) (BitVec.ofNat 32 (f.p 32 32)) 0).rd (Reg.REDUCE_GRP0 g))
      ∧ (∃ u : State, (s.storeGroup f).rd (Reg.REDUCE_GRP1 g) = (u.storeWord (Reg.REDUCE_GRP1 g) (BitVec.ofNat 32 (f.p 64 32)) 0).rd (Reg.REDUCE_GRP1 g))
      ∧ ∃ u : State, (s.storeGroup f).rd (Reg.REDUCE_GRP2 g) = (u.storeWord (Reg.REDUCE_GRP2 g) (BitVec.ofNat 32 (f.p 96 32)) 0).rd (Reg.REDUCE_GRP2 g) := by
  have h1 : Reg.REDUCE_GRP0 g + 4 = Reg.REDUCE_GRP1 g := by dsimp only [Reg.REDUCE_GRP0, Reg.REDUCE_GRP1]; omega
  have h2 : Reg.REDUCE_GRP0 g + 8 = Reg.REDUCE_GRP2 g := by dsimp only [Reg.REDUCE_GRP0, Reg.REDUCE_GRP2]; omega
  unfold storeGroup Flight.groupWords
  dsimp only [List.foldl]
  rw [← hg, h1, h2]
  refine ⟨⟨s, ?_⟩, ⟨s.storeWord (Reg.REDUCE_GRP0 g) (BitVec.ofNat 32 (f.p 32 32)) 0, ?_⟩, ⟨(s.storeWord (Reg.REDUCE_GRP0 g) (BitVec.ofNat 32 (f.p 32 32)) 0).storeWord (Reg.REDUCE_GRP1 g) (BitVec.ofNat 32 (f.p 64 32)) 0, ?_⟩⟩
  · rw [rd_storeWord_other, rd_storeWord_other, rd_storeWord_other, rd_storeWord_other] <;>
      (dsimp only [Reg.REDUCE_GRP0, Reg.REDUCE_GRP1, Reg.REDUCE_GRP2, Reg.REDUCE_GRP45]; omega)
  · rw [rd_storeWord_other, rd_storeWord_other, rd_storeWord_other] <;>
      (dsimp only [Reg.REDUCE_GRP1, Reg.REDUCE_GRP2, Reg.REDUCE_GRP45]; omega)
  · rw [rd_storeWord_other, rd_storeWord_other] <;> (dsimp only [Reg.REDUCE_GRP2, Reg.REDUCE_GRP45]; omega)

/-- A field of a word that stands as it was stored takes its value from the command. -/
theorem fld_of_stored {u t : State} {f : Flight} {o n lo w : Nat} {i : RegInfo}
    (hr : t.rd o = (u.storeWord o (BitVec.ofNat 32 (f.p n 32)) 0).rd o) (hi : regInfo o = some i) (hw1c : i.acc.w1c = 0)
    (ho : 0x90000 ≤ o ∧ o < 0x100000) (hf : lo + w ≤ 32) (hrw : ∀ k, k < w → i.acc.rw.testBit (lo + k) = true) :
    t.fld ⟨o, lo, w⟩ = bits (f.p n 32) lo w := by
  have hword : (BitVec.ofNat 32 (f.p n 32)).toNat = f.p n 32 := by
    rw [BitVec.toNat_ofNat]
    exact Nat.mod_eq_of_lt (Nat.mod_lt _ (by decide))
  rw [fld_of_rd (f := ⟨o, lo, w⟩) hr, fld_storeWord u hi hw1c (rangeKept_reduction _ ho.1 ho.2) hf hrw, hword]

/-- What the group's first three words read after: the words of the command. -/
theorem fld_storeGroup {f : Flight} {g : Nat} (hg : g = f.p 0 4) (hlo : 1 ≤ g) (hhi : g ≤ 12) :
    (s.storeGroup f).fld (Reg.REDUCE_GRP0_OUT g) = bits (f.p 32 32) 10 3
      ∧ (s.storeGroup f).fld (Reg.REDUCE_GRP0_IN_MASK g) = bits (f.p 32 32) 4 6
      ∧ (s.storeGroup f).fld (Reg.REDUCE_GRP1_PARTICIPANTS g) = bits (f.p 64 32) 0 16
      ∧ (s.storeGroup f).fld (Reg.REDUCE_GRP1_DEADLINE g) = bits (f.p 64 32) 16 16
      ∧ (s.storeGroup f).fld (Reg.REDUCE_GRP2_NBUCKET g) = bits (f.p 96 32) 12 13 := by
  obtain ⟨hi0, hi1, hi2⟩ := regInfo_group hlo hhi
  obtain ⟨⟨u0, hr0⟩, ⟨u1, hr1⟩, ⟨u2, hr2⟩⟩ := rd_storeGroup (s := s) hg
  have ho0 : 0x90000 ≤ Reg.REDUCE_GRP0 g ∧ Reg.REDUCE_GRP0 g < 0x100000 := by dsimp only [Reg.REDUCE_GRP0]; omega
  have ho1 : 0x90000 ≤ Reg.REDUCE_GRP1 g ∧ Reg.REDUCE_GRP1 g < 0x100000 := by dsimp only [Reg.REDUCE_GRP1]; omega
  have ho2 : 0x90000 ≤ Reg.REDUCE_GRP2 g ∧ Reg.REDUCE_GRP2 g < 0x100000 := by dsimp only [Reg.REDUCE_GRP2]; omega
  exact ⟨fld_of_stored hr0 hi0 rfl ho0 (by decide) (by decide), fld_of_stored hr0 hi0 rfl ho0 (by decide) (by decide),
    fld_of_stored hr1 hi1 rfl ho1 (by decide) (by decide), fld_of_stored hr1 hi1 rfl ho1 (by decide) (by decide),
    fld_of_stored hr2 hi2 rfl ho2 (by decide) (by decide)⟩

end State

/-- Settles O48: a REDUCE_CFG stores its words and replies, and a REDUCE_BUCKET seals at once or runs on. -/
theorem reductionCommands : Obligations.ReductionCommands := by
  unfold Obligations.ReductionCommands
  refine ⟨?_, ?_, ?_⟩
  · intro s i f g hf hg hlo hhi href
    have hexec : exec (.reduceCfg i) s = .next ((s.storeGroup f).complete f stOk 0 0) := by
      change execReduceCfg i s = _
      unfold execReduceCfg
      rw [State.serialCmd_of_startsCmd _ hf rfl]
      simp only [href, State.storeGroup]
    have ⟨_, hfetched, _⟩ := hf
    have hq := State.queue_of_fetched? hfetched
    obtain ⟨hout, hmask, hpart, hdead, hnb⟩ := State.fld_storeGroup (s := s) hg hlo hhi
    obtain ⟨hcl, htile, hqueues⟩ := State.storeGroup_leaves (s := s) f
    have hreply := State.replied_complete_of stOk 0 0 hq (fun o ho => State.rd_storeGroup_replyWord (s := s) (f := f) (by omega) ho) hqueues
    obtain ⟨-, -, hcc, hct, -⟩ := (complete_only (s.storeGroup f) f stOk 0 0).outside
    have hfld (r : Fld) (hr : 0x80000 ≤ r.off) : ((s.storeGroup f).complete f stOk 0 0).fld r = (s.storeGroup f).fld r :=
      State.fld_of_rd (State.rd_complete _ _ _ hq hr)
    refine ⟨_, hexec, hreply, ?_, ?_, ?_, ?_, ?_, hcc.trans hcl, hct.trans htile⟩
    all_goals rw [hfld]
    · exact hout
    · dsimp only; omega
    · exact hmask
    · dsimp only; omega
    · exact hpart
    · dsimp only; omega
    · exact hdead
    · dsimp only; omega
    · exact hnb
    · dsimp only; omega
  · intro s i f o st r hf href
    have hexec : exec (.reduceCfg i) s = .next (s.complete f st r (if r = 0x0110 then o else 0)) := by
      change execReduceCfg i s = _
      unfold execReduceCfg
      rw [State.serialCmd_of_startsCmd _ hf rfl]
      simp only [href]
    obtain ⟨-, -, hcl, htile, -⟩ := (complete_only s f st r (if r = 0x0110 then o else 0)).outside
    exact ⟨_, hexec, s.replied_complete f _ _ _, hcl, htile, s.sameRegs_complete f _ _ _⟩
  · intro s i f g k hf hg hk
    have ⟨_, hfetched, _⟩ := hf
    have hmem := State.mem_flights_of_fetched? hfetched
    have hop := State.opcode_of_fetched? hfetched
    refine ⟨fun hfk ho hd => ?_, fun hfk ho => ?_⟩
    · have hexec : exec (.reduceBucket i) s = .next ((s.runOn f).doSeal g) := by
        change execReduceBucket i s = _
        unfold execReduceBucket
        rw [State.cmd_of_startsCmd _ hf]
        simp [← hg, hfk, ← hk, ho]
      obtain ⟨hleft, hmine, hconv, hcl⟩ := State.doSeal_seals (s.runOn f) hk hd
      refine ⟨_, hexec, fun x hx => ?_, hmine, hconv, hcl⟩
      rw [hleft] at hx
      have hnamed := State.runsOn_runOn hmem
      have hall := (List.mem_filter.mp hx).2
      have hsame := List.all_eq_true.mp hall { f with phase := .running } (List.mem_filter.mpr ⟨hnamed, State.sealNames_running hop hg.symm hfk⟩)
      exact (Bool.not_eq_true' _).mp hsame
    · have hexec : exec (.reduceBucket i) s = .next (s.runOn f) := by
        change execReduceBucket i s = _
        unfold execReduceBucket
        rw [State.cmd_of_startsCmd _ hf]
        simp [← hg, hfk, ← hk, ho]
      exact ⟨_, hexec, State.runsOn_runOn hmem, rfl, rfl, rfl, fun _ => rfl, rfl⟩

end Sys2Proof.Machine
end

section
/-! Changes of synchronisation objects (R222, R238), and the host's SIGNAL, WAIT and QUERY (R326). -/

namespace Sys2Proof.Machine

-- Each theorem in turn: side by side they would reserve more stacks than a check has memory for.
set_option Elab.async false

/-- The words of the error log and its status. -/
abbrev logWord (o : Nat) : Prop := 0x30000 ≤ o ∧ o < 0x40000

theorem clampObj_lt (v : Int) : clampObj v < 2 ^ 24 := by
  unfold clampObj
  split <;> omega

namespace State
variable {s : State}

theorem wrWide_keeps {p : Nat → Prop} (n : Nat) (s : State) (o v : Nat) (h : ∀ k, k < n → p (o + 4 * k)) : SbKeeps p s (s.wrWide o n v) := by
  induction n generalizing s o v with
  | zero => exact .refl s
  | succ n ih =>
    refine SbKeeps.trans ((SbKeeps.refl (p := p) s).wr (BitVec.ofNat 32 v) (h 0 (by omega))) (ih _ _ _ fun k hk => ?_)
    have hw := h (k + 1) (by omega)
    rwa [show o + 4 * (k + 1) = o + 4 + 4 * k by omega] at hw

/-- An entry of the error log changes the log and its status. -/
theorem log_keeps (s : State) (e : Entry) : SbKeeps logWord s (s.log e) := by
  have hi := fld_lt s Reg.ERR_STATUS_WR_IDX
  unfold State.log
  dsimp only
  have h1 := wrWide_keeps (p := logWord) 8 s (Reg.ERR_LOG (s.fld Reg.ERR_STATUS_WR_IDX))
    (e.pack s.beatLow (s.rd Reg.TILE_STEP).toNat (s.fld Reg.ERR_STEP_ATTEMPT)) fun k hk => by
      dsimp only [Reg.ERR_LOG, Reg.ERR_STATUS_WR_IDX] at hi ⊢
      omega
  have h2 := SbKeeps.ite (c := 1024 ≤ (s.rd Reg.ERR_TOTAL).toNat) (h1.setFlag (f := Reg.ERR_STATUS_WRAPPED) true (by decide)) h1
  exact (((h2.setFld _ (by decide)).setFld _ (by decide)).setFld _ (by decide)).count _ (by decide)

/-- A change of a tile object sets its value, and may set its flag and log it (R222, R238). -/
theorem tobjAdd_keeps (s : State) {o : Nat} (ho : o < 256) (inc : Int) (src beat : Nat) :
    ∃ x, SbKeeps (fun w => logWord w ∨ (0x80400 ≤ w ∧ w < 0x80480))
      { s.setFld (Reg.TOBJ_VAL_VALUE o) (clampObj ((s.fld (Reg.TOBJ_VAL_VALUE o) : Int) + inc)) with tile := x } (s.tobjAdd o inc src beat) := by
  have hlog (u : State) (c r a d : Nat) : SbKeeps (fun w => logWord w ∨ (0x80400 ≤ w ∧ w < 0x80480)) u (u.logEvent c r a d) :=
    (log_keeps u _).mono fun _ => .inl
  have hbits (u : State) (m : Nat) : SbKeeps (fun w => logWord w ∨ (0x80400 ≤ w ∧ w < 0x80480)) u (u.setBits (Reg.TOBJ_FLAG (o / 16)) m) :=
    (SbKeeps.refl u).wr _ (.inr (by dsimp only [Reg.TOBJ_FLAG]; omega))
  exact ⟨_, .ite ((hbits _ _).trans (hlog _ _ _ _ _)) (.ite ((hbits _ _).trans (hlog _ _ _ _ _)) (.refl _))⟩

/-- A tile object after a change; the other objects, the clusters and what replies are read from stay. -/
theorem tobjAdd_changes (s : State) {o : Nat} (ho : o < 256) (inc : Int) (src beat : Nat) :
    (s.tobjAdd o inc src beat).fld (Reg.TOBJ_VAL_VALUE o) = clampObj ((s.fld (Reg.TOBJ_VAL_VALUE o) : Int) + inc)
      ∧ (∀ k, k < 256 → k ≠ o → (s.tobjAdd o inc src beat).fld (Reg.TOBJ_VAL_VALUE k) = s.fld (Reg.TOBJ_VAL_VALUE k))
      ∧ (∀ w, replyWord w → (s.tobjAdd o inc src beat).rd w = s.rd w) ∧ (s.tobjAdd o inc src beat).queues = s.queues := by
  obtain ⟨x, hk⟩ := tobjAdd_keeps s ho inc src beat
  obtain ⟨_, _, _, _, hq⟩ := tobjAdd_only s o inc src beat
  have hv := fld_setFld_same s (f := Reg.TOBJ_VAL_VALUE o) (clampObj ((s.fld (Reg.TOBJ_VAL_VALUE o) : Int) + inc)) (by dsimp only; omega)
  rw [Nat.mod_eq_of_lt (clampObj_lt _)] at hv
  refine ⟨(hk.fld (f := Reg.TOBJ_VAL_VALUE o) (by dsimp only [logWord]; omega)).trans hv, fun k hlt hne => ?_, fun w hw => ?_, ?_⟩
  · refine (hk.fld (f := Reg.TOBJ_VAL_VALUE k) (by dsimp only [logWord]; omega)).trans ?_
    exact fld_setFld_other s (f := Reg.TOBJ_VAL_VALUE o) (g := Reg.TOBJ_VAL_VALUE k) _ (by dsimp only; omega)
  · unfold replyWord at hw
    refine (hk.regs w (by dsimp only [logWord]; omega)).trans ?_
    exact rd_setFld_other s (f := Reg.TOBJ_VAL_VALUE o) _ (by dsimp only; omega)
  · rw [hq]

/-- A change of a cluster object sets its value, and may set its flag and log it (R222, R238). -/
theorem objAdd_keeps (s : State) (site o : Nat) (inc : Int) (src beat : Nat) :
    ∃ g : Cluster → Store ObjRec, SbKeeps (fun w => logWord w ∨ (clBlk site + 0x80C0 ≤ w ∧ w < clBlk site + 0x80D0))
      ((s.setFld (Reg.SYNC_VAL_VALUE site o) (clampObj ((s.fld (Reg.SYNC_VAL_VALUE site o) : Int) + inc))).modCl site fun c =>
        { c with recs := g c }) (s.objAdd site o inc src beat) := by
  have hlog (u : State) (c r a d : Nat) :
      SbKeeps (fun w => logWord w ∨ (clBlk site + 0x80C0 ≤ w ∧ w < clBlk site + 0x80D0)) u (u.logEvent c r a d) :=
    (log_keeps u _).mono fun _ => .inl
  have hovf (u : State) (b l w v : Nat) (hb : b = 0 ∨ b = 8) :
      SbKeeps (fun w => logWord w ∨ (clBlk site + 0x80C0 ≤ w ∧ w < clBlk site + 0x80D0)) u (u.setFld64 (clBlk site + 0x80C0 + b) l w v) := by
    unfold State.setFld64 State.wr64
    exact ((SbKeeps.refl u).wr _ (.inr (by omega))).wr _ (.inr (by omega))
  exact ⟨_, .ite ((hovf _ 0 _ _ _ (.inl rfl)).trans (hlog _ _ _ _ _)) (.ite ((hovf _ 8 _ _ _ (.inr rfl)).trans (hlog _ _ _ _ _)) (.refl _))⟩

theorem objAdd_tile (s : State) (site o : Nat) (inc : Int) (src beat : Nat) : (s.objAdd site o inc src beat).tile = s.tile := by
  have hregs {u t : State} (h : OnlyRegs u t) : t.tile = u.tile := by
    obtain ⟨_, rfl⟩ := h
    rfl
  unfold State.objAdd State.objSum
  extract_lets v s1 s2 log
  have h : s2.tile = s.tile := rfl
  split
  · exact (hregs (logEvent_only _ _ _ _ _)).trans ((hregs (setFld64_only s2 _ _ _ _)).trans h)
  · split
    · exact (hregs (logEvent_only _ _ _ _ _)).trans ((hregs (setFld64_only s2 _ _ _ _)).trans h)
    · exact h

/-- A cluster object after a change; the other clusters, the slices, the tile's units and what replies are read from stay. -/
theorem objAdd_changes (s : State) {site o : Nat} (hs : site < 64) (ho : o < 48) (inc : Int) (src beat : Nat) :
    (s.objAdd site o inc src beat).fld (Reg.SYNC_VAL_VALUE site o) = clampObj ((s.fld (Reg.SYNC_VAL_VALUE site o) : Int) + inc)
      ∧ s.otherClusters (s.objAdd site o inc src beat) site ∧ s.sameSlices (s.objAdd site o inc src beat)
      ∧ (s.objAdd site o inc src beat).tile = s.tile
      ∧ (∀ w, replyWord w → (s.objAdd site o inc src beat).rd w = s.rd w) ∧ (s.objAdd site o inc src beat).queues = s.queues := by
  obtain ⟨g, hk⟩ := objAdd_keeps s site o inc src beat
  obtain ⟨_, _, _, _, hq⟩ := objAdd_only s site o inc src beat
  have hv := fld_setFld_same s (f := Reg.SYNC_VAL_VALUE site o) (clampObj ((s.fld (Reg.SYNC_VAL_VALUE site o) : Int) + inc)) (by dsimp only; omega)
  rw [Nat.mod_eq_of_lt (clampObj_lt _)] at hv
  have hcl (k : Nat) : (s.objAdd site o inc src beat).cl k = if k = site then { s.cl site with recs := g (s.cl site) } else s.cl k := by
    unfold State.cl
    rw [hk.clusters]
    exact cl_modCl _ site k _
  refine ⟨(hk.fld (f := Reg.SYNC_VAL_VALUE site o) (by dsimp only [logWord, clBlk]; omega)).trans hv, fun k hne => ?_, fun k a => ?_, ?_,
    fun w hw => ?_, ?_⟩
  · rw [hcl, if_neg hne]
  · rw [hcl]
    split
    · next h => rw [h]
    · rfl
  · exact objAdd_tile s site o inc src beat
  · unfold replyWord at hw
    refine (hk.regs w (by dsimp only [logWord, clBlk]; omega)).trans ?_
    exact rd_setFld_other s (f := Reg.SYNC_VAL_VALUE site o) _ (by dsimp only [clBlk]; omega)
  · rw [hq]

theorem mem_flights_of_running? {i : FlightId} {ops : List Nat} {f : Flight} (h : s.running? i ops = some f) :
    f ∈ s.flights ∧ f.queue < 8192 ∧ f.opcode ∈ ops ∧ f.phase = .running := by
  have hf := List.find?_some h
  simp only [Bool.and_eq_true, beq_iff_eq, List.contains_iff_mem] at hf
  obtain ⟨⟨⟨hq, -⟩, hop⟩, hph⟩ := hf
  exact ⟨List.mem_of_find?_eq_some h, by omega, hop, hph⟩

/-- The value that a host wait on a tile object reads. -/
theorem hostValue_of_tile {f : Flight} (h : bits (f.p 0 16) 14 2 = 1) :
    s.hostValue f = s.fld (Reg.TOBJ_VAL_VALUE (f.p 0 16 % 256)) := by
  unfold State.hostValue State.refValue
  rw [if_neg (by omega)]

/-- The only host wait in flight that runs and is met is the first of its object. -/
theorem find?_hostWait {i : FlightId} {f : Flight} (hrun : s.running? i [0x31] = some f) (href : bits (f.p 0 16) 14 2 = 1)
    (hmet : f.p 32 24 ≤ s.hostValue f) (honly : ∀ g ∈ s.flights, g.opcode = 0x31 → g = f) :
    (s.flights.find? fun g => g.opcode == 0x31 && g.phase == .running && sameObject f g && decide (g.p 32 24 ≤ s.hostValue g)) = some f := by
  obtain ⟨hmem, -, hop, hph⟩ := mem_flights_of_running? hrun
  have hop' : f.opcode = 0x31 := List.mem_singleton.mp hop
  cases hfind : s.flights.find? fun g => g.opcode == 0x31 && g.phase == .running && sameObject f g && decide (g.p 32 24 ≤ s.hostValue g) with
  | none =>
    have hnone := List.find?_eq_none.mp hfind f hmem
    simp [hop', hph, sameObject, href, hmet] at hnone
  | some g =>
    have hg := List.find?_some hfind
    simp only [Bool.and_eq_true, beq_iff_eq] at hg
    obtain ⟨⟨⟨hgop, -⟩, -⟩, -⟩ := hg
    rw [honly g (List.mem_of_find?_eq_some hfind) hgop]

/-- DETAIL of QUERY holds the object's value in its low bits (R238, R326). -/
theorem bits_queryDetail {f : Flight} (h : bits (f.p 0 16) 14 2 = 1) :
    bits (s.queryDetail f) 0 24 = s.fld (Reg.TOBJ_VAL_VALUE (f.p 0 16 % 256)) := by
  have hv := fld_lt s (Reg.TOBJ_VAL_VALUE (f.p 0 16 % 256))
  unfold State.queryDetail
  dsimp only at hv ⊢
  rw [if_neg (by omega), if_pos h]
  unfold State.tobjRecord objBits bits
  dsimp only
  omega

end State

/-! ## The instructions -/

section
variable {s : State} {i : FlightId} {f : Flight}

theorem exec_signal_of_tile {o : Nat} (hf : s.startsCmd i 0x30 f) (href : bits (f.p 0 16) 14 2 = 1) (ho : o = f.p 0 16 % 256) :
    exec (.signal i) s = .next ((s.tobjAdd o (sext (f.p 32 32) 32) (s.agentAddr 0) s.beatLow).complete f stOk 0 0) := by
  change execSignal i s = _
  unfold execSignal
  rw [State.cmd_of_startsCmd _ hf]
  simp only [State.hostAdd, href, if_true, ho]

theorem exec_signal_of_cluster {site o : Nat} (hf : s.startsCmd i 0x30 f) (href : bits (f.p 0 16) 14 2 = 0) (hsite : site = f.p 16 6)
    (ho : o = f.p 0 16 % 64) :
    exec (.signal i) s = .next ((s.objAdd site o (sext (f.p 32 32) 32) (s.agentAddr 0) s.beatLow).complete f stOk 0 0) := by
  change execSignal i s = _
  unfold execSignal
  rw [State.cmd_of_startsCmd _ hf]
  simp [State.hostAdd, href, ho, hsite]

/-- The state in which a met wait completes: one that subtracts has taken its threshold. -/
def State.afterWait (s : State) (f : Flight) (o thr : Nat) : State :=
  if f.p 56 1 = 1 then s.tobjAdd o (-(thr : Int)) (s.agentAddr 0) s.beatLow else s

theorem exec_hostWaitMet_of_tile {o thr : Nat} (hf : s.runsCmd i [0x31] f) (href : bits (f.p 0 16) 14 2 = 1) (ho : o = f.p 0 16 % 256)
    (hthr : thr = f.p 32 24) (hmet : thr ≤ s.fld (Reg.TOBJ_VAL_VALUE o)) (honly : ∀ g ∈ s.flights, g.opcode = 0x31 → g = f)
    (hcore : s.coreFirst f = false) :
    exec (.hostWaitMet i) s = .next ((s.afterWait f o thr).complete f stOk 0 ((s.afterWait f o thr).fld (Reg.TOBJ_VAL_VALUE o))) := by
  obtain ⟨hfw, hrun⟩ := hf
  have hfirst := State.find?_hostWait hrun href (by rw [State.hostValue_of_tile href, ← ho, ← hthr]; exact hmet) honly
  change execHostWaitMet i s = _
  simp only [execHostWaitMet, hfw, if_true, hrun, hfirst, hcore, State.hostAdd, State.hostValue_of_tile href, href, ← ho, ← hthr,
    State.afterWait]
  simp

/-- A wait that is met leaves its object's value, less the threshold where it subtracts. -/
theorem afterWait_changes {o thr : Nat} (ho : o < 256) (hmet : thr ≤ s.fld (Reg.TOBJ_VAL_VALUE o)) :
    (s.afterWait f o thr).fld (Reg.TOBJ_VAL_VALUE o) =
        (if f.p 56 1 = 1 then s.fld (Reg.TOBJ_VAL_VALUE o) - thr else s.fld (Reg.TOBJ_VAL_VALUE o))
      ∧ (s.afterWait f o thr).clusters = s.clusters ∧ (∀ w, State.replyWord w → (s.afterWait f o thr).rd w = s.rd w)
      ∧ (s.afterWait f o thr).queues = s.queues := by
  have hlt := State.fld_lt s (Reg.TOBJ_VAL_VALUE o)
  have hsub : clampObj ((s.fld (Reg.TOBJ_VAL_VALUE o) : Int) + -(thr : Int)) = s.fld (Reg.TOBJ_VAL_VALUE o) - thr := by
    dsimp only at hlt
    unfold clampObj
    rw [if_neg (by omega)]
    omega
  obtain ⟨hnew, -, hrd, hqs⟩ := s.tobjAdd_changes ho (-(thr : Int)) (s.agentAddr 0) s.beatLow
  unfold State.afterWait
  split
  · exact ⟨hnew.trans hsub, s.tobjAdd_clusters o _ _ _, hrd, hqs⟩
  · exact ⟨rfl, rfl, fun _ _ => rfl, rfl⟩

end

/-- Settles O47: what each command does to its object is a lemma about the object's change, and its reply follows that change. -/
theorem syncCommands : Obligations.SyncCommands := by
  unfold Obligations.SyncCommands
  refine ⟨?_, ?_, ?_, ?_, ?_, ?_⟩
  · intro s i f o hf href ho
    have ⟨_, hfetched, _⟩ := hf
    have hq := State.queue_of_fetched? hfetched
    have hexec := exec_signal_of_tile hf href ho
    obtain ⟨hval, hother, hrd, hqs⟩ := s.tobjAdd_changes (o := o) (by omega) (sext (f.p 32 32) 32) (s.agentAddr 0) s.beatLow
    have hcl := s.tobjAdd_clusters o (sext (f.p 32 32) 32) (s.agentAddr 0) s.beatLow
    generalize s.tobjAdd o (sext (f.p 32 32) 32) (s.agentAddr 0) s.beatLow = u at hexec hval hother hrd hqs hcl
    obtain ⟨-, -, hcc, -⟩ := (complete_only u f stOk 0 0).outside
    have hfld (k : Nat) : (u.complete f stOk 0 0).fld (Reg.TOBJ_VAL_VALUE k) = u.fld (Reg.TOBJ_VAL_VALUE k) :=
      State.fld_of_rd (State.rd_complete _ _ _ hq (by dsimp only; omega))
    exact ⟨_, hexec, State.replied_complete_of _ _ _ hq hrd hqs, (hfld o).trans hval, fun k hk hne => (hfld k).trans (hother k hk hne),
      hcc.trans hcl⟩
  · intro s i f site o hf href hsite ho hlt
    have ⟨_, hfetched, _⟩ := hf
    have hq := State.queue_of_fetched? hfetched
    have hs : site < 64 := by rw [hsite]; exact Nat.mod_lt _ (by decide)
    have hexec := exec_signal_of_cluster hf href hsite ho
    obtain ⟨hval, hother, hslices, htile, hrd, hqs⟩ := s.objAdd_changes hs hlt (sext (f.p 32 32) 32) (s.agentAddr 0) s.beatLow
    generalize s.objAdd site o (sext (f.p 32 32) 32) (s.agentAddr 0) s.beatLow = u at hexec hval hother hrd hqs hslices htile
    obtain ⟨-, -, hcc, hct, -⟩ := (complete_only u f stOk 0 0).outside
    have hcl (k : Nat) : (u.complete f stOk 0 0).cl k = u.cl k := by
      unfold State.cl
      rw [hcc]
    have hfld : (u.complete f stOk 0 0).fld (Reg.SYNC_VAL_VALUE site o) = u.fld (Reg.SYNC_VAL_VALUE site o) :=
      State.fld_of_rd (State.rd_complete _ _ _ hq (by dsimp only [clBlk]; omega))
    exact ⟨_, hexec, State.replied_complete_of _ _ _ hq hrd hqs, hfld.trans hval, fun k hk => (hcl k).trans (hother k hk),
      fun k a => by rw [hcl, hslices], hct.trans htile⟩
  · intro s i f hf
    have ⟨_, hfetched, _⟩ := hf
    have hexec : exec (.wait i) s = .next (s.runOn f) := by
      change execWait i s = _
      unfold execWait
      rw [State.cmd_of_startsCmd _ hf]
    exact ⟨_, hexec, State.runsOn_runOn (State.mem_flights_of_fetched? hfetched), rfl, rfl, rfl, fun _ => rfl, rfl⟩
  · rintro s i f o thr v hf href ho hthr rfl hle honly hcore
    have ⟨_, hrun⟩ := hf
    obtain ⟨-, hq, -⟩ := State.mem_flights_of_running? hrun
    have hexec := exec_hostWaitMet_of_tile hf href ho hthr hle honly hcore
    obtain ⟨hval, hcl, hrd, hqs⟩ := afterWait_changes (f := f) (o := o) (by omega) hle
    rw [hval] at hexec
    refine ⟨_, hexec, State.replied_complete_of _ _ _ hq hrd hqs, ?_, ?_⟩
    · exact (State.fld_of_rd (State.rd_complete _ _ _ hq (by dsimp only; omega))).trans hval
    · obtain ⟨-, -, hcc, -⟩ := (complete_only (s.afterWait f o thr) f stOk 0
        (if f.p 56 1 = 1 then s.fld (Reg.TOBJ_VAL_VALUE o) - thr else s.fld (Reg.TOBJ_VAL_VALUE o))).outside
      exact hcc.trans hcl
  · rintro s i f ⟨hfw, hrun⟩
    have hexec : exec (.hostWaitTmo i) s = .next (s.complete f stTimeout 0x080C 0) := by
      change execHostWaitTmo i s = _
      simp only [execHostWaitTmo, hfw, if_true, hrun]
    obtain ⟨-, -, hcl, htile, -⟩ := (complete_only s f stTimeout 0x080C 0).outside
    exact ⟨_, hexec, s.replied_complete f _ _ _, hcl, htile⟩
  · intro s i f hf
    have hexec : exec (.query i) s = .next (s.complete f stOk 0 (s.queryDetail f)) := by
      change execQuery i s = _
      unfold execQuery
      rw [State.cmd_of_startsCmd _ hf]
    obtain ⟨-, -, hcl, htile, -⟩ := (complete_only s f stOk 0 (s.queryDetail f)).outside
    exact ⟨_, hexec, s.replied_complete f _ _ _, State.bits_queryDetail, hcl, htile⟩

end Sys2Proof.Machine
end

section
/-! The host's data commands (R324, R325): what they move in package memory, the grants that they take, and the contexts that
PREFETCH_CANCEL empties. -/

namespace Sys2Proof.Machine

-- Each theorem in turn: side by side they would reserve more stacks than a check has memory for.
set_option Elab.async false

namespace State

variable {s : State} {f : Flight}

/-! ## What a data command moves -/

/-- A COPY inside package memory from lines that are not poisoned. -/
theorem dataMove_copy (hop : f.opcode = 0x20) (hsrc : awSpace (f.p 0 64) = 0) (hdst : awSpace (f.p 64 64) = 0) (hpoison : s.poison = [])
    (hsig : f.p 182 1 = 0) :
    s.dataMove f = (s.pkgWrite (awAddr (f.p 64 64)) (s.pkgRead (awAddr (f.p 0 64)) (f.p 128 32))).complete f stOk 0 0 := by
  have hclean : s.srcPoison f = none := by
    simp [State.srcPoison, hop, hsrc, Flight.dataPieces, State.poisonAt, hpoison]
  simp [State.dataMove, hclean, Flight.dataPieces, hop, State.movePiece, State.awRead, hsrc, State.awWrite, hdst, hpoison, State.coverGood,
    State.dataSignal, hsig]

/-- A FILL of package memory. -/
theorem dataMove_fill (hop : f.opcode = 0x21) (hdst : awSpace (f.p 64 64) = 0) (hsig : f.p 182 1 = 0) :
    s.dataMove f = (s.pkgWrite (awAddr (f.p 64 64))
      ((List.range (f.p 128 32)).map fun k => BitVec.ofNat 8 (f.p 0 64 / 2 ^ (8 * (k % 8))))).complete f stOk 0 0 := by
  simp [State.dataMove, State.srcPoison, Flight.dataPieces, hop, State.movePiece, State.awWrite, hdst, State.coverGood,
    State.dataSignal, hsig]

/-- Steps that change nothing but package memory and its poison, one after another. -/
theorem foldl_memory {β : Type} (step : State → β → State) (h : ∀ u x, ∃ m p, step u x = ({ u with pkgMem := m, poison := p } : State)) (l : List β)
    (u : State) : ∃ m p, l.foldl step u = ({ u with pkgMem := m, poison := p } : State) := by
  induction l generalizing u with
  | nil => exact ⟨_, _, rfl⟩
  | cons x l ih =>
    obtain ⟨m, p, hx⟩ := h u x
    obtain ⟨m', p', hl⟩ := ih (step u x)
    exact ⟨m', p', hl.trans (by rw [hx])⟩

/-- A piece moved inside package memory changes nothing else. -/
theorem movePiece_memory (s0 : State) (hop : f.opcode = 0x20) (hsrc : awSpace (f.p 0 64) = 0) (hdst : awSpace (f.p 64 64) = 0)
    (u : State) (q : Nat × Nat × Nat) : ∃ m p, State.movePiece s0 u f q = ({ u with pkgMem := m, poison := p } : State) := by
  unfold State.movePiece
  dsimp only
  rw [if_neg (by omega), if_neg (by omega)]
  obtain ⟨m, p, h⟩ := foldl_memory (fun (v : State) l =>
      v.awPoison (f.p 64 64) (awAddr (f.p 64 64) + q.2.1 + (max (awAddr (f.p 0 64) + q.1) (64 * l) - (awAddr (f.p 0 64) + q.1)))
        (min (awAddr (f.p 0 64) + q.1 + q.2.2) (64 * l + 64) - max (awAddr (f.p 0 64) + q.1) (64 * l))
        (max (awAddr (f.p 0 64) + q.1) (64 * l)))
    (fun v l => ⟨_, _, if_pos hdst⟩) ((linesOf (awAddr (f.p 0 64) + q.1) q.2.2).filter fun l => s0.poison.contains l)
    (u.pkgWrite (awAddr (f.p 64 64) + q.2.1) (u.pkgRead (awAddr (f.p 0 64) + q.1) q.2.2))
  refine ⟨m, p, Eq.trans ?_ h⟩
  simp only [State.awRead, State.awWrite, hsrc, hdst, if_true]

/-- A COPY inside package memory whose source is poisoned. -/
theorem dataMove_poisoned {a : Nat} (hop : f.opcode = 0x20) (hsrc : awSpace (f.p 0 64) = 0) (hdst : awSpace (f.p 64 64) = 0)
    (hpoison : s.poisonAt (awAddr (f.p 0 64)) (f.p 128 32) = some a) :
    ∃ m p, s.dataMove f = ({ s with pkgMem := m, poison := p } : State).complete f stFaultAbandoned 0x021B (a % 2 ^ 48) := by
  have hbad : s.srcPoison f = some a := by
    simp [State.srcPoison, hop, hsrc, Flight.dataPieces, hpoison]
  have hgood : s.coverGood f = s := by simp [State.coverGood, hop]
  obtain ⟨m, p, h⟩ := foldl_memory _ (movePiece_memory s hop hsrc hdst) f.dataPieces s
  refine ⟨m, p, ?_⟩
  unfold State.dataMove
  simp only [hbad, hgood, h]

/-- A command that moves no byte of a slice waits for no bank. -/
theorem dataWaits_of_memory (hdst : awSpace (f.p 64 64) = 0) (hsrc : f.opcode = 0x21 ∨ awSpace (f.p 0 64) = 0) : s.dataWaits f = false := by
  rcases hsrc with h | h <;> simp [State.dataWaits, hdst, h]

/-- Beside its reply a completion writes no byte. -/
theorem memGet_complete (st r d : Nat) {a : Nat} (ha : a < s.replyAt f.queue ∨ s.replyAt f.queue + 32 ≤ a) :
    memGet (s.complete f st r d).pkgMem a = memGet s.pkgMem a := by
  rw [complete_pkgMem, memGet_pkgWrite_part, if_neg]
  rw [leBytes_length]
  omega

/-- A command that has written a range and then replies elsewhere: the range reads as written, and every other byte but the reply's as
before. -/
theorem written_completes (s : State) {a : Nat} {l : List Byte} (hq : f.queue < 8192) (hfit : a + l.length ≤ s.memSize)
    (hr : s.replyAt f.queue + 32 ≤ a ∨ a + l.length ≤ s.replyAt f.queue) :
    s.replied ((s.pkgWrite a l).complete f stOk 0 0) f stOk 0 0
      ∧ ((s.pkgWrite a l).complete f stOk 0 0).pkgRead a l.length = l
      ∧ (∀ b, (b < a ∨ a + l.length ≤ b) → (b < s.replyAt f.queue ∨ s.replyAt f.queue + 32 ≤ b) →
          memGet ((s.pkgWrite a l).complete f stOk 0 0).pkgMem b = memGet s.pkgMem b)
      ∧ ((s.pkgWrite a l).complete f stOk 0 0).clusters = s.clusters := by
  have hat : (s.pkgWrite a l).replyAt f.queue = s.replyAt f.queue := rfl
  obtain ⟨-, -, hcl, -⟩ := (complete_only (s.pkgWrite a l) f stOk 0 0).outside
  refine ⟨replied_complete_of _ _ _ hq (fun _ _ => rfl) rfl, ?_, fun b hb hrb => ?_, hcl⟩
  · exact Eq.trans (memRead_congr fun x hlo hhi => memGet_complete _ _ _ (by omega)) (pkgRead_pkgWrite s hfit)
  · rw [memGet_complete _ _ _ (by omega), memGet_pkgWrite_part, if_neg (by omega)]

/-! ## Its turn -/

/-- A data command that is served whole moves its bytes; the grants that it takes are the tile's. -/
theorem exec_dataCommandComplete_of_served {i : FlightId} (hf : s.runsCmd i [0x20, 0x21, 0x22] f) (hw : s.dataWaits f = false)
    (hserved : s.dataServed f) : ∃ x : Tile, exec (.dataCommandComplete i) s = .next (({ s with tile := x } : State).dataMove f) := by
  obtain ⟨hfw, hrun⟩ := hf
  by_cases hts : s.ts = tsRunning
  · obtain ⟨hr, hv⟩ := hserved.resolve_left (not_not_intro hts)
    refine ⟨((s.spend 0 (s.dataTake 0 f.wants.1)).spend 1 (s.dataTake 1 f.wants.2)).tile, ?_⟩
    change execDataCommandComplete i s = _
    unfold Flight.wants at hr hv ⊢
    simp only [execDataCommandComplete, hfw, if_true, hrun, hw, hts, hr, hv]
    simp
    rfl
  · refine ⟨s.tile, ?_⟩
    change execDataCommandComplete i s = _
    simp [execDataCommandComplete, hfw, hrun, hw, hts]

/-- A data command whose grants do not suffice takes what is left and runs on. -/
theorem exec_dataCommandComplete_of_not_served {i : FlightId} (hf : s.runsCmd i [0x20, 0x21, 0x22] f) (hw : s.dataWaits f = false)
    (hserved : ¬ s.dataServed f) : exec (.dataCommandComplete i) s = .next (((s.spend 0 (s.dataTake 0 f.wants.1)).spend 1
      (s.dataTake 1 f.wants.2)).setFlight { f with
        want := some (f.wants.1 - s.dataTake 0 f.wants.1, f.wants.2 - s.dataTake 1 f.wants.2) }) := by
  obtain ⟨hfw, hrun⟩ := hf
  obtain ⟨hts, hshort⟩ := not_or.mp hserved
  change execDataCommandComplete i s = _
  unfold Flight.wants at hshort ⊢
  simp only [execDataCommandComplete, hfw, if_true, hrun, hw, hts, if_neg hshort]
  simp

theorem mem_setFlight_same {g : Flight} (hf : f ∈ s.flights) (hsame : g.same f = true) : g ∈ (s.setFlight g).flights :=
  List.mem_map.mpr ⟨f, hf, if_pos hsame⟩

/-! ## Cancelled contexts (R206) -/

theorem clusters_of_onlyRegs {s t : State} (h : OnlyRegs s t) : t.clusters = s.clusters := by
  obtain ⟨_, rfl⟩ := h
  rfl

/-- A cancelled context is idle; the other contexts, the slices and the other clusters stay. -/
theorem cancelCtx_leaves (s : State) (site d : Nat) :
    (∀ k, k ≠ site → (s.cancelCtx site d).cl k = s.cl k) ∧ ((s.cancelCtx site d).cl site).slice = (s.cl site).slice
      ∧ ((s.cancelCtx site d).ctx site d).act = none ∧ ((s.cancelCtx site d).ctx site d).shd = none
      ∧ ∀ e, e ≠ d → (s.cancelCtx site d).ctx site e = s.ctx site e := by
  unfold State.cancelCtx
  extract_lets c bound loads quiet s1 s2 s3 tl s4
  have hs1 : s1.clusters = s.clusters := clusters_of_onlyRegs (OnlyRegs.foldl _ (fun _ _ => setFld_only _ _ _) _ _)
  have hs3 : ((s4.setFld (Reg.STR_STATE_EPOCH site d) (s.fld (Reg.STR_STATE_EPOCH site d) + 1)).showCtx site d).clusters = s3.clusters :=
    (clusters_of_onlyRegs ((setFld_only s4 _ _).trans (showCtx_only _ site d))).trans rfl
  generalize (s4.setFld (Reg.STR_STATE_EPOCH site d) (s.fld (Reg.STR_STATE_EPOCH site d) + 1)).showCtx site d = t at hs3
  have h1 (k : Nat) : s1.cl k = s.cl k := by unfold State.cl; rw [hs1]
  have h2 (k : Nat) : s2.cl k = _ := cl_modCl s1 site k _
  have h3 (k : Nat) : t.cl k = _ := (show t.cl k = s3.cl k by unfold State.cl; rw [hs3]).trans (cl_modCl s2 site k _)
  have hctx (e : Nat) : t.ctx site e = s2.ctx site e := by
    unfold State.ctx
    rw [h3, if_pos rfl]
  have hctx2 (e : Nat) : s2.ctx site e = Store.get {} (Store.upd {} (s.cl site).ctxs d fun c : Ctx =>
      { xfers := (c.xfers.filter fun x => !x.bad).map fun (x : Xfer) => { x with dead := true } }) e := by
    unfold State.ctx
    rw [h2, if_pos rfl, h1]
  refine ⟨fun k hk => by rw [h3, if_neg hk, h2, if_neg hk, h1], by rw [h3, if_pos rfl, h2, if_pos rfl, h1], ?_, ?_, fun e he => ?_⟩
  · rw [hctx, hctx2, Store.get_upd_same]
  · rw [hctx, hctx2, Store.get_upd_same]
  · rw [hctx, hctx2, Store.get_upd_other _ _ _ he]
    rfl

/-- Contexts cancelled one after another: those of the list are idle, the others stay. -/
theorem foldl_cancelCtx_leaves (l : List Nat) (s : State) (site : Nat) :
    (∀ k, k ≠ site → (l.foldl (fun s d => s.cancelCtx site d) s).cl k = s.cl k)
      ∧ ((l.foldl (fun s d => s.cancelCtx site d) s).cl site).slice = (s.cl site).slice
      ∧ (∀ d ∈ l, ((l.foldl (fun s d => s.cancelCtx site d) s).ctx site d).act = none
          ∧ ((l.foldl (fun s d => s.cancelCtx site d) s).ctx site d).shd = none)
      ∧ ∀ d, d ∉ l → (l.foldl (fun s d => s.cancelCtx site d) s).ctx site d = s.ctx site d := by
  induction l generalizing s with
  | nil => simp
  | cons d l ih =>
    obtain ⟨hcl, hslice, hact, hshd, hother⟩ := cancelCtx_leaves s site d
    obtain ⟨ihcl, ihslice, ihidle, ihother⟩ := ih (s.cancelCtx site d)
    refine ⟨fun k hk => (ihcl k hk).trans (hcl k hk), ihslice.trans hslice, fun e he => ?_, fun e he => ?_⟩
    · by_cases hl : e ∈ l
      · exact ihidle e hl
      · have hed : e = d := (List.mem_cons.mp he).resolve_right hl
        rw [List.foldl_cons, ihother e hl, hed]
        exact ⟨hact, hshd⟩
    · rw [List.mem_cons, not_or] at he
      obtain ⟨hne, hl⟩ := he
      exact (ihother e hl).trans (hother e hne)

/-- PREFETCH_CANCEL cancels the contexts that it names, and replies. -/
theorem exec_prefetchCancel {i : FlightId} (hf : s.startsCmd i 0x23 f) :
    ∃ n, exec (.prefetchCancel i) s = .next ((((List.range 64).filter (f.p 0 64).testBit).foldl
      (fun s d => s.cancelCtx (f.p 64 6) d) s).complete f stOk 0 n) := by
  change ∃ n, execPrefetchCancel i s = _
  unfold execPrefetchCancel
  rw [State.cmd_of_startsCmd _ hf]
  exact ⟨_, rfl⟩

end State

/-- A command carried out by running on leaves all but the commands in flight. -/
theorem answers_runOn {s : State} {i : FlightId} {op : Nat} {f : Flight} {c : Instr} (hf : s.startsCmd i op f)
    (hexec : exec c s = .next (s.runOn f)) :
    Answers c s fun t => t.runsOn f ∧ t.regs = s.regs ∧ t.clusters = s.clusters ∧ t.tile = s.tile ∧ s.sameMem t := by
  have ⟨_, hfetched, _⟩ := hf
  exact ⟨_, hexec, State.runsOn_runOn (State.mem_flights_of_fetched? hfetched), rfl, rfl, rfl, fun _ => rfl, rfl⟩

/-- Settles O46: a data command runs on, takes its grants, and completes after its one piece; contexts are cancelled one after another. -/
theorem dataCommands : Obligations.DataCommands := by
  unfold Obligations.DataCommands
  refine ⟨?_, ?_, ?_, ?_, ?_, ?_, ?_, ?_⟩
  · intro s i f hf
    refine answers_runOn hf ?_
    change execCopy i s = _
    unfold execCopy
    rw [State.cmd_of_startsCmd _ hf]
  · intro s i f hf
    refine answers_runOn hf ?_
    change execFill i s = _
    unfold execFill
    rw [State.cmd_of_startsCmd _ hf]
  · intro s i f hf
    refine answers_runOn hf ?_
    change execTranspose i s = _
    unfold execTranspose
    rw [State.cmd_of_startsCmd _ hf]
  · rintro s i f src dst n r hf hop hsrc hdst rfl rfl rfl rfl hpoison hsig hfit hr hserved
    have ⟨_, hrun⟩ := hf
    obtain ⟨-, hq, -⟩ := State.mem_flights_of_running? hrun
    obtain ⟨x, hexec⟩ := State.exec_dataCommandComplete_of_served hf (State.dataWaits_of_memory hdst (.inr hsrc)) hserved
    rw [State.dataMove_copy (s := { s with tile := x }) hop hsrc hdst hpoison hsig] at hexec
    have hlen : (s.pkgRead (awAddr (f.p 0 64)) (f.p 128 32)).length = f.p 128 32 := memRead_length _ _ _
    obtain ⟨hreply, hread, hother, hcl⟩ := State.written_completes { s with tile := x } (f := f) (a := awAddr (f.p 64 64))
      (l := s.pkgRead (awAddr (f.p 0 64)) (f.p 128 32)) hq (by rw [hlen]; exact hfit) (by rw [hlen]; exact hr)
    rw [hlen] at hread hother
    exact ⟨_, hexec, hreply, hread, hother, hcl⟩
  · intro s i f hf hw hshort
    have ⟨_, hrun⟩ := hf
    obtain ⟨hmem, -⟩ := State.mem_flights_of_running? hrun
    refine ⟨_, State.exec_dataCommandComplete_of_not_served hf hw hshort, State.mem_setFlight_same (s := ((s.spend 0 _).spend 1 _)) hmem ?_,
      rfl, rfl, fun _ => rfl, rfl⟩
    simp [Flight.same]
  · rintro s i f dst n r hf hop hdst rfl rfl rfl hsig hfit hr hserved
    have ⟨_, hrun⟩ := hf
    obtain ⟨-, hq, -⟩ := State.mem_flights_of_running? hrun
    obtain ⟨x, hexec⟩ := State.exec_dataCommandComplete_of_served hf (State.dataWaits_of_memory hdst (.inl hop)) hserved
    rw [State.dataMove_fill hop hdst hsig] at hexec
    have hlen : ((List.range (f.p 128 32)).map fun k => BitVec.ofNat 8 (f.p 0 64 / 2 ^ (8 * (k % 8)))).length = f.p 128 32 := by simp
    obtain ⟨hreply, hread, -, hcl⟩ := State.written_completes { s with tile := x } (f := f) (a := awAddr (f.p 64 64))
      (l := (List.range (f.p 128 32)).map fun k => BitVec.ofNat 8 (f.p 0 64 / 2 ^ (8 * (k % 8)))) hq
      (by rw [hlen]; exact hfit) (by rw [hlen]; exact hr)
    rw [hlen] at hread
    refine ⟨_, hexec, hreply, fun k hk => ?_, hcl⟩
    exact List.map_inj_left.mp hread k (List.mem_range.mpr hk)
  · rintro s i f a hf hop hsrc hdst hpoison hserved
    have ⟨_, hrun⟩ := hf
    obtain ⟨-, hq, -⟩ := State.mem_flights_of_running? hrun
    obtain ⟨x, hexec⟩ := State.exec_dataCommandComplete_of_served hf (State.dataWaits_of_memory hdst (.inr hsrc)) hserved
    obtain ⟨m, p, hmove⟩ := State.dataMove_poisoned (s := { s with tile := x }) hop hsrc hdst hpoison
    rw [hmove] at hexec
    obtain ⟨-, -, hcl, -⟩ := (complete_only { s with tile := x, pkgMem := m, poison := p } f stFaultAbandoned 0x021B (a % 2 ^ 48)).outside
    exact ⟨_, hexec, State.replied_complete_of _ _ _ hq (fun _ _ => rfl) rfl, hcl⟩
  · intro s i f hf
    obtain ⟨n, hexec⟩ := State.exec_prefetchCancel hf
    obtain ⟨hcl, hslice, hidle, hother⟩ := State.foldl_cancelCtx_leaves ((List.range 64).filter (f.p 0 64).testBit) s (f.p 64 6)
    generalize ((List.range 64).filter (f.p 0 64).testBit).foldl (fun s d => s.cancelCtx (f.p 64 6) d) s = u at hexec hcl hslice hidle hother
    obtain ⟨hleft, -⟩ := u.replied_complete f stOk 0 n
    obtain ⟨-, -, hcc, -⟩ := (complete_only u f stOk 0 n).outside
    have hcu (k : Nat) : (u.complete f stOk 0 n).cl k = u.cl k := by
      unfold State.cl
      rw [hcc]
    have hctx (d : Nat) : (u.complete f stOk 0 n).ctx (f.p 64 6) d = u.ctx (f.p 64 6) d := by
      unfold State.ctx
      rw [hcu]
    refine ⟨_, hexec, hleft, fun d hd hb => ?_, fun d hd hb => ?_, fun k hk => (hcu k).trans (hcl k hk), fun k a => ?_⟩
    · rw [hctx]
      exact hidle d (List.mem_filter.mpr ⟨List.mem_range.mpr hd, hb⟩)
    · rw [hctx]
      exact hother d fun hmem => by simp [hb] at hmem
    · rw [hcu]
      by_cases hk : k = f.p 64 6
      · rw [hk, hslice]
      · rw [hcl k hk]

end Sys2Proof.Machine
end

section
/-! The watchdogs (R235, R351), and the fall to FAILED (R310). -/

namespace Sys2Proof.Machine

-- Each theorem in turn: side by side they would reserve more stacks than a check has memory for.
set_option Elab.async false

namespace State
variable (s : State)

/-! ## Entering FAILED (R310) -/

/-- Completing commands leaves the tile's state word. -/
theorem rd_tileState_completeWhere (p : Flight → Bool) (st r : Nat) : (s.completeWhere p st r).rd 0x8 = s.rd 0x8 := by
  have hone (u : State) (f : Flight) : (u.complete f st r 0).rd 0x8 = u.rd 0x8 := by
    refine sameRegs_complete u f st r 0 0x8 ?_
    unfold completionRegs
    dsimp only [Reg.QUEUE_STATE, Reg.CQ_PTR, Reg.Q_INFLIGHT, qBlk]
    omega
  have hall (l : List Flight) (u : State) : (l.foldl (fun u f => u.complete f st r 0) u).rd 0x8 = u.rd 0x8 := by
    induction l generalizing u with
    | nil => rfl
    | cons f l ih => exact (ih _).trans (hone u f)
  exact hall _ s

theorem rd_tileState_sendBootStatus : s.sendBootStatus.rd 0x8 = s.rd 0x8 := by
  unfold State.sendBootStatus
  dsimp only
  exact (SbKeeps.ite ((SbKeeps.refl (p := dropWord) s).sbQueue _ rfl) (((SbKeeps.refl (p := dropWord) s).sbQueue _ rfl).sbQueue _ rfl)).regs 0x8 (by decide)

/-- The tile is FAILED with the reason. -/
theorem enterFailed_ts (r : Nat) (hr : r < 2 ^ 16) :
    (s.enterFailed r).ts = tsFailed ∧ (s.enterFailed r).fld Reg.TILE_STATE_REASON = r := by
  have hrd : (s.enterFailed r).rd 0x8 =
      (((s.enter tsFailed).setFld Reg.TILE_STATE_REASON r).setFlag Reg.TILE_STATE_PAUSE_PENDING false).rd 0x8 := by
    unfold State.enterFailed
    rw [rd_tileState_sendBootStatus, rd_tileState_completeWhere]
    rfl
  constructor
  · refine (fld_of_rd (f := Reg.TILE_STATE_STATE) hrd).trans ?_
    unfold State.setFlag
    rw [fld_setFld_of_apart _ _ (by decide), fld_setFld_of_apart _ _ (by decide)]
    unfold State.enter State.setFlag
    rw [fld_setFld_of_apart _ _ (by decide), fld_setFld_same _ _ (by decide)]
    rfl
  · refine (fld_of_rd (f := Reg.TILE_STATE_REASON) hrd).trans ?_
    unfold State.setFlag
    rw [fld_setFld_of_apart _ _ (by decide), fld_setFld_same _ _ (by decide)]
    exact Nat.mod_eq_of_lt hr

/-- A failure in RUNNING or RECOVERING (R310). -/
theorem fail_of_running {r : Nat} (h : s.ts = tsRunning ∨ s.ts = tsRecovering) : s.fail r = s.enterFailed r := by
  unfold State.fail
  rw [if_neg]
  rcases h with h | h <;> rw [h] <;> decide

/-! ## Errors that no block is charged with (R337, R344) -/

theorem onlyRegs_ite {s t u : State} {c : Prop} [Decidable c] (ht : OnlyRegs s t) (hu : OnlyRegs s u) : OnlyRegs s (if c then t else u) := by
  split <;> assumption

/-- An error of a cluster's unit whose status shows no FAULT is recorded with its level, beside which registers alone change. -/
theorem raise_of_unit {e : PErr} {c : Nat} {t : Site} {n : Fin 16} (hs : e.site = some c) (hb : e.blk = 0) (hu : e.unit = .unit t n)
    (hn : ¬ (1 ≤ n.val ∧ n.val ≤ 6)) :
    ∃ x l, s.raise e = { s with regs := x, tile := { s.tile with errs := s.tile.errs ++ [{ e with level := l }] } } := by
  have hshow (u : State) : u.showFault e.unit = u := by
    rw [hu]
    unfold State.showFault
    dsimp only
    rw [if_neg (by omega), if_neg (by omega)]
  generalize hr : s.raise e = u
  unfold State.raise at hr
  rw [hs] at hr
  dsimp -zeta only at hr
  rw [if_neg (by simp [hb])] at hr
  extract_lets faults was quar l0 lvl s1 s2 s3 s4 at hr
  have h1 : OnlyRegs s s1 := (setFld_only s _ _).trans (setFld_only _ _ _)
  have h2 : OnlyRegs s s2 := onlyRegs_ite (h1.trans (setFld_only _ _ _)) h1
  have h3 : OnlyRegs s s3 := onlyRegs_ite (h2.trans (setFlag_only _ _ _)) h2
  obtain ⟨x, h4⟩ : OnlyRegs s s4 := by rwa [show s4 = s3 from if_neg (by simp [hb])]
  clear_value s4
  subst h4
  exact ⟨x, lvl, hr.symm.trans ((hshow _).trans (by rw [hs]))⟩

/-- The watchdog of a cluster whose slots wait at a barrier (R235): the cluster's count starts again, and the error is recorded. -/
theorem execClWdog_of_held {site : Site} (hb : s.inBeat = true) (hl : s.live site = true)
    (hw : s.fld (Reg.CL_WDOG_BEATS site) ≤ (s.cl site).wdog) (hheld : ∃ p ∈ (s.cl site).slots, p.2.holdBar ≠ []) :
    ∃ x e, execClWdog site s = .next { s.modCl site fun c => { c with wdog := 0 } with
        regs := x, tile := { s.tile with errs := s.tile.errs ++ [e] } }
      ∧ e.cls = 0x0D ∧ e.reason = 0x0805 ∧ e.site = some site.val := by
  have hsome : ((s.cl site).slots.findSome? fun (p : Nat × SlotSt) => p.2.holdBar.head?.map fun h => (p.1, h)).isSome := by
    rw [List.findSome?_isSome_iff]
    obtain ⟨p, hp, hne⟩ := hheld
    exact ⟨p, hp, by simpa using hne⟩
  obtain ⟨⟨n, b, g⟩, hfound⟩ := Option.isSome_iff_exists.mp hsome
  unfold execClWdog
  dsimp only
  rw [if_pos (by simp [hb, hl, hw]), hfound]
  dsimp only
  obtain ⟨x, l, hr⟩ := raise_of_unit (s.modCl site fun c => { c with wdog := 0 })
    (e := { (s.modCl site fun c => { c with wdog := 0 }).clErr 0x0D site 9 with
      slot := n, reason := 0x0805, detail := b + g * 2 ^ 8 + (s.node b site).inCur.length * 2 ^ 24 + (s.node b nDie).inCur.length * 2 ^ 40 })
    (c := site) (t := Fin.ofNat 64 site) (n := Fin.ofNat 16 9) rfl rfl rfl (by decide)
  exact ⟨x, _, by rw [hr]; rfl, rfl, rfl, rfl⟩

/-- The tile's own watchdog (R351): an entry of the error log, and the tile fails. -/
theorem execTileWdog_of_expired (ha : s.alive = true) (hts : s.ts = tsRunning ∨ s.ts = tsRecovering)
    (hw : s.fld Reg.TILE_WDOG_BEATS ≤ s.tile.wdog) :
    ∃ u : State, execTileWdog s = .next (u.enterFailed 0x0217) ∧ u.clusters = s.clusters := by
  have hlog := log_keeps s { cls := 0x0E, action := 5, source := s.agentAddr 0, detail := s.tile.wdog }
  have hts' := ts_of_keeps hlog (by decide)
  refine ⟨_, ?_, hlog.clusters⟩
  unfold execTileWdog
  rw [if_pos (by rcases hts with h | h <;> simp [ha, h, hw]), fail_of_running _ (by rwa [hts'])]

end State

/-- Settles O34. A barrier watchdog's error is charged to no unit that is taken out for a test, so that beside its record registers
alone change. -/
theorem watchdogsReport : Obligations.WatchdogsReport := by
  unfold Obligations.WatchdogsReport
  refine ⟨fun s site hb hl hw hheld => ?_, fun s ha hts hw => ?_⟩
  · obtain ⟨x, e, he, hcls, hreason, hsite⟩ := s.execClWdog_of_held hb hl hw hheld
    have hcl (k : Nat) := cl_modCl s site k fun c => { c with wdog := 0 }
    refine ⟨_, he, ?_, ⟨e, rfl, hcls, hreason, hsite⟩, fun k hk => ?_, ⟨fun _ => rfl, rfl⟩, fun k a => ?_⟩
    · exact congrArg Cluster.wdog ((hcl site).trans (if_pos rfl))
    · exact (hcl k).trans (if_neg hk)
    · refine congrArg (memGet · a) ((congrArg Cluster.slice (hcl k)).trans ?_)
      split
      · next h => rw [h]
      · rfl
  · obtain ⟨u, hu, hclusters⟩ := s.execTileWdog_of_expired ha hts hw
    obtain ⟨hts', hreason⟩ := u.enterFailed_ts 0x0217 (by decide)
    obtain ⟨_, _, _, _, _, _, _, hf⟩ := enterFailed_only u 0x0217
    exact ⟨_, hu, hts', hreason, by rw [hf]; exact hclusters⟩

end Sys2Proof.Machine
end

section
/-! The vector opcodes (R51, R152, R154, R165). -/

namespace Sys2Proof.Machine

-- Each theorem in turn: side by side they would reserve more stacks than a check has memory for.
set_option Elab.async false

theorem barza_custom1 {w f3 : Nat} (h : opcodeIs w 0x2B f3) (hf : f3 < 7) : Machine.barza w = some (5 + f3) := by
  have h3 : bits w 12 3 = f3 := h.2
  simp only [Machine.barza, h.1, h3, if_pos hf]

/-- A vector cluster has two engines, a matrix cluster one (R152). -/
theorem engOk_of {site w : Nat} (h : isVector site = true ∨ wF7 w < 64) : engOk site w = true := by
  unfold engOk
  rcases h with h | h
  · simp [h]
  · have h7 : f7 w / 64 = 0 := Nat.div_eq_of_lt h
    simp [h7]

/-- funct7 of an opcode that names an engine and no more. -/
theorem engineOnly_of {site w : Nat} (h : wF7 w = 0 ∨ (isVector site = true ∧ wF7 w = 64)) : engOk site w = true ∧ f7 w % 64 = 0 := by
  have hf : f7 w = wF7 w := rfl
  rcases h with h | ⟨hv, h⟩
  · exact ⟨engOk_of (.inr (by omega)), by omega⟩
  · exact ⟨engOk_of (.inl hv), by omega⟩

@[simp] theorem SlotSt.getY_setY (x : SlotSt) (r : Nat) (v : Word) : (x.setY r v).getY r = v := by
  unfold SlotSt.setY SlotSt.getY
  exact Store.get_putD_same _ _ _ _

namespace State
variable {s t : State} {site n : Nat}

theorem eng_modCl {f : Cluster → Cluster} (he : (f (s.cl site)).engs = (s.cl site).engs) (c e : Nat) :
    (s.modCl site f).eng c e = s.eng c e := by
  unfold State.eng
  rw [cl_modCl]
  split
  · next h => rw [h, he]
  · rfl

theorem eng_of_onlyRegs (h : OnlyRegs s t) (c e : Nat) : t.eng c e = s.eng c e := by
  obtain ⟨_, rfl⟩ := h
  rfl

theorem eng_modEng (e : Nat) (f : Eng → Eng) : (s.modEng site e f).eng site e = f (s.eng site e) := by
  unfold State.modEng State.eng
  rw [cl_modCl, if_pos rfl]
  exact Store.get_upd_same _ _ _ _

theorem eng_modSlot (f : SlotSt → SlotSt) (c e : Nat) : (s.modSlot site n f).eng c e = s.eng c e := eng_modCl rfl c e

theorem eng_done4 (c e : Nat) : (s.done4 site n).eng c e = s.eng c e := eng_modSlot _ c e

theorem eng_done4_issue (c e : Nat) : ((s.done4 site n).issue site n).eng c e = s.eng c e :=
  (eng_modCl (s := s.done4 site n) rfl c e).trans (eng_done4 c e)

/-- The operation that a vector opcode issues (R154, R165). -/
def vecOp (s : State) (site n : Nat) (k : OpKind) (w : Nat) (s0 : Word) : Op :=
  { s.newOp site n k w (s.x site n (wRs1 w)).toNat with
    vl := s.fld (Reg.SLOT_VL_VL site n (wF7 w / 64)), scal := s0 :: (List.range 7).map fun i => (s.slot site n).getY (i + 1) }

/-- An issued vector operation joins its engine's queue, and its slot goes on (R51). -/
theorem issueVec_room {k : OpKind} {w : Nat} {s0 : Word} (hr : roomIn (s.eng site (wF7 w / 64)).queue n = true) :
    let t := (s.issueVec site n k w (s.slot site n) s0).issue site n
    s.retired4 t site n ∧ (t.eng site (wF7 w / 64)).queue = (s.eng site (wF7 w / 64)).queue ++ [s.vecOp site n k w s0]
      ∧ s.onlySlot t site n ∧ s.sameSlices t := by
  have hissue : s.issueVec site n k w (s.slot site n) s0 =
      (((s.bump site).modEng site (wF7 w / 64) fun x => { x with queue := x.queue ++ [s.vecOp site n k w s0] }).showQueues site).done4 site n :=
    if_pos hr
  rw [hissue]
  generalize hq : (s.bump site).modEng site (wF7 w / 64) (fun x => { x with queue := x.queue ++ [s.vecOp site n k w s0] }) = q
  have hframe : s.ArrFrame (q.showQueues site) site := by
    rw [← hq]
    exact ((ArrFrame.modCl rfl rfl).trans (.modCl rfl rfl)).trans (.of_onlyRegs (showQueues_only _ _))
  obtain ⟨hret, honly, hslices⟩ := done4_of_arrFrame (n := n) hframe
  refine ⟨hret, ?_, honly, hslices⟩
  rw [eng_done4_issue, eng_of_onlyRegs (showQueues_only _ _), ← hq, eng_modEng, State.bump, eng_modCl rfl]

variable {site : Site} {n : SlotId} {w : Nat}

/-- BZ.VSETVL with no reserved field. -/
theorem exec_bzVsetvl (h : s.atWord site n w) (ho : opcodeIs w 0x2B 0) (h2 : wRs2 w = 0)
    (h7 : wF7 w = 0 ∨ (isVector site = true ∧ wF7 w = 64)) :
    exec (.bzVsetvl site n) s = .next (((s.setFld (Reg.SLOT_VL_VL site n (wF7 w / 64)) (min (s.x site n (wRs1 w)).toNat 65536)).retireX site n 4
      (wRd w) (BitVec.ofNat 64 (min (s.x site n (wRs1 w)).toNat 65536))).issue site n) := by
  obtain ⟨he, hf⟩ := engineOnly_of h7
  have h2' : fRs2 w = 0 := h2
  simp only [exec, execBzVsetvl, barza_of_atWord h (barza_custom1 ho (by decide)), he, hf, h2', bne_self_eq_false, Bool.or_self,
    Bool.not_true, Bool.false_eq_true, if_false] <;> rfl

/-- BZ.VRUN with no reserved field. -/
theorem exec_bzVrun (h : s.atWord site n w) (ho : opcodeIs w 0x2B 1) (hd : wRd w = 0) (he : isVector site = true ∨ wF7 w < 64) :
    exec (.bzVrun site n) s = .next ((s.issueVec site n .vrun w (s.slot site n) ((s.x site n (wRs2 w)).setWidth 32)).issue site n) := by
  have hd' : fRd w = 0 := hd
  simp only [exec, execBzVrun, barza_of_atWord h (barza_custom1 ho (by decide)), engOk_of he, hd', bne_self_eq_false, Bool.or_self,
    Bool.not_true, Bool.false_eq_true, if_false] <;> rfl

/-- BZ.VRED with no reserved field. -/
theorem exec_bzVred (h : s.atWord site n w) (ho : opcodeIs w 0x2B 2) (hd : wRd w = 0) (h2 : wRs2 w = 0) (h3 : wF7 w / 8 % 8 = 0)
    (h6 : wF7 w % 8 < 6) (he : isVector site = true ∨ wF7 w < 64) :
    exec (.bzVred site n) s = .next ((s.issueVec site n .vred w (s.slot site n) 0).issue site n) := by
  have hd' : fRd w = 0 := hd
  have h2' : fRs2 w = 0 := h2
  have h3' : f7 w / 8 % 8 = 0 := h3
  have h6' : decide (6 ≤ f7 w % 8) = false := decide_eq_false (Nat.not_le.mpr h6)
  simp only [exec, execBzVred, barza_of_atWord h (barza_custom1 ho (by decide)), engOk_of he, hd', h2', h3', h6', bne_self_eq_false,
    Bool.or_self, Bool.not_true, Bool.false_eq_true, if_false]

/-- BZ.VPERM with no reserved field. -/
theorem exec_bzVperm (h : s.atWord site n w) (ho : opcodeIs w 0x2B 3) (hd : wRd w = 0) (h2 : wRs2 w = 0)
    (h7 : wF7 w = 0 ∨ (isVector site = true ∧ wF7 w = 64)) :
    exec (.bzVperm site n) s = .next ((s.issueVec site n .vperm w (s.slot site n) 0).issue site n) := by
  obtain ⟨he, hf⟩ := engineOnly_of h7
  have hd' : fRd w = 0 := hd
  have h2' : fRs2 w = 0 := h2
  simp only [exec, execBzVperm, barza_of_atWord h (barza_custom1 ho (by decide)), he, hf, hd', h2', bne_self_eq_false, Bool.or_self,
    Bool.not_true, Bool.false_eq_true, if_false]

/-- BZ.VCMPX with no reserved field. -/
theorem exec_bzVcmpx (h : s.atWord site n w) (ho : opcodeIs w 0x2B 4) (hd : wRd w = 0) (h2 : wRs2 w = 0) (h7 : wF7 w / 2 % 32 = 0)
    (he : isVector site = true ∨ wF7 w < 64) :
    exec (.bzVcmpx site n) s = .next ((s.issueVec site n .vcmpx w (s.slot site n) 0).issue site n) := by
  have hd' : fRd w = 0 := hd
  have h2' : fRs2 w = 0 := h2
  have h7' : f7 w / 2 % 32 = 0 := h7
  simp only [exec, execBzVcmpx, barza_of_atWord h (barza_custom1 ho (by decide)), engOk_of he, hd', h2', h7', bne_self_eq_false,
    Bool.or_self, Bool.not_true, Bool.false_eq_true, if_false]

/-- BZ.VSTAT with no reserved field. -/
theorem exec_bzVstat (h : s.atWord site n w) (ho : opcodeIs w 0x2B 5) (h1 : wRs1 w = 0) (h2 : wRs2 w = 0)
    (h7 : wF7 w = 0 ∨ (isVector site = true ∧ wF7 w = 64)) :
    exec (.bzVstat site n) s =
      .next ((s.retireX site n 4 (wRd w) ((s.rd (Reg.VE_STATUS site (wF7 w / 64))).setWidth 64)).issue site n) := by
  obtain ⟨he, hf⟩ := engineOnly_of h7
  have h1' : fRs1 w = 0 := h1
  have h2' : fRs2 w = 0 := h2
  simp only [exec, execBzVstat, barza_of_atWord h (barza_custom1 ho (by decide)), he, hf, h1', h2', bne_self_eq_false, Bool.or_self,
    Bool.not_true, Bool.false_eq_true, if_false] <;> rfl

/-- BZ.YMV with no reserved field, to and from the Y registers. -/
theorem exec_bzYmv (h : s.atWord site n w) (ho : opcodeIs w 0x2B 6) (h2 : wRs2 w = 0) (h7 : wF7 w < 2) :
    exec (.bzYmv site n) s = .next (State.issue (
      if wF7 w = 0 then (s.modSlot site n fun x => x.setY (wRd w) ((s.x site n (wRs1 w)).setWidth 32)).done4 site n
      else s.retireX site n 4 (wRd w) (((s.slot site n).getY (wRs1 w)).signExtend 64)) site n) := by
  have h2' : fRs2 w = 0 := h2
  have h7' : f7 w / 2 = 0 := Nat.div_eq_of_lt h7
  simp only [exec, execBzYmv, barza_of_atWord h (barza_custom1 ho (by decide)), h2', h7', bne_self_eq_false, Bool.or_self,
    Bool.false_eq_true, if_false] <;> rfl

/-- A slot whose VL was set, and which then retires. -/
theorem vsetvl_leaves {e v rd : Nat} (he : e < 2) (hn : n.val < 4) (hv : v < 2 ^ 17) {x : DWord} :
    let t := ((s.setFld (Reg.SLOT_VL_VL site n e) v).retireX site n 4 rd x).issue site n
    t.fld (Reg.SLOT_VL_VL site n e) = v
      ∧ s.sameRegs t (fun o => o = Reg.SLOT_STATUS site n ∨ o = Reg.SLOT_VL site n e) := by
  have hf : (s.setFld (Reg.SLOT_VL_VL site n e) v).SlotFrame
      (((s.setFld (Reg.SLOT_VL_VL site n e) v).retireX site n 4 rd x).issue site n) site n := SlotFrame.trans (.retireX _ _ _) .issue
  refine ⟨?_, fun o ho => ?_⟩
  · refine (fld_of_rd (f := Reg.SLOT_VL_VL site n e) (hf.regs _ ?_)).trans ((fld_setFld_same s _ (show 0 + 17 ≤ 32 by decide)).trans (Nat.mod_eq_of_lt hv))
    simp only [Reg.SLOT_STATUS]
    omega
  · exact (hf.regs o fun h => ho (.inl h)).trans (rd_setFld_other s _ fun h => ho (.inr h))

/-- A slot whose Y register was written, and which then retires. -/
theorem modSlot_done4_leaves (f : SlotSt → SlotSt) :
    let t := ((s.modSlot site n f).done4 site n).issue site n
    t.slot site n = { f (s.slot site n) with pc := ((f (s.slot site n)).pc + 4) % 2 ^ 64, instret := (f (s.slot site n)).instret + 1, stallOn := none }
      ∧ s.onlySlot t site n ∧ s.sameRegs t (· = Reg.SLOT_STATUS site n) := by
  have hf : s.SlotFrame (((s.modSlot site n f).done4 site n).issue site n) site n := (SlotFrame.modSlot f).trans .done4_issue
  refine ⟨?_, hf.onlySlot, hf.sameRegs⟩
  rw [slot_issue, State.done4, slot_retire, slot_modSlot_same]

end State

/-- Settles O23. An opcode with no reserved field retires with its result, or joins the queue of its engine. -/
theorem vectorOpcodesIssue : Obligations.VectorOpcodesIssue := by
  unfold Obligations.VectorOpcodesIssue
  refine ⟨?_, ?_, ?_, ?_, ?_, ?_, ?_, ?_⟩
  · intro s site n w h ho h2 h7
    refine ⟨_, State.exec_bzVsetvl h ho h2 h7, ?_⟩
    have he : wF7 w / 64 < 2 := by omega
    obtain ⟨hret, hres, honly, hslices⟩ := State.retireX_of_arrFrame (n := n) (.of_onlyRegs (site := site)
      (setFld_only s (Reg.SLOT_VL_VL site n (wF7 w / 64)) (min (s.x site n (wRs1 w)).toNat 65536))) w
      (BitVec.ofNat 64 (min (s.x site n (wRs1 w)).toNat 65536))
    obtain ⟨hvl, hregs⟩ := State.vsetvl_leaves (s := s) (site := site) (n := n) (v := min (s.x site n (wRs1 w)).toNat 65536) he n.isLt (by omega)
    exact ⟨hret, hvl, hres, honly, hregs, hslices⟩
  · intro s site n w h ho hd he hr
    obtain ⟨hret, hq, hframe⟩ := State.issueVec_room hr
    exact ⟨_, State.exec_bzVrun h ho hd he, hret, ⟨_, hq, rfl, rfl, rfl, rfl⟩, hframe⟩
  · intro s site n w h ho hd h2 h3 h6 he hr
    obtain ⟨hret, hq, hframe⟩ := State.issueVec_room hr
    exact ⟨_, State.exec_bzVred h ho hd h2 h3 h6 he, hret, ⟨_, hq, rfl, rfl, rfl⟩, hframe⟩
  · intro s site n w h ho hd h2 h7 hr
    obtain ⟨hret, hq, hframe⟩ := State.issueVec_room hr
    exact ⟨_, State.exec_bzVperm h ho hd h2 h7, hret, ⟨_, hq, rfl⟩, hframe⟩
  · intro s site n w h ho hd h2 h7 he hr
    obtain ⟨hret, hq, hframe⟩ := State.issueVec_room hr
    exact ⟨_, State.exec_bzVcmpx h ho hd h2 h7 he, hret, ⟨_, hq, rfl, rfl⟩, hframe⟩
  · intro s site n w h ho h1 h2 h7
    exact ⟨_, State.exec_bzVstat h ho h1 h2 h7, State.retireX_issue _ _⟩
  · intro s site n w h ho h2 h7
    refine ⟨_, State.exec_bzYmv h ho h2 (by omega), ?_⟩
    rw [if_pos h7]
    obtain ⟨hslot, honly, hregs⟩ := State.modSlot_done4_leaves (s := s) (site := site) (n := n)
      fun x => x.setY (wRd w) ((s.x site n (wRs1 w)).setWidth 32)
    exact ⟨⟨by rw [hslot]; rfl, by rw [hslot]; rfl⟩, by rw [hslot]; exact SlotSt.getY_setY _ _ _, by rw [hslot]; rfl, honly, hregs⟩
  · intro s site n w h ho h2 h7
    refine ⟨_, State.exec_bzYmv h ho h2 (by omega), ?_⟩
    rw [if_neg (by omega)]
    exact State.retireX_issue _ _

end Sys2Proof.Machine
end
